-- ==== Sys2Proof/Word.lean ====
section
/-! DEFINITION. The byte of a line, the fixed-length table the block's numbered records stand in, and
the two-sided difference. Rules: section 4.2 of 00_scope.md (whole numbers), section 12.2 (bytes). -/

namespace Sys2Proof

/-- One byte as it stands in a frame (section 12.1). -/
abbrev Byte := BitVec 8

/-- A table of exactly `n` like records, numbered from 0: pay lines, basket slots, plan slots, elements. -/
structure Tab (α : Type) (n : Nat) where
  list : List α
  len : list.length = n
deriving DecidableEq, Repr

/-- The record numbered `i`. -/
def Tab.get {α : Type} {n : Nat} (t : Tab α n) (i : Fin n) : α :=
  t.list[i.val]'(by have := t.len; omega)

/-- The table with record `i` replaced. -/
def Tab.set {α : Type} {n : Nat} (t : Tab α n) (i : Fin n) (x : α) : Tab α n :=
  ⟨t.list.set i.val x, by simp [t.len]⟩

/-- The table with record `i` changed by `f`. -/
def Tab.modify {α : Type} {n : Nat} (t : Tab α n) (i : Fin n) (f : α → α) : Tab α n :=
  t.set i (f (t.get i))

/-- A table whose records are all `x`. -/
def Tab.replicate {α : Type} (n : Nat) (x : α) : Tab α n := ⟨List.replicate n x, by simp⟩

/-- Every record changed by `f`. -/
def Tab.map {α β : Type} {n : Nat} (t : Tab α n) (f : α → β) : Tab β n :=
  ⟨t.list.map f, by simp [t.len]⟩

/-- The numbers `0 … n-1`, in order. -/
def indices (n : Nat) : List (Fin n) := List.finRange n

/-- |a - b| on whole numbers. -/
def absDiff (a b : Nat) : Nat := (a - b) + (b - a)

end Sys2Proof
end

