-- ==== Sys2Proof/Syntax.lean ====
section
/-! DEFINITION. The commands of the block: one constructor per row of spec/opcode_table.json. A request's
operands are the fields of its message as section 12.2 encodes them, not yet decoded, so that every
field a frame can carry is a term, malformed ones among them (R177). -/

namespace Sys2Proof

/-- A link that carries requests (section 10.1): a kiosk link KL0–KL7, a concession link CL0–CL3, or OL. -/
inductive Link where
  | kiosk (n : Fin 8)
  | concession (n : Fin 4)
  | office
deriving DecidableEq, Repr

/-- One of the 29 lines (section 2.1 of 00_scope.md). -/
inductive Line where
  | kl (n : Fin 8)
  | pl (n : Fin 8)
  | tl (n : Fin 8)
  | cl (n : Fin 4)
  | ol
deriving DecidableEq, Repr

/-- The line a link is. -/
def Link.line : Link → Line
  | .kiosk n => .kl n
  | .concession n => .cl n
  | .office => .ol

/-- A seat reference field: row, position (section 12.2). -/
structure SeatRef where
  row : Byte
  pos : Byte
deriving DecidableEq, Repr

/-- An item of a HOLD_SEATS list: a seat and its ticket type (R37). -/
structure SeatWish where
  seat : SeatRef
  type : Byte
deriving DecidableEq, Repr

/-- The seat requests that wait in the seat request queue (R33), with their fields. -/
inductive SeatRequest where
  | holdSeats (slot : Byte) (ref : BitVec 16) (seats : List SeatWish) (override : Byte)
  | holdBest (slot : Byte) (ref : BitVec 16) (count filter : Byte) (types : List Byte) (override : Byte)
  | releaseSeats (slot : Byte) (ref : BitVec 16) (seats : List SeatRef)
  | setType (slot : Byte) (ref : BitVec 16) (seat : SeatRef) (type : Byte)
  | queryMap (screening : BitVec 16) (first last : Byte)
  | blockSeats (screening : BitVec 16) (seats : List SeatRef)
  | unblockSeats (screening : BitVec 16) (seats : List SeatRef)
deriving DecidableEq, Repr

/-- The fields of a LOAD_PLAN header (R3). -/
structure PlanFields where
  plan : Byte
  name : List Byte
  rows : Byte
  positions : Byte
  bestRow : Byte
  bestCentre : Byte
  orphan : Byte
  wheelchair : Byte
deriving DecidableEq, Repr

/-- The fields of a LOAD_SCREENING (R8); the late window stands after its presence flag, as 1 byte (DESIGN CHOICE, log
entry 37). -/
structure ScreeningFields where
  id : BitVec 16
  plan : Byte
  start : BitVec 16
  cls : Byte
  matinee : Byte
  kioskSales : Byte
  latePresent : Byte
  late : Byte
deriving DecidableEq, Repr

/-- The fields of a DAY_OPEN (R21); the two starts stand after their presence flags. -/
structure DayFields where
  day : BitVec 16
  clock : BitVec 24
  salePresent : Byte
  saleStart : BitVec 24
  serialPresent : Byte
  serialStart : BitVec 24
deriving DecidableEq, Repr

/-- One ticket of a RESTORE_SALE (section 12.5). -/
structure TicketFields where
  seat : SeatRef
  type : Byte
  price : BitVec 32
  state : Byte
  used : Byte
deriving DecidableEq, Repr

/-- One voucher of a RESTORE_SALE (section 12.5). -/
structure VoucherFields where
  code : BitVec 40
  kind : Byte
  price : BitVec 32
  state : Byte
  link : Byte
  minute : BitVec 16
deriving DecidableEq, Repr

/-- The sale record a RESTORE_SALE carries (R124, section 12.5). -/
structure SaleFields where
  number : BitVec 24
  screening : BitVec 16
  origin : Byte
  generation : Byte
  tickets : List TicketFields
  vouchers : List VoucherFields
  t : BitVec 32
  d : BitVec 32
  v : BitVec 32
  total : BitVec 32
  x : BitVec 32
  paid : Byte
  payLine : Byte
  payRef : BitVec 16
  approval : List Byte
deriving DecidableEq, Repr

/-- What happens at a ticket line's fault input (R154): an assertion begins, has lasted for a time in
milliseconds without a break, or ends. -/
inductive FaultInput where
  | begins
  | lasts (ms : Nat)
  | ends
deriving DecidableEq, Repr

/-- The commands. `src` is the link a request arrived on, `tag` its tag byte. The steps of the arbiter
take what waits in the seat request queue and so carry no operand. -/
inductive Instr where
  -- resets and time
  | powerOnReset
  | resetPin
  | restart (src : Link) (tag : Byte)
  | restartReset
  | secondTick
  | clockSecond
  | minutePulse
  | noPulseExpiry
  | holdCountdownExpiry (slot : Fin 16)
  | acceptWaitExpiry (line : Fin 8)
  | authorizationWaitExpiry (line : Fin 8)
  | reversalIntervalExpiry (line : Fin 8)
  | refundQuoteExpiry (sale : Nat)
  | reprintWindowExpiry (station : Fin 8)
  | printerRestExpiry (line : Fin 8)
  | filteredFault (line : Fin 8) (input : FaultInput)
  | badFrame (line : Line)
  | frameGapTimeout (line : Line) (gap : Nat)
  -- plans and screenings
  | loadPlan (src : Link) (tag : Byte) (fields : PlanFields)
  | planRow (src : Link) (tag : Byte) (plan row : Byte) (cells : List Byte)
  | loadScreening (src : Link) (tag : Byte) (fields : ScreeningFields)
  | setScreening (src : Link) (tag : Byte) (id : BitVec 16) (target : Byte)
  | setKioskSales (src : Link) (tag : Byte) (id : BitVec 16) (value : Byte)
  | closeScreening (src : Link) (tag : Byte) (id : BitVec 16)
  | archive (src : Link) (tag : Byte) (id : BitVec 16)
  | queryScreening (src : Link) (tag : Byte) (id : BitVec 16)
  -- clock
  | dayOpen (src : Link) (tag : Byte) (fields : DayFields)
  | setTime (src : Link) (tag : Byte) (clock : BitVec 24)
  | setSync (src : Link) (tag : Byte) (mode : Byte)
  | clearPulseCount (src : Link) (tag : Byte)
  | queryClock (src : Link) (tag : Byte)
  -- seats
  | seatRequestJoin (src : Link) (tag : Byte) (request : SeatRequest)
  | holdSeats
  | holdBest
  | bestBlockSearchEnd
  | releaseSeats
  | setType
  | queryMap
  | blockSeats
  | unblockSeats
  | setLevel (src : Link) (tag : Byte) (requester level : Byte)
  | releaseBasket
  | sellBasket
  | freeSale
  | restoreSeats
  -- baskets
  | openBasket (src : Link) (tag : Byte) (screening : BitVec 16)
  | addVoucher (src : Link) (tag : Byte) (slot : Byte) (ref : BitVec 16) (kind quantity : Byte)
  | dropVoucher (src : Link) (tag : Byte) (slot : Byte) (ref : BitVec 16) (kind quantity : Byte)
  | tally (src : Link) (tag : Byte) (slot : Byte) (ref : BitVec 16)
  | reopen (src : Link) (tag : Byte) (slot : Byte) (ref : BitVec 16)
  | extend (src : Link) (tag : Byte) (slot : Byte) (ref : BitVec 16)
  | cancel (src : Link) (tag : Byte) (slot : Byte) (ref : BitVec 16)
  | pay (src : Link) (tag : Byte) (slot : Byte) (ref : BitVec 16) (amount : BitVec 32)
  | settle (src : Link) (tag : Byte) (slot : Byte) (ref : BitVec 16) (line : Byte)
  | queryBasket (src : Link) (tag : Byte) (slot refPresent : Byte) (ref : BitVec 16)
  -- pay lines
  | accepted (line : Fin 8) (payRef : BitVec 16)
  | progress (line : Fin 8) (payRef : BitVec 16) (stage : Byte)
  | approved (line : Fin 8) (payRef : BitVec 16) (code : List Byte) (amount : BitVec 32)
  | declined (line : Fin 8) (payRef : BitVec 16) (reason : Byte)
  | aborted (line : Fin 8) (payRef : BitVec 16)
  | reversed (line : Fin 8) (payRef : BitVec 16)
  | strayMessage (line : Fin 8) (body : List Byte)
  -- prices
  | stagePrices (src : Link) (tag : Byte) (part : Byte) (fields : List Byte)
  | setApplyMode (src : Link) (tag : Byte) (mode : Byte) (minute : BitVec 16)
  | applyPrices (src : Link) (tag : Byte)
  | clearStaged (src : Link) (tag : Byte)
  | queryPrices (src : Link) (tag : Byte) (bank : Byte)
  | resolve (src : Link) (tag : Byte) (slot : Byte) (ref : BitVec 16) (verdict : Byte) (code : List Byte)
  -- sales
  | refundQuote (src : Link) (tag : Byte) (sale : BitVec 24)
  | refundCommit (src : Link) (tag : Byte) (sale : BitVec 24) (amount : BitVec 32)
  | refundCancel (src : Link) (tag : Byte) (sale : BitVec 24)
  | reprint (src : Link) (tag : Byte) (sale : BitVec 24) (set line override : Byte)
  | restoreSale (src : Link) (tag : Byte) (fields : SaleFields)
  | querySale (src : Link) (tag : Byte) (sale : BitVec 24)
  -- vouchers and stock
  | redeem (src : Link) (tag : Byte) (code : BitVec 40)
  | check (src : Link) (tag : Byte) (code : BitVec 40)
  | setStock (src : Link) (tag : Byte) (kind : Byte) (allotment : BitVec 16) (lowPresent : Byte) (low : BitVec 16)
  | clearTaken (src : Link) (tag : Byte) (kind : Byte)
  | queryVoucher (src : Link) (tag : Byte) (code : BitVec 40)
  | queryStock (src : Link) (tag : Byte)
  -- printing
  | powerOn (src : Link) (tag : Byte) (line : Byte)
  | powerOff (src : Link) (tag : Byte) (line : Byte)
  | stop (src : Link) (tag : Byte) (line : Byte)
  | halt (src : Link) (tag : Byte) (line : Byte)
  | resume (src : Link) (tag : Byte) (line : Byte)
  | clear (src : Link) (tag : Byte) (line : Byte)
  | elementDone (line : Fin 8) (element result : Byte)
  | printerState (line : Fin 8) (status : Byte)
  -- lines, alarms, parameters
  | bindStation (src : Link) (tag : Byte) (station kiosk pay ticket : Byte)
  | unbind (src : Link) (tag : Byte) (station : Byte)
  | openStation (src : Link) (tag : Byte) (station : Byte)
  | closeStation (src : Link) (tag : Byte) (station : Byte)
  | openConcession (src : Link) (tag : Byte) (line : Byte)
  | closeConcession (src : Link) (tag : Byte) (line : Byte)
  | clearFrameCount (src : Link) (tag : Byte) (line : Byte)
  | queryLine (src : Link) (tag : Byte) (line : Byte)
  | setAlarmEnable (src : Link) (tag : Byte) (set : BitVec 16) (value : Byte)
  | ackAlarms (src : Link) (tag : Byte) (set : BitVec 16)
  | setParam (src : Link) (tag : Byte) (param line present : Byte) (value : BitVec 16)
  -- frames
  | frameByte (line : Line) (byte : Byte)
  | frameSent (line : Line)
  | unrecognisedRequest (src : Link) (tag kind : Byte)
deriving DecidableEq, Repr

end Sys2Proof
end

