-- ==== Sys2Proof/WellFormed.lean ====
section
/-! DEFINITION. The commands a message can spell: the lists within the count their kind allows and the
fields of fixed length at that length (R177, section 12.2). A request that is not well formed in this sense
is one whose body's length does not suit its kind (check 3 of R162, check 4 of R163). -/

namespace Sys2Proof

/-- The list limits of R37, R41, R44, R47 and R48. -/
def SeatRequest.wellFormed : SeatRequest → Bool
  | .holdSeats _ _ seats _ => seats.length ≤ 10
  | .holdBest _ _ _ _ types _ => types.length ≤ 10
  | .releaseSeats _ _ seats => seats.length ≤ 10
  | .setType _ _ _ _ => true
  | .queryMap _ _ _ => true
  | .blockSeats _ seats => seats.length ≤ 40
  | .unblockSeats _ seats => seats.length ≤ 40

/-- The length of a part's fields (R77, section 5.1): 12 amounts; 3 amounts and m; 8 times two amounts and
a flag; G, g and r. An unknown part has none, so the line interface judges its request as one of a wrong length
(DESIGN CHOICE, log entry 38). -/
def partLength (part : Byte) : Option Nat :=
  match part.toNat with
  | 1 => some 48
  | 2 => some 13
  | 3 => some 72
  | 4 => some 3
  | _ => none

/-- R124: 1–10 tickets and 0–8 vouchers; the count bytes may not exceed those limits. -/
def SaleFields.wellFormed (f : SaleFields) : Bool :=
  f.tickets.length ≤ 10 && f.vouchers.length ≤ 8 && f.approval.length == 6

/-- The command is one that a message of the right length can spell. -/
def Instr.wellFormed : Instr → Bool
  | .loadPlan _ _ f => f.name.length == 16
  | .planRow _ _ _ _ cells => cells.length ≤ 40
  | .seatRequestJoin _ _ q => q.wellFormed
  | .approved _ _ code _ => code.length == 6
  | .strayMessage _ body => 2 ≤ body.length && body.length ≤ 250
  | .stagePrices _ _ part fields => partLength part == some fields.length
  | .resolve _ _ _ _ _ code => code.length == 6
  | .restoreSale _ _ f => f.wellFormed
  | _ => true

end Sys2Proof
end

