-- ==== Sys2Proof/Decode.lean ====
section
/-! DEFINITION. Frames and messages: the CRC of R159, whether the bytes of a frame are complete, good or
bad, and the command that a good frame's body spells (sections 12.1 to 12.3). The table gives no row any
bits, so no word spells a command. -/

namespace Sys2Proof

/-- One bit of the CRC-16 of R159: polynomial x^16 + x^12 + x^5 + 1. -/
def crcBit (c : BitVec 16) : BitVec 16 :=
  if c.msb then (c <<< 1) ^^^ 0x1021#16 else c <<< 1

/-- One byte of the CRC, most significant bit first. -/
def crcByte (c : BitVec 16) (b : Byte) : BitVec 16 :=
  Nat.rec (c ^^^ (b.setWidth 16 <<< 8)) (fun _ r => crcBit r) 8

/-- The CRC-16 of R159: initial value all ones, no final inversion. -/
def crc16 (bytes : List Byte) : BitVec 16 := bytes.foldl crcByte 0xFFFF#16

/-- The bytes of the frame that carries a body (section 12.1). -/
def frameBytes (body : List Byte) : List Byte :=
  let covered := BitVec.ofNat 8 body.length :: body
  let c := crc16 covered
  0xA5#8 :: covered ++ [(c >>> 8).setWidth 8, c.setWidth 8]

/-- What the bytes after a start byte make. -/
inductive FrameStatus where
  | incomplete
  | bad
  | good (body : List Byte)
deriving DecidableEq, Repr

/-- R159: a length byte outside 2–250 makes a bad frame at once; when the last CRC byte has arrived the
CRC over the length byte and the body must agree. -/
def frameStatus (bytes : List Byte) : FrameStatus :=
  match bytes with
  | [] => .incomplete
  | n :: rest =>
    if n.toNat < 2 ∨ 250 < n.toNat then .bad
    else if rest.length < n.toNat + 2 then .incomplete
    else
      let body := rest.take n.toNat
      let c := crc16 (n :: body)
      if rest.drop n.toNat = [(c >>> 8).setWidth 8, c.setWidth 8] then .good body else .bad

/-- Two bytes, big-endian (section 4.5 of 00_scope.md). -/
def word2 (a b : Byte) : BitVec 16 := a ++ b
/-- Three bytes, big-endian. -/
def word3 (a b c : Byte) : BitVec 24 := word2 a b ++ c
/-- Four bytes, big-endian. -/
def word4 (a b c d : Byte) : BitVec 32 := word3 a b c ++ d
/-- Five bytes, big-endian. -/
def word5 (a b c d e : Byte) : BitVec 40 := word4 a b c d ++ e

/-- `n` items, each read by `item`. -/
def readItems {α : Type} (item : List Byte → Option (α × List Byte)) :
    Nat → List Byte → Option (List α × List Byte)
  | 0, bs => some ([], bs)
  | n + 1, bs =>
    match item bs with
    | none => none
    | some (x, rest) =>
      match readItems item n rest with
      | none => none
      | some (xs, rest') => some (x :: xs, rest')

/-- A list: a count byte, then that many items (section 12.2). -/
def readList {α : Type} (item : List Byte → Option (α × List Byte)) :
    List Byte → Option (List α × List Byte)
  | [] => none
  | n :: rest => readItems item n.toNat rest

/-- A one-byte item. -/
def readByte : List Byte → Option (Byte × List Byte)
  | b :: rest => some (b, rest)
  | [] => none

/-- A seat reference. -/
def readSeat : List Byte → Option (SeatRef × List Byte)
  | r :: p :: rest => some (⟨r, p⟩, rest)
  | _ => none

/-- A seat reference and a ticket type. -/
def readWish : List Byte → Option (SeatWish × List Byte)
  | r :: p :: t :: rest => some (⟨⟨r, p⟩, t⟩, rest)
  | _ => none

/-- A ticket of a RESTORE_SALE, 9 bytes (section 12.5). -/
def readTicket : List Byte → Option (TicketFields × List Byte)
  | r :: p :: t :: a :: b :: c :: d :: s :: u :: rest =>
    some (⟨⟨r, p⟩, t, word4 a b c d, s, u⟩, rest)
  | _ => none

/-- A voucher of a RESTORE_SALE, 14 bytes (section 12.5). -/
def readVoucher : List Byte → Option (VoucherFields × List Byte)
  | c0 :: c1 :: c2 :: c3 :: c4 :: k :: a :: b :: c :: d :: s :: l :: m1 :: m0 :: rest =>
    some (⟨word5 c0 c1 c2 c3 c4, k, word4 a b c d, s, l, word2 m1 m0⟩, rest)
  | _ => none

/-- The fields of a RESTORE_SALE: the sale record without state, flag and quote (section 12.5). -/
def readSale : List Byte → Option SaleFields
  | n2 :: n1 :: n0 :: s1 :: s0 :: o :: g :: rest =>
    match readList readTicket rest with
    | none => none
    | some (tickets, rest) =>
      match readList readVoucher rest with
      | none => none
      | some (vouchers, rest) =>
        match rest with
        | [t3, t2, t1, t0, d3, d2, d1, d0, v3, v2, v1, v0, w3, w2, w1, w0, x3, x2, x1, x0,
            pd, pl, r1, r0, a5, a4, a3, a2, a1, a0] =>
          some ⟨word3 n2 n1 n0, word2 s1 s0, o, g, tickets, vouchers, word4 t3 t2 t1 t0, word4 d3 d2 d1 d0,
            word4 v3 v2 v1 v0, word4 w3 w2 w1 w0, word4 x3 x2 x1 x0, pd, pl, word2 r1 r0,
            [a5, a4, a3, a2, a1, a0]⟩
        | _ => none
  | _ => none

/-- The fields of a seat request, by its kind (section 12.3). -/
def readSeatRequest (kind : Nat) (fields : List Byte) : Option SeatRequest :=
  match kind, fields with
  | 0x10, slot :: r1 :: r0 :: rest =>
    match readList readWish rest with
    | some (seats, [o]) => some (.holdSeats slot (word2 r1 r0) seats o)
    | _ => none
  | 0x11, slot :: r1 :: r0 :: n :: z :: rest =>
    match readList readByte rest with
    | some (types, [o]) => some (.holdBest slot (word2 r1 r0) n z types o)
    | _ => none
  | 0x12, slot :: r1 :: r0 :: rest =>
    match readList readSeat rest with
    | some (seats, []) => some (.releaseSeats slot (word2 r1 r0) seats)
    | _ => none
  | 0x13, [slot, r1, r0, row, pos, t] => some (.setType slot (word2 r1 r0) ⟨row, pos⟩ t)
  | 0x14, [s1, s0, first, last] => some (.queryMap (word2 s1 s0) first last)
  | 0x15, s1 :: s0 :: rest =>
    match readList readSeat rest with
    | some (seats, []) => some (.blockSeats (word2 s1 s0) seats)
    | _ => none
  | 0x16, s1 :: s0 :: rest =>
    match readList readSeat rest with
    | some (seats, []) => some (.unblockSeats (word2 s1 s0) seats)
    | _ => none
  | _, _ => none

/-- The requests of the plan, screening and clock kinds (0x01–0x0E); a LOAD_SCREENING's late window is 1 byte, as a
small number and not as a minute, and a DAY_OPEN's day number is 2 bytes and its voucher serial 3 bytes of binary
(DESIGN CHOICE, log entry 37). -/
def readDayRequest (src : Link) (tag : Byte) (kind : Nat) (fields : List Byte) : Option Instr :=
  match kind, fields with
  | 0x01, p :: rest =>
    match readItems readByte 16 rest with
    | some (name, [rows, pos, br, bc, o, w]) => some (.loadPlan src tag ⟨p, name, rows, pos, br, bc, o, w⟩)
    | _ => none
  | 0x02, p :: r :: rest =>
    match readList readByte rest with
    | some (cells, []) => some (.planRow src tag p r cells)
    | _ => none
  | 0x03, [i1, i0, p, s1, s0, c, m, k, f, l] =>
    some (.loadScreening src tag ⟨word2 i1 i0, p, word2 s1 s0, c, m, k, f, l⟩)
  | 0x04, [i1, i0, t] => some (.setScreening src tag (word2 i1 i0) t)
  | 0x05, [i1, i0, v] => some (.setKioskSales src tag (word2 i1 i0) v)
  | 0x06, [i1, i0] => some (.closeScreening src tag (word2 i1 i0))
  | 0x07, [i1, i0] => some (.archive src tag (word2 i1 i0))
  | 0x08, [i1, i0] => some (.queryScreening src tag (word2 i1 i0))
  | 0x0A, [d1, d0, c2, c1, c0, sf, s2, s1, s0, vf, v2, v1, v0] =>
    some (.dayOpen src tag ⟨word2 d1 d0, word3 c2 c1 c0, sf, word3 s2 s1 s0, vf, word3 v2 v1 v0⟩)
  | 0x0B, [c2, c1, c0] => some (.setTime src tag (word3 c2 c1 c0))
  | 0x0C, [m] => some (.setSync src tag m)
  | 0x0D, [] => some (.clearPulseCount src tag)
  | 0x0E, [] => some (.queryClock src tag)
  | _, _ => none

/-- The requests of the seat, basket, price and payment kinds (0x10–0x2A); a STAGE_PRICES whose part name is unknown
has no length that suits it (DESIGN CHOICE, log entry 38), and a SET_APPLY_MODE carries the 2 bytes of its minute in
every mode (DEDUCED, log entry 15). -/
def readBasketRequest (src : Link) (tag : Byte) (kind : Nat) (fields : List Byte) : Option Instr :=
  match kind, fields with
  | 0x17, [q, l] => some (.setLevel src tag q l)
  | 0x18, [i1, i0] => some (.openBasket src tag (word2 i1 i0))
  | 0x19, [s, r1, r0, k, q] => some (.addVoucher src tag s (word2 r1 r0) k q)
  | 0x1A, [s, r1, r0, k, q] => some (.dropVoucher src tag s (word2 r1 r0) k q)
  | 0x1B, [s, r1, r0] => some (.tally src tag s (word2 r1 r0))
  | 0x1C, [s, r1, r0] => some (.reopen src tag s (word2 r1 r0))
  | 0x1D, [s, r1, r0] => some (.extend src tag s (word2 r1 r0))
  | 0x1E, [s, r1, r0] => some (.cancel src tag s (word2 r1 r0))
  | 0x1F, [s, r1, r0, a, b, c, d] => some (.pay src tag s (word2 r1 r0) (word4 a b c d))
  | 0x20, [s, r1, r0, l] => some (.settle src tag s (word2 r1 r0) l)
  | 0x21, [s, f, r1, r0] => some (.queryBasket src tag s f (word2 r1 r0))
  | 0x24, part :: rest =>
    if partLength part = some rest.length then some (.stagePrices src tag part rest) else none
  | 0x25, [m, t1, t0] => some (.setApplyMode src tag m (word2 t1 t0))
  | 0x26, [] => some (.applyPrices src tag)
  | 0x27, [] => some (.clearStaged src tag)
  | 0x28, [b] => some (.queryPrices src tag b)
  | 0x2A, [s, r1, r0, v, a5, a4, a3, a2, a1, a0] =>
    some (.resolve src tag s (word2 r1 r0) v [a5, a4, a3, a2, a1, a0])
  | _, _ => none

/-- The requests of the sale, voucher, stock and printing kinds (0x2C–0x41). -/
def readSaleRequest (src : Link) (tag : Byte) (kind : Nat) (fields : List Byte) : Option Instr :=
  match kind, fields with
  | 0x2C, [n2, n1, n0] => some (.refundQuote src tag (word3 n2 n1 n0))
  | 0x2D, [n2, n1, n0, a, b, c, d] => some (.refundCommit src tag (word3 n2 n1 n0) (word4 a b c d))
  | 0x2E, [n2, n1, n0] => some (.refundCancel src tag (word3 n2 n1 n0))
  | 0x2F, [n2, n1, n0, set, l, o] => some (.reprint src tag (word3 n2 n1 n0) set l o)
  | 0x30, rest => (readSale rest).map (.restoreSale src tag)
  | 0x31, [n2, n1, n0] => some (.querySale src tag (word3 n2 n1 n0))
  | 0x34, [c4, c3, c2, c1, c0] => some (.redeem src tag (word5 c4 c3 c2 c1 c0))
  | 0x35, [c4, c3, c2, c1, c0] => some (.check src tag (word5 c4 c3 c2 c1 c0))
  | 0x36, [k, a1, a0, f, l1, l0] => some (.setStock src tag k (word2 a1 a0) f (word2 l1 l0))
  | 0x37, [k] => some (.clearTaken src tag k)
  | 0x38, [c4, c3, c2, c1, c0] => some (.queryVoucher src tag (word5 c4 c3 c2 c1 c0))
  | 0x39, [] => some (.queryStock src tag)
  | 0x3C, [l] => some (.powerOn src tag l)
  | 0x3D, [l] => some (.powerOff src tag l)
  | 0x3E, [l] => some (.stop src tag l)
  | 0x3F, [l] => some (.halt src tag l)
  | 0x40, [l] => some (.resume src tag l)
  | 0x41, [l] => some (.clear src tag l)
  | _, _ => none

/-- The requests of the line, alarm and parameter kinds (0x44–0x4F). -/
def readLineRequest (src : Link) (tag : Byte) (kind : Nat) (fields : List Byte) : Option Instr :=
  match kind, fields with
  | 0x44, [s, k, p, t] => some (.bindStation src tag s k p t)
  | 0x45, [s] => some (.unbind src tag s)
  | 0x46, [s] => some (.openStation src tag s)
  | 0x47, [s] => some (.closeStation src tag s)
  | 0x48, [l] => some (.openConcession src tag l)
  | 0x49, [l] => some (.closeConcession src tag l)
  | 0x4A, [l] => some (.clearFrameCount src tag l)
  | 0x4B, [l] => some (.queryLine src tag l)
  | 0x4C, [] => some (.restart src tag)
  | 0x4D, [a1, a0, v] => some (.setAlarmEnable src tag (word2 a1 a0) v)
  | 0x4E, [a1, a0] => some (.ackAlarms src tag (word2 a1 a0))
  | 0x4F, [p, l, f, v1, v0] => some (.setParam src tag p l f (word2 v1 v0))
  | _, _ => none

/-- The command a request's body spells. A seat request's step is its joining of the queue (R33); a body
whose kind names no request, or whose length does not suit its kind, is an unrecognised request
(check 3 of R162, check 4 of R163, R177). -/
def decodeRequest (src : Link) (body : List Byte) : Instr :=
  match body with
  | kind :: tag :: fields =>
    let k := kind.toNat
    let read :=
      if k < 0x10 then readDayRequest src tag k fields
      else if k < 0x17 then (readSeatRequest k fields).map (.seatRequestJoin src tag)
      else if k < 0x2C then readBasketRequest src tag k fields
      else if k < 0x44 then readSaleRequest src tag k fields
      else readLineRequest src tag k fields
    read.getD (.unrecognisedRequest src tag kind)
  | _ => .unrecognisedRequest src 0 0

/-- The command a terminal's message spells (section 6.1, section 12.3); one that is not of the six, or
whose length does not suit its kind, is stray (R91, R178). -/
def decodeTerminal (line : Fin 8) (body : List Byte) : Instr :=
  match body.map BitVec.toNat, body.drop 2 with
  | 0x58 :: _, [r1, r0] => .accepted line (word2 r1 r0)
  | 0x59 :: _, [r1, r0, s] => .progress line (word2 r1 r0) s
  | 0x5A :: _, [r1, r0, a5, a4, a3, a2, a1, a0, w, x, y, z] =>
    .approved line (word2 r1 r0) [a5, a4, a3, a2, a1, a0] (word4 w x y z)
  | 0x5B :: _, [r1, r0, s] => .declined line (word2 r1 r0) s
  | 0x5C :: _, [r1, r0] => .aborted line (word2 r1 r0)
  | 0x5D :: _, [r1, r0] => .reversed line (word2 r1 r0)
  | _, _ => .strayMessage line body

/-- The command a printer's message spells (section 12.5); any other message is discarded (R147, R178). -/
def decodePrinter (line : Fin 8) (body : List Byte) : Option Instr :=
  match body.map BitVec.toNat, body.drop 2 with
  | 0x5E :: _, [e, r] => some (.elementDone line e r)
  | 0x5F :: _, [s] => some (.printerState line s)
  | _, _ => none

/-- The command that a good frame's body spells on its line (R158). -/
def decodeBody (line : Line) (body : List Byte) : Option Instr :=
  match line with
  | .kl n => some (decodeRequest (.kiosk n) body)
  | .cl n => some (decodeRequest (.concession n) body)
  | .ol => some (decodeRequest .office body)
  | .pl n => some (decodeTerminal n body)
  | .tl n => decodePrinter n body

/-- The table gives its rows no bits, so no word spells a command. -/
def decodeTableWord (_nbits _w : Nat) : Option Instr := none

end Sys2Proof
end

