-- ==== Sys2Proof/Config.lean ====
section
/-! DEFINITION. What the manual fixes for the part (sizes of its tables) and what it leaves open
(free values: constants with no body, so that no proof can see them). -/

namespace Sys2Proof

/-- Free value: where the manual lets several things come in either order, or one of several free
records be taken, the `n`th such choice picks item `Config.pick n k` of the `k` there are (log entry 5).
It is used modulo `k`, so the limit the manual sets (one of those there) is kept. -/
opaque Config.pick : Nat → Nat → Nat

/-- Free value: the characters that stand beside the parts of a printed line that section 12.5 gives (separators and
the like): the line's form number, then the place in the line and the figures shown (log entry 6). -/
opaque Config.lineText : Nat → List Nat → List Byte

/-- R7: the screening table has 32 slots. -/
def Config.maxScreenings : Nat := 32
/-- R4: at most 640 seats in a plan. -/
def Config.maxSeats : Nat := 640
/-- R110, R113. -/
def Config.maxSales : Nat := 2048
/-- R113, R125. -/
def Config.maxVouchers : Nat := 4096
/-- R93. -/
def Config.maxPayRecords : Nat := 6
/-- R103. -/
def Config.maxReversals : Nat := 4
/-- R141. -/
def Config.maxJobs : Nat := 6
/-- R142. -/
def Config.maxWaiting : Nat := 16
/-- R163. -/
def Config.maxOfficeRequests : Nat := 4
/-- R19, R20: the clock value at which the clock stops. -/
def Config.clockEnd : Nat := 172799
/-- R28: the no-pulse countdown's start. -/
def Config.noPulseTime : Nat := 150
/-- R110: a station's reprint window. -/
def Config.reprintWindow : Nat := 600
/-- R71: a returning hold countdown has at least this. -/
def Config.returnFloor : Nat := 30
/-- R159: the longest gap between two bytes of one frame, in milliseconds. -/
def Config.maxGap : Nat := 50
/-- R91, R160, R29: counts that stay at 65,535 once there. -/
def Config.countTop : Nat := 65535

end Sys2Proof
end

