-- ==== Sys2Proof/Machine/State.lean ====
section
/-! DEFINITION. The state of the part: every record, queue, counter, countdown and parameter its blocks
keep, as plain data, with the values they hold after any reset. Each record's docstring names its rule. -/

namespace Sys2Proof.Machine

-- ## Plans and screenings (chapter 1)

/-- The kind of a seat cell (section 1.1). -/
inductive SeatKind where
  | normal
  | wheelchair
  | companionSeat
deriving DecidableEq, Repr

/-- A price zone A–D. -/
inductive Zone where
  | a
  | b
  | c
  | d
deriving DecidableEq, Repr

/-- One position of a plan's grid (section 1.1): a GAP keeps no zone and has aisle-right off (R4). -/
inductive Cell where
  | gap
  | seat (kind : SeatKind) (zone : Zone) (aisleRight : Bool)
deriving DecidableEq, Repr

/-- An accepted header (R3). -/
structure PlanHeader where
  name : List Byte
  rows : Nat
  positions : Nat
  bestRow : Nat
  bestCentre : Nat
  orphanRule : Bool
  kioskWheelchair : Bool
deriving DecidableEq, Repr

/-- A plan slot (R1). LOADING holds the rows so far, the next row expected and the count of non-GAP cells. -/
inductive PlanSlot where
  | empty
  | loading (header : PlanHeader) (rows : List (List Cell)) (nextRow seats : Nat)
  | ready (header : PlanHeader) (rows : List (List Cell))
deriving DecidableEq, Repr

/-- A screening's class (section 1.4). -/
inductive Class where
  | standard
  | threeD
  | premium
deriving DecidableEq, Repr

/-- The states of section 1.5. -/
inductive ScreeningState where
  | loaded
  | onSale
  | paused
  | closed
deriving DecidableEq, Repr

/-- The state of a seat (R30). -/
inductive SeatState where
  | free
  | held (slot ref : Nat)
  | sold (sale index : Nat)
  | blocked
deriving DecidableEq, Repr

/-- The four counts of a screening (R31). -/
structure Counts where
  free : Nat
  held : Nat
  sold : Nat
  blocked : Nat
deriving DecidableEq, Repr

/-- A live screening record (section 1.4) with its seat-state array (R30): one list per row, one place per
position, `none` where the plan has a GAP. -/
structure Screening where
  id : Nat
  plan : Nat
  start : Nat
  cls : Class
  matinee : Bool
  late : Nat
  kioskSales : Bool
  state : ScreeningState
  counts : Counts
  seats : List (List (Option SeatState))
deriving DecidableEq, Repr

-- ## Show clock (chapter 2)

/-- The sync modes (R25, R28). -/
inductive SyncMode where
  | off
  | watch
  | track
  | once
deriving DecidableEq, Repr

/-- The no-pulse countdown (R28): stopped, running, or standing expired at zero. -/
inductive NoPulse where
  | stopped
  | running (seconds : Nat)
  | expired
deriving DecidableEq, Repr

/-- The show clock (R19, R21, R25, R28, R29). -/
structure Clock where
  value : Nat
  fraction : Nat
  isSet : Bool
  day : Nat
  sync : SyncMode
  deviation : Option Int
  pulses : Nat
  noPulse : NoPulse
deriving DecidableEq, Repr

-- ## Requests in progress

/-- Where an answer goes: the link a request arrived on, its tag and its kind (R162, R163). -/
structure Reply where
  link : Link
  tag : Byte
  kind : Byte
deriving DecidableEq, Repr

/-- An owner of baskets and origin of sales: station 1–8 (numbered 0–7 here) or the office. -/
inductive Owner where
  | station (n : Fin 8)
  | office
deriving DecidableEq, Repr

/-- The ticket types (section 12.2). -/
inductive TicketType where
  | adult
  | child
  | senior
  | companion
deriving DecidableEq, Repr

-- ## The seat engine (chapter 3)

/-- A requester's level (R35). -/
inductive Level where
  | high
  | low
deriving DecidableEq, Repr

/-- An entry of the seat request queue (R33): a requester's, the office's restore, or an internal entry. -/
inductive Entry where
  | request (who : Owner) (reply : Reply) (body : SeatRequest)
  | restore (reply : Reply) (fields : SaleFields)
  | releaseBasket (slot : Fin 16) (ref screening : Nat)
  | sellBasket (slot : Fin 16) (ref screening sale : Nat)
  | freeSale (screening sale : Nat)
deriving DecidableEq, Repr

/-- A best-block search under way (R41, R43). -/
structure Search where
  who : Owner
  reply : Reply
  slot : Fin 16
  ref : Nat
  count : Nat
  zone : Option Zone
  types : List TicketType
  override : Bool
deriving DecidableEq, Repr

/-- The seat engine: its queue, oldest first (R33), the search under way (R43), the levels and the two ring
pointers (R35). Requesters are numbered 0–7 for stations 1–8 and 8 for the office. -/
structure Engine where
  queue : List Entry
  search : Option Search
  levels : Tab Level 9
  highPointer : Fin 9
  lowPointer : Fin 9
deriving DecidableEq, Repr

-- ## Baskets (chapter 4)

/-- A seat line (R54): the charged line price stands while a tally is present. -/
structure SeatLine where
  row : Nat
  pos : Nat
  type : TicketType
  price : Option Nat
deriving DecidableEq, Repr

/-- A voucher line (R54): a combo kind (0–7 for kinds 1–8) and a quantity. -/
structure VoucherLine where
  kind : Fin 8
  quantity : Nat
deriving DecidableEq, Repr

/-- What a tally records of one voucher line (R87, R89). -/
structure VoucherCharge where
  kind : Fin 8
  quantity : Nat
  bundleUnits : Nat
  bundlePrice : Nat
  comboUnits : Nat
  comboPrice : Nat
deriving DecidableEq, Repr

/-- A stored tally (R89). -/
structure Tally where
  generation : Nat
  prices : List Nat
  subtotal : Nat
  discount : Nat
  charges : List VoucherCharge
  voucherTotal : Nat
  total : Nat
  tax : Nat
deriving DecidableEq, Repr

/-- The six basket states (R57). -/
inductive BasketState where
  | opened
  | tallied
  | paying
  | reversing
  | doubt
  | ending
deriving DecidableEq, Repr

/-- The end reasons (R54). -/
inductive EndReason where
  | committed
  | cancelled
  | expired
  | payFailed
  | stationClosed
  | doubtReleased
  | voided
deriving DecidableEq, Repr

/-- The hold countdown (R54, R68). -/
inductive Hold where
  | absent
  | running (seconds : Nat)
  | suspended (seconds : Nat)
deriving DecidableEq, Repr

/-- A live basket record (R54). `waiter` is the CANCEL, SETTLE or RESOLVE whose answer waits for the
basket (R67, R101, R117). -/
structure Basket where
  ref : Nat
  owner : Owner
  screening : Nat
  lines : List SeatLine
  vouchers : List VoucherLine
  generation : Nat
  tally : Option Tally
  state : BasketState
  endReason : Option EndReason
  hold : Hold
  extensionUsed : Bool
  warningSent : Bool
  attempts : Nat
  reserved : Bool
  payRef : Option Nat
  waiter : Option Reply
deriving DecidableEq, Repr

-- ## Price book (chapter 5)

/-- The SURCHARGES part. -/
structure Surcharges where
  classes : Tab Nat 3
  matinee : Nat
deriving DecidableEq, Repr

/-- One combo kind's prices in the COMBOS part. -/
structure ComboPrice where
  combo : Nat
  bundle : Nat
  offered : Bool
deriving DecidableEq, Repr

/-- The RATES part: group threshold G, group percent g, tax rate r. -/
structure Rates where
  threshold : Nat
  percent : Nat
  tax : Nat
deriving DecidableEq, Repr

/-- A price set (section 5.1). The TICKETS part is the 12 base prices, zone by zone and within a zone ADULT,
CHILD, SENIOR. -/
structure PriceSet where
  base : Tab Nat 12
  surcharges : Surcharges
  combos : Tab ComboPrice 8
  rates : Rates
deriving DecidableEq, Repr

/-- A bank that holds a set: its generation and its reference count (R74). -/
structure Bank where
  set : PriceSet
  generation : Nat
  count : Nat
deriving DecidableEq, Repr

/-- The STAGED bank (R74, R78): a part is marked complete when it is present; `waiting` is PENDING. -/
structure Staged where
  tickets : Option (Tab Nat 12)
  surcharges : Option Surcharges
  combos : Option (Tab ComboPrice 8)
  rates : Option Rates
  waiting : Bool
deriving DecidableEq, Repr

/-- The apply mode (R79). -/
inductive ApplyMode where
  | manual
  | atMinute (minute : Nat)
  | onLastPart
deriving DecidableEq, Repr

/-- The price book (R74). -/
structure PriceBook where
  active : Option Bank
  retained : Option Bank
  staged : Staged
  mode : ApplyMode
  nextGeneration : Nat
deriving DecidableEq, Repr

-- ## Card payment (chapter 6)

/-- The progress stages (R93). -/
inductive Stage where
  | none
  | cardWait
  | pinWait
  | online
deriving DecidableEq, Repr

/-- The states of a payment record (R93). -/
inductive PayState where
  | sent
  | accepted
  | approved
  | declined
  | aborting
  | aborted
  | timedOut
deriving DecidableEq, Repr

/-- A payment record (R93); the line is the one that keeps it. -/
structure PayRecord where
  payRef : Nat
  slot : Fin 16
  ref : Nat
  amount : Nat
  state : PayState
  stage : Stage
  code : Option (List Byte)
  reason : Option Nat
deriving DecidableEq, Repr

/-- A reversal record (R103); `basket` is the slot and ref of a basket waiting in REVERSING on it. -/
structure Reversal where
  payRef : Nat
  amount : Nat
  code : Option (List Byte)
  attempts : Nat
  basket : Option (Fin 16 × Nat)
deriving DecidableEq, Repr

/-- The kinds of exchange (R94). -/
inductive ExchangeKind where
  | authorization
  | abort
  | reversal
deriving DecidableEq, Repr

/-- The exchange in flight (R94) with the countdown that runs in it (R96, R104). -/
structure Exchange where
  kind : ExchangeKind
  payRef : Nat
  seconds : Nat
deriving DecidableEq, Repr

/-- A pay line (R91): records in the order made, reversal queue head first. -/
structure PayLine where
  exchange : Option Exchange
  records : List PayRecord
  queue : List Reversal
  stray : Nat
deriving DecidableEq, Repr

/-- A doubt-list entry (R107). -/
structure Doubt where
  slot : Fin 16
  ref : Nat
  line : Fin 8
  payRef : Nat
  amount : Nat
  code : Option (List Byte)
deriving DecidableEq, Repr

/-- The payment unit (R91, R92, R107). -/
structure PayUnit where
  lines : Tab PayLine 8
  nextRef : Nat
  doubts : List Doubt
deriving DecidableEq, Repr

-- ## Sales (chapter 7)

/-- The ticket states (R110). -/
inductive TicketState where
  | unprinted
  | printed
  | spoiled
deriving DecidableEq, Repr

/-- A ticket of a sale (R110). -/
structure Ticket where
  row : Nat
  pos : Nat
  type : TicketType
  price : Nat
  state : TicketState
  used : Nat
deriving DecidableEq, Repr

/-- A voucher code as a sale lists it (R110). -/
structure SaleVoucher where
  code : Nat
  kind : Fin 8
  price : Nat
deriving DecidableEq, Repr

/-- The payment of a sale (R110). -/
structure Payment where
  line : Fin 8
  payRef : Nat
  code : List Byte
deriving DecidableEq, Repr

/-- A refund quote (R110, R119, R120); `taken` is the REFUND_COMMIT whose answer waits. -/
structure Quote where
  amount : Nat
  seconds : Nat
  taken : Option Reply
deriving DecidableEq, Repr

/-- The sale states (R111). -/
inductive SaleState where
  | committed
  | refundPending
  | refunded
deriving DecidableEq, Repr

/-- A live sale record (R110). -/
structure Sale where
  number : Nat
  screening : Nat
  origin : Owner
  generation : Nat
  tickets : List Ticket
  vouchers : List SaleVoucher
  subtotal : Nat
  discount : Nat
  voucherTotal : Nat
  total : Nat
  tax : Nat
  payment : Option Payment
  state : SaleState
  quote : Option Quote
  jobLive : Bool
deriving DecidableEq, Repr

/-- A commit that has begun and not completed (R114): the basket, the number it holds, its payment, and the
ticket line its SETTLE named. -/
structure Commit where
  slot : Fin 16
  ref : Nat
  number : Nat
  payment : Option Payment
  line : Option (Fin 8)
deriving DecidableEq, Repr

/-- A station's last sale and its reprint window (R110). -/
structure LastSale where
  number : Nat
  seconds : Nat
deriving DecidableEq, Repr

/-- The sale table (R110, R112, R113, R114). -/
structure SaleTable where
  records : List Sale
  reservedSales : Nat
  reservedVouchers : Nat
  next : Nat
  last : Tab (Option LastSale) 8
  commits : List Commit
deriving DecidableEq, Repr

-- ## Vouchers and stock (chapter 8)

/-- The voucher states (R125). -/
inductive VoucherState where
  | issued
  | suspended
  | redeemed
  | void
  | lapsed
deriving DecidableEq, Repr

/-- Where a voucher was redeemed (R125): a concession link, or the office (`none`), and the minute. -/
structure Redemption where
  link : Option (Fin 4)
  minute : Nat
deriving DecidableEq, Repr

/-- A live voucher record (R125); the code is the number its ten digits spell. -/
structure Voucher where
  code : Nat
  kind : Fin 8
  sale : Nat
  screening : Nat
  price : Nat
  state : VoucherState
  redemption : Option Redemption
deriving DecidableEq, Repr

/-- The six numbers of a combo kind (R135). -/
structure Stock where
  allotment : Nat
  available : Nat
  inBaskets : Nat
  outstanding : Nat
  taken : Nat
  lowMark : Nat
deriving DecidableEq, Repr

/-- The voucher table and stock counters (R125, R127, R135). -/
structure VoucherTable where
  records : List Voucher
  serial : Nat
  stock : Tab Stock 8
deriving DecidableEq, Repr

-- ## Printing (chapter 9)

/-- The kinds of print element (R139). -/
inductive ElementKind where
  | ticket
  | voucherSlip
  | receipt
deriving DecidableEq, Repr

/-- The result of an element (R139). -/
inductive ElementResult where
  | waiting
  | printed
  | spoiled
deriving DecidableEq, Repr

/-- A line of printable text (section 12.5), by what it shows. -/
inductive TextLine where
  | name (chars : List Byte)
  | start (minute : Nat) (cls : Class)
  | seat (row pos : Nat) (type : TicketType)
  | price (cents : Nat)
  | saleTicket (sale index : Nat)
  | voucherCode (code : Nat)
  | comboKind (kind : Nat)
  | figure (place cents : Nat)
  | payment (line payRef : Nat) (code : List Byte)
  | settled
deriving DecidableEq, Repr

/-- An element record that belongs to a job (R139). -/
structure Element where
  kind : ElementKind
  sale : Nat
  index : Nat
  next : Option (Fin 256)
  last : Bool
  result : ElementResult
  text : List TextLine
deriving DecidableEq, Repr

/-- A job (R141); `started` says that its first element has been sent. -/
structure Job where
  sale : Nat
  origin : Owner
  first : Fin 256
  remaining : Nat
  reprint : Bool
  started : Bool
deriving DecidableEq, Repr

/-- The make-up of a job (R140, R142): a first print's numbers, or a reprint's ticket set. -/
inductive MakeUp where
  | first (tickets vouchers : Nat) (receipt : Bool)
  | reprint (tickets : List Nat)
deriving DecidableEq, Repr

/-- An entry of the waiting list (R142). -/
structure WaitEntry where
  sale : Nat
  line : Fin 8
  origin : Owner
  makeUp : MakeUp
  needed : Nat
deriving DecidableEq, Repr

/-- The states of a ticket line (section 9.3). -/
inductive TicketLineState where
  | off
  | idle
  | waitPower
  | printing
  | resting
  | stopped
  | halted
deriving DecidableEq, Repr

/-- The causes of a stop (R143) and of a capture (R156). -/
inductive Cause where
  | stop
  | paperOut
  | headOpen
  | jam
  | overcurrent
  | powerCut
deriving DecidableEq, Repr

/-- The printer statuses (R143). -/
inductive PrinterStatus where
  | none
  | ready
  | paperLow
  | paperOut
  | headOpen
  | jam
deriving DecidableEq, Repr

/-- The element a fault spoiled (R156). -/
structure Spoiled where
  sale : Nat
  kind : ElementKind
  index : Nat
deriving DecidableEq, Repr

/-- A filled first-fault capture (R156). -/
structure Capture where
  cause : Cause
  element : Option Spoiled
deriving DecidableEq, Repr

/-- A line record (R143) with its job queue (R141). Its power-enable output and its grant follow from its
state and cause (section 9.3). The declared draw stands among the parameters (R146). `asserted` is the level of
the line's fault input; `filter` is the filter time read when the assertion now being filtered began, and none
while none is (R154). -/
structure TicketLine where
  state : TicketLineState
  cause : Option Cause
  stopPending : Bool
  haltPending : Bool
  sinceRest : Nat
  rest : Option Nat
  status : PrinterStatus
  capture : Option Capture
  queue : List Job
  asserted : Bool
  filter : Option Nat
deriving DecidableEq, Repr

/-- The print controller (R139, R142, R143, R145): pool, lines, waiting list and waiting order. -/
structure PrintUnit where
  pool : Tab (Option Element) 256
  lines : Tab TicketLine 8
  waiting : List WaitEntry
  order : List (Fin 8)
deriving DecidableEq, Repr

-- ## Line interface (chapters 10 and 11)

/-- A receiver (R159); assembling holds the bytes after the start byte. -/
inductive Receiver where
  | hunting
  | assembling (bytes : List Byte)
deriving DecidableEq, Repr

/-- A frame ready to be sent (R161): its body, and whether it is the answer that ends an outstanding
request (R162, R163). -/
structure Frame where
  body : List Byte
  closes : Bool
deriving DecidableEq, Repr

/-- What the line interface keeps of one of the 29 lines (R158): receiver, bad-frame count, frames in
sending order, and the messages handed on and not yet judged. -/
structure LineState where
  receiver : Receiver
  badFrames : Nat
  sending : List Frame
  handedOn : List (List Byte)
deriving DecidableEq, Repr

/-- An outstanding request (R162, R163). -/
structure Outstanding where
  kind : Byte
  tag : Byte
deriving DecidableEq, Repr

/-- A station's three lines (section 10.4). -/
structure Binding where
  kiosk : Fin 8
  pay : Fin 8
  ticket : Fin 8
deriving DecidableEq, Repr

/-- The station states (section 10.5). -/
inductive StationState where
  | unbound
  | locked
  | opened
  | closing
deriving DecidableEq, Repr

/-- A station (sections 10.4, 10.5). -/
structure Station where
  binding : Option Binding
  state : StationState
deriving DecidableEq, Repr

/-- Whether a reset asked for by RESTART waits for its answer to be sent, or is due (R170). -/
inductive Restart where
  | none
  | answering
  | due
deriving DecidableEq, Repr

/-- The line interface (R158, R162, R163, R165, R169, R170): the 29 lines numbered KL, PL, TL, CL, OL. -/
structure Interface where
  lines : Tab LineState 29
  kiosk : Tab (Option Outstanding) 8
  concession : Tab (Option Outstanding) 4
  office : List Outstanding
  stations : Tab Station 8
  concessionOpen : Tab Bool 4
  restart : Restart
deriving DecidableEq, Repr

/-- The ten alarm flags (R171), numbered in the order of the table of chapter 11. -/
structure Alarms where
  latched : Tab Bool 10
  enabled : Tab Bool 10
deriving DecidableEq, Repr

/-- The doubt policy (R96). -/
inductive DoubtPolicy where
  | keep
  | release
deriving DecidableEq, Repr

/-- The supply mode (R146). -/
inductive SupplyMode where
  | individual
  | ganged
deriving DecidableEq, Repr

/-- The parameters (R176), in the order of its table. -/
structure Params where
  stationHold : Nat
  officeHold : Nat
  extension : Nat
  warningLead : Nat
  acceptWait : Nat
  authorizationWait : Nat
  reversalInterval : Nat
  declineLimit : Nat
  reversalLimit : Nat
  doubtPolicy : DoubtPolicy
  refundCutoff : Nat
  quoteTime : Nat
  windowBefore : Nat
  windowAfter : Nat
  jitterWindow : Nat
  budget : Nat
  draws : Tab Nat 8
  supply : SupplyMode
  restAfter : Nat
  restTime : Nat
  filterTime : Nat
deriving DecidableEq, Repr

-- ## The whole part

/-- The state of the part. `pending` is the model's queue of commands, first in, first out; `choice` counts
the free choices made so far (log entry 5). -/
structure State where
  pending : List Instr
  clock : Clock
  plans : Tab PlanSlot 12
  screenings : List Screening
  engine : Engine
  baskets : Tab (Option Basket) 16
  nextBasketRef : Nat
  prices : PriceBook
  pay : PayUnit
  sales : SaleTable
  vouchers : VoucherTable
  print : PrintUnit
  ifc : Interface
  alarms : Alarms
  params : Params
  choice : Nat
deriving DecidableEq, Repr

/-- The block has no fault: its rules give every command an effect in every state, a refusal being an answer
on a line (section 4.5 of 00_scope.md). No meaning raises one, which is safe. -/
inductive Fault where
deriving DecidableEq, Repr

/-- The one refusal. -/
inductive Refusal where
  /-- Raised by `exec`'s arm of a command that has no meaning yet; no arm raises it now. Safe: the run stops. -/
  | notModelled (mnemonic : String)
deriving DecidableEq, Repr

/-- The show clock after any reset (table after R29). -/
def Clock.reset : Clock :=
  ⟨0, 0, false, 0, .off, none, 0, .stopped⟩

/-- R33, R35: empty queue, idle engine, the office HIGH and the stations LOW, both pointers at the office. -/
def Engine.reset : Engine :=
  ⟨[], none, (Tab.replicate 9 .low).set 8 .high, 8, 8⟩

/-- R74: all banks empty, MANUAL, the counter at 1. -/
def PriceBook.reset : PriceBook :=
  ⟨none, none, ⟨none, none, none, none, false⟩, .manual, 1⟩

/-- R91, R92, R107. -/
def PayUnit.reset : PayUnit := ⟨Tab.replicate 8 ⟨none, [], [], 0⟩, 1, []⟩

/-- R110. -/
def SaleTable.reset : SaleTable := ⟨[], 0, 0, 1, Tab.replicate 8 none, []⟩

/-- R125, R135. -/
def VoucherTable.reset : VoucherTable := ⟨[], 1, Tab.replicate 8 ⟨0, 0, 0, 0, 0, 0⟩⟩

/-- R143: OFF, no cause, marks off, nothing since rest, status NONE, empty capture, empty queue; no assertion
filtered (R154), and none told of (log entry 23). -/
def TicketLine.reset : TicketLine := ⟨.off, none, false, false, 0, none, .none, none, [], false, none⟩

/-- R139, R142, R143, R145. -/
def PrintUnit.reset : PrintUnit := ⟨Tab.replicate 256 none, Tab.replicate 8 TicketLine.reset, [], []⟩

/-- The table of R170. -/
def Interface.reset : Interface :=
  ⟨Tab.replicate 29 ⟨.hunting, 0, [], []⟩, Tab.replicate 8 none, Tab.replicate 4 none, [],
    Tab.replicate 8 ⟨none, .unbound⟩, Tab.replicate 4 false, .none⟩

/-- R171: every flag clear and enabled. -/
def Alarms.reset : Alarms := ⟨Tab.replicate 10 false, Tab.replicate 10 true⟩

/-- The defaults of R176. -/
def Params.reset : Params where
  stationHold := 240
  officeHold := 900
  extension := 120
  warningLead := 45
  acceptWait := 5
  authorizationWait := 90
  reversalInterval := 10
  declineLimit := 3
  reversalLimit := 3
  doubtPolicy := .keep
  refundCutoff := 30
  quoteTime := 120
  windowBefore := 90
  windowAfter := 150
  jitterWindow := 250
  budget := 60
  draws := Tab.replicate 8 20
  supply := .individual
  restAfter := 8
  restTime := 2
  filterTime := 100

/-- The part after any reset (R170), before the START_NOTICE of that reset is sent. -/
def State.reset : State where
  pending := []
  clock := Clock.reset
  plans := Tab.replicate 12 .empty
  screenings := []
  engine := Engine.reset
  baskets := Tab.replicate 16 none
  nextBasketRef := 1
  prices := PriceBook.reset
  pay := PayUnit.reset
  sales := SaleTable.reset
  vouchers := VoucherTable.reset
  print := PrintUnit.reset
  ifc := Interface.reset
  alarms := Alarms.reset
  params := Params.reset
  choice := 0

end Sys2Proof.Machine
end

