-- ==== Sys2Proof/Machine/Operands.lean ====
section
/-! DEFINITION. The field encodings of section 12.2, both ways: the value a request's field stands for, or
none where the field is malformed (R177), and the bytes the part sends for a value (R179). -/

namespace Sys2Proof.Machine

-- ## Reading fields

/-- The `k` nibbles of a number, most significant first. -/
def nibbles (k w : Nat) : List Nat :=
  (List.range k).map (fun i => w / 16 ^ (k - 1 - i) % 16)

/-- The number that decimal digits spell, most significant first. -/
def ofDigits (ds : List Nat) : Nat := ds.foldl (fun a d => 10 * a + d) 0

/-- A BCD field of `k` digits; malformed with a nibble above 9. -/
def readBcd (k w : Nat) : Option Nat :=
  let ds := nibbles k w
  if ds.all (fun d => d ≤ 9) then some (ofDigits ds) else none

/-- An amount: 8 BCD digits. -/
def readAmount (w : BitVec 32) : Option Nat := readBcd 8 w.toNat

/-- A voucher code: 10 BCD digits. -/
def readCode (w : BitVec 40) : Option Nat := readBcd 10 w.toNat

/-- A flag: 0x00 or 0x01. -/
def readFlag (b : Byte) : Option Bool :=
  if b = 0 then some false else if b = 1 then some true else none

/-- A character in 0x20–0x7E. -/
def printable (b : Byte) : Bool := 0x20 ≤ b.toNat && b.toNat ≤ 0x7E

/-- A ticket type. -/
def readTicketType (b : Byte) : Option TicketType :=
  match b.toNat with
  | 1 => some .adult
  | 2 => some .child
  | 3 => some .senior
  | 4 => some .companion
  | _ => none

/-- A class. -/
def readClass (b : Byte) : Option Class :=
  match b.toNat with
  | 1 => some .standard
  | 2 => some .threeD
  | 3 => some .premium
  | _ => none

/-- A zone filter: `some none` is ANY. -/
def readZoneFilter (b : Byte) : Option (Option Zone) :=
  match b.toNat with
  | 1 => some (some .a)
  | 2 => some (some .b)
  | 3 => some (some .c)
  | 4 => some (some .d)
  | 5 => some none
  | _ => none

/-- A cell byte's kind and zone bits and its aisle-right bit, before R4 judges them; malformed with a bit
of 7–5 on. -/
structure CellFields where
  kind : Option SeatKind
  zone : Zone
  aisle : Bool
deriving DecidableEq, Repr

/-- The zone of two bits. -/
def zoneOfBits (n : Nat) : Zone :=
  match n with
  | 0 => .a
  | 1 => .b
  | 2 => .c
  | _ => .d

/-- The kind of two bits; none is GAP. -/
def kindOfBits (n : Nat) : Option SeatKind :=
  match n with
  | 0 => none
  | 1 => some .normal
  | 2 => some .wheelchair
  | _ => some .companionSeat

/-- A cell byte. -/
def readCell (b : Byte) : Option CellFields :=
  let n := b.toNat
  if n < 32 then some ⟨kindOfBits (n % 4), zoneOfBits (n / 4 % 4), n / 16 == 1⟩ else none

/-- An owner or origin byte: 1–8 a station, 0x80 the office. -/
def readOwner (b : Byte) : Option Owner :=
  if h : 1 ≤ b.toNat ∧ b.toNat ≤ 8 then some (.station ⟨b.toNat - 1, by omega⟩)
  else if b.toNat = 0x80 then some .office else none

/-- A line byte: one of the 29 lines, ALL or NONE. -/
inductive LineName where
  | line (l : Line)
  | all
  | none
deriving DecidableEq, Repr

/-- The number below `k` that `n - base` is, if it is one. -/
def offset (base k n : Nat) : Option (Fin k) :=
  if h : base ≤ n ∧ n - base < k then some ⟨n - base, h.2⟩ else none

/-- A line field; malformed with a value the table does not assign. -/
def readLine (b : Byte) : Option LineName :=
  let n := b.toNat
  ((offset 0x00 8 n).map (fun i => .line (.kl i)))
    <|> ((offset 0x10 8 n).map (fun i => .line (.pl i)))
    <|> ((offset 0x20 8 n).map (fun i => .line (.tl i)))
    <|> ((offset 0x30 4 n).map (fun i => .line (.cl i)))
    <|> (if n = 0x40 then some (.line .ol) else if n = 0xFE then some .all
      else if n = 0xFF then some .none else Option.none)

/-- A ticket line named by a request; none where the byte is not TL0–TL7. -/
def readTicketLine (b : Byte) : Option (Fin 8) := offset 0x20 8 b.toNat

/-- A kiosk link named by a request. -/
def readKioskLine (b : Byte) : Option (Fin 8) := offset 0x00 8 b.toNat

/-- A pay line named by a request. -/
def readPayLine (b : Byte) : Option (Fin 8) := offset 0x10 8 b.toNat

/-- A concession link named by a request. -/
def readConcession (b : Byte) : Option (Fin 4) := offset 0x30 4 b.toNat

/-- A basket slot; none outside 0–15. -/
def readSlot (b : Byte) : Option (Fin 16) := offset 0 16 b.toNat

/-- A station number; none outside 1–8. -/
def readStation (b : Byte) : Option (Fin 8) := offset 1 8 b.toNat

/-- A combo kind; none outside 1–8. -/
def readKind (b : Byte) : Option (Fin 8) := offset 1 8 b.toNat

/-- A plan number; none outside 1–12. -/
def readPlan (n : Nat) : Option (Fin 12) := offset 1 12 n

/-- The characters of a plan name before its padding (section 12.2): the trailing spaces go (log entry 9). -/
def planName (bytes : List Byte) : List Byte :=
  (bytes.reverse.dropWhile (fun b => b == 0x20)).reverse

/-- A list all of whose items are well formed. -/
def readAll {α β : Type} (f : α → Option β) : List α → Option (List β)
  | [] => some []
  | x :: xs =>
    match f x, readAll f xs with
    | some y, some ys => some (y :: ys)
    | _, _ => none

-- ## Writing fields

/-- A one-byte number. -/
def bytes1 (n : Nat) : List Byte := [BitVec.ofNat 8 n]
/-- A two-byte number, big-endian. -/
def bytes2 (n : Nat) : List Byte := [BitVec.ofNat 8 (n / 256), BitVec.ofNat 8 n]
/-- A three-byte number, big-endian. -/
def bytes3 (n : Nat) : List Byte := BitVec.ofNat 8 (n / 65536) :: bytes2 (n % 65536)

/-- The byte holding decimal digits `i + 1` and `i` (counted from the least significant) of `n`. -/
def bcdByte (n i : Nat) : Byte := BitVec.ofNat 8 (16 * (n / 10 ^ (i + 1) % 10) + n / 10 ^ i % 10)

/-- An amount: 8 BCD digits. -/
def amountBytes (n : Nat) : List Byte := [bcdByte n 6, bcdByte n 4, bcdByte n 2, bcdByte n 0]
/-- A voucher code: 10 BCD digits. -/
def codeBytes (n : Nat) : List Byte := [bcdByte n 8, bcdByte n 6, bcdByte n 4, bcdByte n 2, bcdByte n 0]
/-- A flag. -/
def flagByte (b : Bool) : List Byte := [if b then 1 else 0]
/-- A set of alarm flags: bit i for flag i + 1 (section 12.2). -/
def flagSetBytes (set : List Bool) : List Byte :=
  bytes2 (set.reverse.foldl (fun a b => 2 * a + (if b then 1 else 0)) 0)
/-- A pulse deviation, or 0x8000 for NONE. -/
def deviationBytes (d : Option Int) : List Byte :=
  match d with
  | none => [0x80, 0x00]
  | some d => bytes2 (BitVec.ofInt 16 d).toNat
/-- A list: count byte, then the items (section 12.2). -/
def listBytes {α : Type} (f : α → List Byte) (l : List α) : List Byte :=
  bytes1 l.length ++ l.flatMap f
/-- An optional part: presence flag, then its bytes, as zeros where it is absent (section 12.2, R179). -/
def optionalBytes {α : Type} (f : α → List Byte) (size : Nat) (o : Option α) : List Byte :=
  match o with
  | some x => 1#8 :: f x
  | none => 0#8 :: List.replicate size 0

/-- An approval code, zeros where absent. -/
def approvalBytes (c : Option (List Byte)) : List Byte := optionalBytes id 6 c

/-- An owner or origin byte. -/
def ownerByte : Owner → Byte
  | .station n => BitVec.ofNat 8 (n.val + 1)
  | .office => 0x80

/-- A line byte. -/
def lineByte : Line → Byte
  | .kl n => BitVec.ofNat 8 n.val
  | .pl n => BitVec.ofNat 8 (0x10 + n.val)
  | .tl n => BitVec.ofNat 8 (0x20 + n.val)
  | .cl n => BitVec.ofNat 8 (0x30 + n.val)
  | .ol => 0x40

/-- A seat reference. -/
def seatBytes (row pos : Nat) : List Byte := bytes1 row ++ bytes1 pos

/-- The number of a combo kind, station, or zone-like record numbered from 1. -/
def number1 {n : Nat} (i : Fin n) : List Byte := bytes1 (i.val + 1)

/-- Result codes (section 12.4). -/
inductive Result where
  | ok | okReady | okPending | okReversing
  | badRequest | noSuch | wrongState | limit | taken | closed | notAllowed | orphan | noBlock | dependent
  | empty | noPrices | noStock | amountMismatch | lineBusy | tableFull | tooLate | tooEarly | printing
  | incomplete | busy | notReady | badCode | unknown | redeemedBefore | void | lapsed | refundPending
deriving DecidableEq, Repr

/-- The value of a result code (section 12.4). -/
def Result.code : Result → Byte
  | .ok => 0x00 | .okReady => 0x01 | .okPending => 0x02 | .okReversing => 0x03
  | .badRequest => 0x10 | .noSuch => 0x11 | .wrongState => 0x12 | .limit => 0x13 | .taken => 0x14
  | .closed => 0x15 | .notAllowed => 0x16 | .orphan => 0x1A | .noBlock => 0x1B | .dependent => 0x1C
  | .empty => 0x1D | .noPrices => 0x1E | .noStock => 0x1F | .amountMismatch => 0x20 | .lineBusy => 0x21
  | .tableFull => 0x22 | .tooLate => 0x23 | .tooEarly => 0x24 | .printing => 0x25 | .incomplete => 0x26
  | .busy => 0x27 | .notReady => 0x28 | .badCode => 0x29 | .unknown => 0x2A | .redeemedBefore => 0x2B
  | .void => 0x2C | .lapsed => 0x2D | .refundPending => 0x2E

/-- Ticket type byte. -/
def TicketType.code : TicketType → Byte
  | .adult => 1 | .child => 2 | .senior => 3 | .companion => 4
/-- Class byte. -/
def Class.code : Class → Byte
  | .standard => 1 | .threeD => 2 | .premium => 3
/-- Screening states in the order of the table of section 1.4. -/
def ScreeningState.code : ScreeningState → Byte
  | .loaded => 1 | .onSale => 2 | .paused => 3 | .closed => 4
/-- Sync modes in the order of R28. -/
def SyncMode.code : SyncMode → Byte
  | .off => 1 | .watch => 2 | .track => 3 | .once => 4
/-- Levels in the order of R35. -/
def Level.code : Level → Byte
  | .high => 1 | .low => 2
/-- Basket states in the order of R54. -/
def BasketState.code : BasketState → Byte
  | .opened => 1 | .tallied => 2 | .paying => 3 | .reversing => 4 | .doubt => 5 | .ending => 6
/-- End reasons in the order of R54. -/
def EndReason.code : EndReason → Byte
  | .committed => 1 | .cancelled => 2 | .expired => 3 | .payFailed => 4 | .stationClosed => 5
  | .doubtReleased => 6 | .voided => 7
/-- Stages of a payment record in the order of R93. -/
def Stage.code : Stage → Byte
  | .none => 1 | .cardWait => 2 | .pinWait => 3 | .online => 4
/-- The stage a PAY_STATUS shows: ACCEPTED first, then the stages of section 6.1 (log entry 10). -/
def Stage.statusCode : Stage → Byte
  | .none => 1 | .cardWait => 2 | .pinWait => 3 | .online => 4
/-- Payment record states in the order of R93. -/
def PayState.code : PayState → Byte
  | .sent => 1 | .accepted => 2 | .approved => 3 | .declined => 4 | .aborting => 5 | .aborted => 6
  | .timedOut => 7
/-- Exchanges in the order of R94. -/
def ExchangeKind.code : ExchangeKind → Byte
  | .authorization => 1 | .abort => 2 | .reversal => 3
/-- Ticket state byte. -/
def TicketState.code : TicketState → Byte
  | .unprinted => 1 | .printed => 2 | .spoiled => 3
/-- Sale state byte. -/
def SaleState.code : SaleState → Byte
  | .committed => 1 | .refundPending => 2 | .refunded => 3
/-- Voucher state byte. -/
def VoucherState.code : VoucherState → Byte
  | .issued => 1 | .suspended => 2 | .redeemed => 3 | .void => 4 | .lapsed => 5
/-- Element kind byte. -/
def ElementKind.code : ElementKind → Byte
  | .ticket => 1 | .voucherSlip => 2 | .receipt => 3
/-- Ticket line states in the order of the table of section 9.3. -/
def TicketLineState.code : TicketLineState → Byte
  | .off => 1 | .idle => 2 | .waitPower => 3 | .printing => 4 | .resting => 5 | .stopped => 6 | .halted => 7
/-- Stop causes in the order of R143. -/
def Cause.code : Cause → Byte
  | .stop => 1 | .paperOut => 2 | .headOpen => 3 | .jam => 4 | .overcurrent => 5 | .powerCut => 6
/-- Capture causes in the order of R156. -/
def Cause.captureCode : Cause → Byte
  | .stop => 0 | .paperOut => 1 | .headOpen => 2 | .jam => 3 | .overcurrent => 4 | .powerCut => 5
/-- Printer statuses in the order of R143. -/
def PrinterStatus.code : PrinterStatus → Byte
  | .none => 1 | .ready => 2 | .paperLow => 3 | .paperOut => 4 | .headOpen => 5 | .jam => 6
/-- Station states in the order of the table of section 10.5. -/
def StationState.code : StationState → Byte
  | .unbound => 1 | .locked => 2 | .opened => 3 | .closing => 4

end Sys2Proof.Machine
end

