-- ==== Sys2Proof/Machine/Ops.lean ====
section
/-! DEFINITION. The named operations every block uses: free choices, frames to be sent, answers and
notices, the records a request names, stock moves and reservations. -/

namespace Sys2Proof.Machine

-- ## Free choices (log entry 5)

/-- The items in an order the manual leaves open, the `c`th and later free choices deciding it. One item, or
none, has one order. -/
def arrangeFrom {α : Type} (c : Nat) : Nat → List α → List α
  | 0, l => l
  | fuel + 1, l =>
    if l.length ≤ 1 then l
    else
      let i := Config.pick c l.length % l.length
      match l[i]? with
      | none => l
      | some x => x :: arrangeFrom (c + 1) fuel (l.eraseIdx i)

/-- The items in an order the manual leaves open. -/
def State.arranged {α : Type} (s : State) (l : List α) : List α := arrangeFrom s.choice l.length l

/-- The free choices an arrangement of `k` items uses are spent. -/
def State.spend (k : Nat) (s : State) : State := if k ≤ 1 then s else { s with choice := s.choice + k }

-- ## Lines and frames

/-- The number of a line among the 29 (KL, PL, TL, CL, OL). -/
def lineIndex : Line → Fin 29
  | .kl n => ⟨n.val, by omega⟩
  | .pl n => ⟨8 + n.val, by omega⟩
  | .tl n => ⟨16 + n.val, by omega⟩
  | .cl n => ⟨24 + n.val, by omega⟩
  | .ol => 28

/-- What the line interface keeps of a line (R158). -/
def State.line (s : State) (l : Line) : LineState := s.ifc.lines.get (lineIndex l)

/-- The line interface's record of a line changed. -/
def State.onLine (l : Line) (f : LineState → LineState) (s : State) : State :=
  { s with ifc := { s.ifc with lines := s.ifc.lines.modify (lineIndex l) f } }

/-- R161: a frame becomes ready on a line and waits its turn there. -/
def send (l : Line) (frame : Frame) (s : State) : State :=
  s.onLine l (fun r => { r with sending := r.sending ++ [frame] })

/-- Saturating increment of a count that stays at 65,535 (R29, R91, R103, R160). -/
def bump (n : Nat) : Nat := min (n + 1) Config.countTop

/-- The frame of an answer: its request's kind plus 0x80, the request's tag, the result, then the fields its
rule names (R179). -/
def answerFrame (r : Reply) (result : Result) (fields : List Byte) : Frame :=
  ⟨(r.kind + 0x80#8) :: r.tag :: result.code :: fields, true⟩

/-- An answer goes on the link its request arrived on (R162). -/
def answer (r : Reply) (result : Result) (fields : List Byte) (s : State) : State :=
  send r.link.line (answerFrame r result fields) s

/-- A notice on OL, with tag 0 (R163, R164). -/
def notifyOffice (kind : Byte) (fields : List Byte) (s : State) : State :=
  send .ol ⟨kind :: 0 :: fields, false⟩ s

/-- A notice to a station: on the kiosk link it is bound to now, and not sent while it is unbound (R164). -/
def notifyStation (station : Fin 8) (kind : Byte) (fields : List Byte) (s : State) : State :=
  match (s.ifc.stations.get station).binding with
  | none => s
  | some b => send (.kl b.kiosk) ⟨kind :: 0 :: fields, false⟩ s

/-- A notice to an owner of baskets (R164). -/
def notifyOwner (owner : Owner) (kind : Byte) (fields : List Byte) (s : State) : State :=
  match owner with
  | .station n => notifyStation n kind fields s
  | .office => notifyOffice kind fields s

/-- A message to a card terminal (section 6.1), tag 0. -/
def tellTerminal (line : Fin 8) (kind : Byte) (fields : List Byte) (s : State) : State :=
  send (.pl line) ⟨kind :: 0 :: fields, false⟩ s

-- ## Records a request names

/-- The plan of a plan number, if it is READY (R1). -/
def State.plan (s : State) (n : Nat) : Option (PlanHeader × List (List Cell)) :=
  match readPlan n with
  | none => none
  | some i =>
    match s.plans.get i with
    | .ready h rows => some (h, rows)
    | _ => none

/-- The live screening record with an id (R7). -/
def State.screening (s : State) (id : Nat) : Option Screening := s.screenings.find? (fun r => r.id == id)

/-- The live screening record with an id changed. -/
def State.onScreening (id : Nat) (f : Screening → Screening) (s : State) : State :=
  { s with screenings := s.screenings.map (fun r => if r.id == id then f r else r) }

/-- R55: the live basket a slot and ref name. -/
def State.basket (s : State) (slot : Fin 16) (ref : Nat) : Option Basket :=
  match s.baskets.get slot with
  | none => none
  | some b => if b.ref == ref then some b else none

/-- The basket of a slot replaced. -/
def State.putBasket (slot : Fin 16) (b : Basket) (s : State) : State :=
  { s with baskets := s.baskets.set slot (some b) }

/-- The live basket records, by slot. -/
def State.liveBaskets (s : State) : List (Fin 16 × Basket) :=
  (indices 16).filterMap (fun i => (s.baskets.get i).map (fun b => (i, b)))

/-- The live sale record with a number (R111). -/
def State.sale (s : State) (n : Nat) : Option Sale := s.sales.records.find? (fun r => r.number == n)

/-- The live sale record with a number changed. -/
def State.onSale (n : Nat) (f : Sale → Sale) (s : State) : State :=
  { s with sales := { s.sales with
      records := s.sales.records.map (fun r => if r.number == n then f r else r) } }

/-- The live voucher record with a code (R125). -/
def State.voucher (s : State) (code : Nat) : Option Voucher :=
  s.vouchers.records.find? (fun r => r.code == code)

/-- The station a kiosk link is bound to (R165 keeps it to one). -/
def State.stationAt (s : State) (kiosk : Fin 8) : Option (Fin 8) :=
  (indices 8).find? (fun i => (s.ifc.stations.get i).binding.map (·.kiosk) == some kiosk)

/-- A station's binding. -/
def State.binding (s : State) (station : Fin 8) : Option Binding := (s.ifc.stations.get station).binding

/-- A station's record changed. -/
def State.onStation (i : Fin 8) (f : Station → Station) (s : State) : State :=
  { s with ifc := { s.ifc with stations := s.ifc.stations.modify i f } }

/-- A pay line's record changed. -/
def State.onPayLine (i : Fin 8) (f : PayLine → PayLine) (s : State) : State :=
  { s with pay := { s.pay with lines := s.pay.lines.modify i f } }

/-- A ticket line's record. -/
def State.ticketLine (s : State) (i : Fin 8) : TicketLine := s.print.lines.get i

/-- A ticket line's record changed. -/
def State.onTicketLine (i : Fin 8) (f : TicketLine → TicketLine) (s : State) : State :=
  { s with print := { s.print with lines := s.print.lines.modify i f } }

-- ## Counters that pass over values in use (R55, R75, R92, R112, R127)

/-- The first value from `c` on that is not held, looking at `fuel` values at most. -/
def firstFree (held : Nat → Bool) (succ : Nat → Nat) : Nat → Nat → Nat
  | 0, c => c
  | fuel + 1, c => if held c then firstFree held succ fuel (succ c) else c

/-- The next value of a counter of 1 to `top`. -/
def wrapSucc (top c : Nat) : Nat := if c = top then 1 else c + 1

-- ## Stock moves (R135)

/-- The four places a unit of stock stands in (R135). -/
inductive Place where
  | available
  | inBaskets
  | outstanding
  | taken
deriving DecidableEq, Repr

/-- The count of a place. -/
def Stock.at (k : Stock) : Place → Nat
  | .available => k.available
  | .inBaskets => k.inBaskets
  | .outstanding => k.outstanding
  | .taken => k.taken

/-- The count of a place replaced. -/
def Stock.put (k : Stock) (p : Place) (n : Nat) : Stock :=
  match p with
  | .available => { k with available := n }
  | .inBaskets => { k with inBaskets := n }
  | .outstanding => { k with outstanding := n }
  | .taken => { k with taken := n }

/-- R135: `n` units go from one place to another in one step; a place gives no more than it has, so that no
count falls below 0. -/
def Stock.move (source target : Place) (n : Nat) (k : Stock) : Stock :=
  let m := min n (k.at source)
  let k' := k.put source (k.at source - m)
  k'.put target (k'.at target + m)

/-- The stock of a kind changed. -/
def State.onStock (kind : Fin 8) (f : Stock → Stock) (s : State) : State :=
  { s with vouchers := { s.vouchers with stock := s.vouchers.stock.modify kind f } }

/-- A stock move of a kind. -/
def moveStock (kind : Fin 8) (source target : Place) (n : Nat) (s : State) : State :=
  s.onStock kind (Stock.move source target n)

-- ## Reservations (R113)

/-- The total quantity on voucher lines. -/
def quantityOf (lines : List VoucherLine) : Nat := (lines.map (·.quantity)).sum

/-- R113: whether a reservation with voucher quantity `q` is granted. -/
def State.hasRoom (s : State) (q : Nat) : Bool :=
  s.sales.records.length + s.sales.reservedSales < Config.maxSales
    && s.vouchers.records.length + s.sales.reservedVouchers + q ≤ Config.maxVouchers

/-- R113: a granted reservation raises the two counts. -/
def reserve (q : Nat) (s : State) : State :=
  { s with sales := { s.sales with
      reservedSales := s.sales.reservedSales + 1, reservedVouchers := s.sales.reservedVouchers + q } }

/-- R113: a released or consumed reservation lowers them by the amounts it raised them. -/
def unreserve (q : Nat) (s : State) : State :=
  { s with sales := { s.sales with
      reservedSales := s.sales.reservedSales - 1, reservedVouchers := s.sales.reservedVouchers - q } }

-- ## Requests: who is heard (R162, R163)

/-- Who a request comes from (section 4.6 of 00_scope.md). -/
inductive Requester where
  | station (n : Fin 8)
  | office
  | concession (n : Fin 4)
deriving DecidableEq, Repr

/-- The owner a requester is, where it can own baskets. -/
def Requester.owner : Requester → Option Owner
  | .station n => some (.station n)
  | .office => some .office
  | .concession _ => none

/-- The kinds a kiosk link may send (check 4 of R162). -/
def kioskKinds : List Byte :=
  [0x10, 0x11, 0x12, 0x13, 0x14, 0x18, 0x19, 0x1A, 0x1B, 0x1C, 0x1D, 0x1E, 0x1F, 0x2F]

/-- The kinds a concession link may send (check 4 of R162). -/
def concessionKinds : List Byte := [0x34, 0x35]

/-- The judgement of a request: admitted, or the refusal's result and the tag it carries. -/
inductive Admission where
  | admitted (who : Requester)
  | refused (result : Result) (tag : Byte)
deriving DecidableEq, Repr

/-- The checks of R162 on a kiosk or concession link and of R163 on OL, in order. `sized` says that the kind
names a request and the body's length suits it. -/
def State.admission (s : State) (src : Link) (tag kind : Byte) (sized : Bool) : Admission :=
  match src with
  | .kiosk n =>
    match s.stationAt n with
    | none => .refused .notReady tag
    | some st =>
      if (s.ifc.stations.get st).state ≠ .opened then .refused .notReady tag
      else if (s.ifc.kiosk.get n).isSome then .refused .busy tag
      else if !sized then .refused .badRequest tag
      else if !kioskKinds.contains kind then .refused .notAllowed tag
      else .admitted (.station st)
  | .concession n =>
    if !s.ifc.concessionOpen.get n then .refused .notReady tag
    else if (s.ifc.concession.get n).isSome then .refused .busy tag
    else if !sized then .refused .badRequest tag
    else if !concessionKinds.contains kind then .refused .notAllowed tag
    else .admitted (.concession n)
  | .office =>
    if tag = 0 then .refused .badRequest 0
    else if s.ifc.office.any (fun o => o.tag == tag) then .refused .badRequest tag
    else if Config.maxOfficeRequests ≤ s.ifc.office.length then .refused .busy tag
    else if !sized then .refused .badRequest tag
    else .admitted .office

/-- A request that passes becomes outstanding on its link (R162, R163). -/
def State.outstand (src : Link) (o : Outstanding) (s : State) : State :=
  match src with
  | .kiosk n => { s with ifc := { s.ifc with kiosk := s.ifc.kiosk.set n (some o) } }
  | .concession n => { s with ifc := { s.ifc with concession := s.ifc.concession.set n (some o) } }
  | .office => { s with ifc := { s.ifc with office := s.ifc.office ++ [o] } }

/-- A command that is the oldest message its line has handed on takes it from there (R158, log entry 3). -/
def takeMessage (l : Line) (i : Instr) (s : State) : State :=
  match (s.line l).handedOn with
  | [] => s
  | body :: rest =>
    if decodeBody l body = some i then s.onLine l (fun r => { r with handedOn := rest }) else s

/-- The line interface judges a request, answers at once one that it turns away, and hands the others to
their block as outstanding (R162, R163). A malformed field is answered BAD_REQUEST before any check of
the block's own (R177). -/
def hear (src : Link) (tag kind : Byte) (sized fieldsOk : Bool)
    (run : Requester → Reply → State → State) (s : State) : State :=
  match s.admission src tag kind sized with
  | .refused result t => send src.line ⟨[kind + 0x80#8, t, result.code], false⟩ s
  | .admitted who =>
    let s := s.outstand src ⟨kind, tag⟩
    if fieldsOk then run who ⟨src, tag, kind⟩ s else answer ⟨src, tag, kind⟩ .badRequest [] s

end Sys2Proof.Machine
end

