-- ==== Sys2Proof/Machine/PriceOps.lean ====
section
/-! DEFINITION. The price book's operations (activation, generations, reference counts) and the tally unit
(chapter 5). -/

namespace Sys2Proof.Machine

-- ## Banks and generations

/-- The bank that holds a generation, ACTIVE or RETAINED (R75). -/
def PriceBook.bank (b : PriceBook) (g : Nat) : Option Bank :=
  match b.active with
  | some k => if k.generation == g then some k else b.retained.filter (fun k => k.generation == g)
  | none => b.retained.filter (fun k => k.generation == g)

/-- The completeness marks of the four parts (R74). -/
def Staged.marks (t : Staged) : List Bool :=
  [t.tickets.isSome, t.surcharges.isSome, t.combos.isSome, t.rates.isSome]

/-- The whole set staged, once all four parts are. -/
def Staged.whole (t : Staged) : Option PriceSet :=
  match t.tickets, t.surcharges, t.combos, t.rates with
  | some a, some b, some c, some d => some ⟨a, b, c, d⟩
  | _, _, _, _ => none

/-- The staged states of R78. -/
inductive StagedState where
  | empty
  | part
  | complete
  | waiting
deriving DecidableEq, Repr

/-- The staged state, from the parts held and the deferral (R78). -/
def Staged.state (t : Staged) : StagedState :=
  if t.waiting then .waiting
  else if t.marks.all id then .complete
  else if t.marks.any id then .part
  else .empty

/-- STAGED with no parts. -/
def Staged.empty : Staged := ⟨none, none, none, none, false⟩

/-- R75: the first value from the counter on that neither ACTIVE nor RETAINED holds. -/
def PriceBook.freshGeneration (b : PriceBook) : Nat :=
  firstFree (fun g => b.active.any (fun k => k.generation == g) || b.retained.any (fun k => k.generation == g))
    (wrapSucc 255) 2 b.nextGeneration

/-- How an attempted activation went (R80): completed with the new generation and the generation discarded,
or deferred. -/
inductive Activation where
  | completed (generation : Nat) (discarded : Option Nat)
  | deferred
deriving DecidableEq, Repr

/-- The staged set enters ACTIVE with its generation and count 0; STAGED empties and the mode is MANUAL. -/
def PriceBook.enter (b : PriceBook) (set : PriceSet) (retained : Option Bank) : PriceBook :=
  let g := b.freshGeneration
  { active := some ⟨set, g, 0⟩, retained := retained, staged := Staged.empty, mode := .manual,
    nextGeneration := wrapSucc 255 g }

/-- R80: an attempted activation of the set staged, by the banks as they stand. -/
def PriceBook.activate (b : PriceBook) (set : PriceSet) : PriceBook × Activation :=
  match b.active, b.retained with
  | none, _ => (b.enter set b.retained, .completed b.freshGeneration none)
  | some a, r =>
    if a.count = 0 then (b.enter set r, .completed b.freshGeneration (some a.generation))
    else
      match r with
      | none => (b.enter set (some a), .completed b.freshGeneration none)
      | some _ => ({ b with staged := { b.staged with waiting := true } }, .deferred)

/-- A bank as the answers report it: generation and count, or none. -/
def bankBytes (k : Option Bank) : List Byte :=
  optionalBytes (fun k => bytes1 k.generation ++ bytes1 k.count) 2 k

/-- The outcome of an activation as R81 gives it: the new generation, or PENDING, which is sent as 0 in that byte
(DESIGN CHOICE, log entry 37); the RETAINED generation and count or none; the generation discarded or none. -/
def Activation.bytes (a : Activation) (b : PriceBook) : List Byte :=
  match a with
  | .completed g d => bytes1 g ++ bankBytes b.retained ++ optionalBytes bytes1 1 d
  | .deferred => bytes1 0 ++ bankBytes b.retained ++ optionalBytes bytes1 1 none

/-- The PRICES_ACTIVE notice (R81), cause 1 AT_MINUTE or 2 DEFERRED. -/
def notifyPrices (cause : Nat) (a : Activation) (s : State) : State :=
  notifyOffice 0xE8 (bytes1 cause ++ a.bytes s.prices) s

/-- R76: OPEN_BASKET raises the ACTIVE bank's count. -/
def countBasket (s : State) : State :=
  { s with prices := { s.prices with
      active := s.prices.active.map (fun k => { k with count := k.count + 1 }) } }

/-- R84: the RETAINED bank, its count at 0, is emptied, and a deferred activation then completes. The notice's one
place for a discarded generation names that of an ACTIVE set discarded at count 0, and where there is none that of
the RETAINED set emptied (DESIGN CHOICE, log entry 34). -/
def emptyRetained (s : State) : State :=
  let b := { s.prices with retained := none }
  if b.staged.waiting then
    match b.staged.whole with
    | none => { s with prices := b }
    | some set =>
      let (b', a) := { b with staged := { b.staged with waiting := false } }.activate set
      let discarded := s.prices.retained.map (·.generation)
      let shown := match a with
        | .completed g none => Activation.completed g discarded
        | other => other
      notifyPrices 2 shown { s with prices := b' }
  else { s with prices := b }

/-- R76: a basket of generation `g` leaves its slot, and the count of the bank that holds `g` falls. -/
def uncountBasket (g : Nat) (s : State) : State :=
  match s.prices.active with
  | some k =>
    if k.generation = g then
      { s with prices := { s.prices with active := some { k with count := k.count - 1 } } }
    else uncountRetained g s
  | none => uncountRetained g s
where
  /-- The same for the RETAINED bank, which empties at once when its count falls to 0. -/
  uncountRetained (g : Nat) (s : State) : State :=
    match s.prices.retained with
    | none => s
    | some k =>
      if k.generation = g then
        let s := { s with prices := { s.prices with retained := some { k with count := k.count - 1 } } }
        if k.count ≤ 1 then emptyRetained s else s
      else s

/-- R82: a minute check at the price book. -/
def minutePrices (v : Nat) (s : State) : State :=
  match s.prices.mode, s.prices.staged.state, s.prices.staged.whole with
  | .atMinute t, .complete, some set =>
    if t * 60 ≤ v then
      let (b, a) := s.prices.activate set
      notifyPrices 1 a { s with prices := b }
    else s
  | _, _, _ => s

-- ## The tally (R86 to R89)

/-- The cell of a plan at a row and position, both counted from 1. -/
def cellAt (rows : List (List Cell)) (r p : Nat) : Option Cell :=
  if r = 0 ∨ p = 0 then none else ((rows[r - 1]?).bind (fun row => row[p - 1]?))

/-- The place of a zone in the base prices. -/
def Zone.index : Zone → Fin 4
  | .a => 0
  | .b => 1
  | .c => 2
  | .d => 3

/-- The base price of a zone and ticket type; COMPANION has none and is priced 0 (R86). -/
def PriceSet.basePrice (p : PriceSet) (z : Zone) (t : TicketType) : Nat :=
  let place (k : Fin 3) : Fin 12 := ⟨3 * z.index.val + k.val, by have := z.index.isLt; omega⟩
  match t with
  | .adult => p.base.get (place 0)
  | .child => p.base.get (place 1)
  | .senior => p.base.get (place 2)
  | .companion => 0

/-- A class's surcharge. -/
def PriceSet.surcharge (p : PriceSet) (c : Class) : Nat :=
  match c with
  | .standard => p.surcharges.classes.get 0
  | .threeD => p.surcharges.classes.get 1
  | .premium => p.surcharges.classes.get 2

/-- R86: the line price L = base − d + surcharge. -/
def PriceSet.linePrice (p : PriceSet) (c : Class) (matinee : Bool) (z : Zone) (t : TicketType) : Nat :=
  let base := p.basePrice z t
  let d := if matinee then (base * p.surcharges.matinee + 50) / 100 else 0
  base - d + p.surcharge c

/-- R86: the group discount on a ticket subtotal of `n` seat lines. -/
def Rates.discount (r : Rates) (n subtotal : Nat) : Nat :=
  if r.threshold ≠ 0 ∧ r.threshold ≤ n then (subtotal * r.percent + 50) / 100 else 0

/-- R87: the vouchers in voucher-line order, of which the first `bundled` are charged the bundle price. -/
def chargeVouchers (combos : Tab ComboPrice 8) : Nat → List VoucherLine → List VoucherCharge
  | _, [] => []
  | bundled, l :: rest =>
    let b := min bundled l.quantity
    let k := combos.get l.kind
    ⟨l.kind, l.quantity, b, k.bundle, l.quantity - b, k.combo⟩ :: chargeVouchers combos (bundled - b) rest

/-- What one voucher line is charged. -/
def VoucherCharge.sum (c : VoucherCharge) : Nat := c.bundleUnits * c.bundlePrice + c.comboUnits * c.comboPrice

/-- R88: the tax portion, divided out of the total and rounded half-up. -/
def taxPortion (total r : Nat) : Nat := (2 * total * r + 1000 + r) / (2 * (1000 + r))

/-- The zone of a plan's cell; a GAP keeps none, and a basket never holds one (R37). -/
def zoneAt (rows : List (List Cell)) (r p : Nat) : Zone :=
  match cellAt rows r p with
  | some (.seat _ z _) => z
  | _ => .a

/-- R86 to R89: the tally of a basket's lines. -/
def computeTally (g : Nat) (set : PriceSet) (rows : List (List Cell)) (cls : Class) (matinee : Bool)
    (lines : List SeatLine) (vouchers : List VoucherLine) : Tally :=
  let prices := lines.map (fun l => set.linePrice cls matinee (zoneAt rows l.row l.pos) l.type)
  let subtotal := prices.sum
  let discount := set.rates.discount lines.length subtotal
  let charges := chargeVouchers set.combos lines.length vouchers
  let voucherTotal := (charges.map VoucherCharge.sum).sum
  let total := subtotal - discount + voucherTotal
  ⟨g, prices, subtotal, discount, charges, voucherTotal, total, taxPortion total set.rates.tax⟩

/-- The TALLY answer's layout (section 12.5). -/
def Tally.bytes (t : Tally) : List Byte :=
  bytes1 t.generation ++ listBytes amountBytes t.prices ++ amountBytes t.subtotal ++ amountBytes t.discount
    ++ listBytes (fun c => number1 c.kind ++ bytes1 c.quantity ++ bytes1 c.bundleUnits
        ++ amountBytes c.bundlePrice ++ bytes1 c.comboUnits ++ amountBytes c.comboPrice) t.charges
    ++ amountBytes t.voucherTotal ++ amountBytes t.total ++ amountBytes t.tax

end Sys2Proof.Machine
end

