-- ==== Sys2Proof/Machine/VoucherOps.lean ====
section
/-! DEFINITION. The voucher table's operations: codes and check digit, windows, lapse, and the table's part
in quotes, refunds, restores and archiving (chapter 8). -/

namespace Sys2Proof.Machine

-- ## Codes (R127)

/-- Digit `i` of a ten-digit code, counted from the left from 0. -/
def codeDigit (code i : Nat) : Nat := code / 10 ^ (9 - i) % 10

/-- R127: the check digit of a code's first nine digits, weighted 3, 1, 3, … from the left. -/
def checkDigit (code : Nat) : Nat :=
  (10 - ((List.range 9).map (fun i => (if i % 2 = 0 then 3 else 1) * codeDigit code i)).sum % 10) % 10

/-- R128: whether a code's tenth digit is the check digit of its first nine. -/
def checkAgrees (code : Nat) : Bool := checkDigit code == codeDigit code 9

/-- R127: whether a code's day and serial digits lie in their ranges, 001–366 and 000001–999999. -/
def codeInRange (code : Nat) : Bool :=
  let day := code / 10000000
  1 ≤ day && day ≤ 366 && code / 10 % 1000000 != 0

/-- R127: the code of a day and a serial. -/
def formCode (day serial : Nat) : Nat :=
  let head := (day * 1000000 + serial) * 10
  head + checkDigit head

/-- R127: the serials of the next `n` codes, each the first from the serial on whose code is free, and the
serial after them. -/
def takeSerials (day : Nat) (held : Nat → Bool) : Nat → Nat → List Nat × Nat
  | 0, serial => ([], serial)
  | n + 1, serial =>
    let free := firstFree (fun k => held (formCode day k)) (wrapSucc 999999) (Config.maxVouchers + 1) serial
    let (rest, after) := takeSerials day held n (wrapSucc 999999 free)
    (formCode day free :: rest, after)

-- ## Windows (R129, R132)

/-- The minute at which a window opens; below minute 0 it stands at 0. -/
def windowOpening (s : State) (start : Nat) : Nat := start - s.params.windowBefore

/-- The minute at which a window ends. -/
def windowEnd (s : State) (start : Nat) : Nat := start + s.params.windowAfter

/-- The start minute of a voucher's screening, which is live while the voucher is (R14, R15). -/
def State.startOf (s : State) (screening : Nat) : Nat :=
  (s.screening screening).elim 0 (·.start)

/-- The clock value at which a voucher's window ends. -/
def State.windowEndClock (s : State) (v : Voucher) : Nat := windowEnd s (s.startOf v.screening) * 60

/-- Check 4 of R129: the clock is at or past the opening. -/
def State.windowOpen (s : State) (v : Voucher) : Bool :=
  windowOpening s (s.startOf v.screening) * 60 ≤ s.clock.value

-- ## Changes of many records

/-- The records changed by `f`. -/
def State.mapVouchers (f : Voucher → Voucher) (s : State) : State :=
  { s with vouchers := { s.vouchers with records := s.vouchers.records.map f } }

/-- One unit of its kind moved for each of the vouchers. -/
def moveEach (source target : Place) (vs : List Voucher) (s : State) : State :=
  vs.foldl (fun s v => moveStock v.kind source target 1 s) s

/-- The vouchers that `p` names become `state`, and their units move. -/
def settleVouchers (p : Voucher → Bool) (state : VoucherState) (target : Place) (s : State) : State :=
  let named := s.vouchers.records.filter p
  moveEach .outstanding target named
    (s.mapVouchers (fun v => if p v then { v with state := state } else v))

/-- R126: the named vouchers lapse, outstanding to available. -/
def lapse (p : Voucher → Bool) (s : State) : State := settleVouchers p .lapsed .available s

/-- R133: a minute check at the voucher table, for the clock value `v`. -/
def minuteVouchers (v : Nat) (s : State) : State :=
  lapse (fun u => u.state == .issued && s.windowEndClock u ≤ v) s

/-- Step 1 of R15: every ISSUED voucher of a screening lapses. -/
def lapseScreening (screening : Nat) (s : State) : State :=
  lapse (fun u => u.state == .issued && u.screening == screening) s

-- ## Quotes (R134)

/-- The charged prices of a sale's REDEEMED vouchers, summed. -/
def State.redeemedSum (s : State) (sale : Nat) : Nat :=
  ((s.vouchers.records.filter (fun u => u.sale == sale && u.state == .redeemed)).map (·.price)).sum

/-- How many vouchers of a sale stand in a state. -/
def State.countVouchers (s : State) (sale : Nat) (state : VoucherState) : Nat :=
  (s.vouchers.records.filter (fun u => u.sale == sale && u.state == state)).length

/-- A quote accepted: every ISSUED voucher of the sale is SUSPENDED. -/
def suspendVouchers (sale : Nat) (s : State) : State :=
  s.mapVouchers (fun u => if u.sale = sale ∧ u.state = .issued then { u with state := .suspended } else u)

/-- A quote ended: the SUSPENDED vouchers of the sale past their window end lapse, the others return. -/
def returnVouchers (sale : Nat) (s : State) : State :=
  (lapse (fun u => u.sale == sale && u.state == .suspended && s.windowEndClock u ≤ s.clock.value) s).mapVouchers
    (fun u => if u.sale = sale ∧ u.state = .suspended then { u with state := .issued } else u)

/-- A refund completed: the SUSPENDED vouchers of the sale are VOID. -/
def voidVouchers (sale : Nat) (s : State) : State :=
  settleVouchers (fun u => u.sale == sale && u.state == .suspended) .void .available s

-- ## Issue, restore, removal

/-- The charged price of each unit of a tally's voucher lines, in voucher order: of each line, its units at
the bundle price first (R87). -/
def voucherUnits (charges : List VoucherCharge) : List (Fin 8 × Nat) :=
  charges.flatMap (fun c =>
    List.replicate c.bundleUnits (c.kind, c.bundlePrice) ++ List.replicate c.comboUnits (c.kind, c.comboPrice))

/-- Step 2 of R115: the sale's vouchers are issued, in_baskets to outstanding; the codes are returned. -/
def issueVouchers (sale screening : Nat) (units : List (Fin 8 × Nat)) (s : State) :
    List SaleVoucher × State :=
  let held := fun c => s.vouchers.records.any (fun u => u.code == c)
  let (codes, serial) := takeSerials s.clock.day held units.length s.vouchers.serial
  let made := (codes.zip units).map (fun (c, k, price) => SaleVoucher.mk c k price)
  let records := made.map (fun v => Voucher.mk v.code v.kind sale screening v.price .issued none)
  let s := { s with vouchers := { s.vouchers with
    records := s.vouchers.records ++ records, serial := serial } }
  (made, moveEach .inBaskets .outstanding records s)

/-- R134, a restore: one record per carried code, its unit moved as its state says. -/
def restoreVouchers (vs : List Voucher) (s : State) : State :=
  let s := { s with vouchers := { s.vouchers with records := s.vouchers.records ++ vs } }
  vs.foldl (fun s v =>
    match v.state with
    | .issued => moveStock v.kind .available .outstanding 1 s
    | .redeemed => moveStock v.kind .available .taken 1 s
    | _ => s) s

/-- R15: the voucher records of a screening are removed; no stock moves. -/
def removeVouchers (screening : Nat) (s : State) : State :=
  { s with vouchers := { s.vouchers with
      records := s.vouchers.records.filter (fun u => u.screening != screening) } }

-- ## Reports

/-- The redemption link and minute (section 12.5): 0xFF and 0 when absent. -/
def redemptionBytes (r : Option Redemption) : List Byte :=
  match r with
  | none => [0xFF, 0, 0]
  | some r => (match r.link with
      | some n => [lineByte (.cl n)]
      | none => [0x40#8]) ++ bytes2 r.minute

/-- The voucher record of section 12.5. -/
def voucherBytes (v : Voucher) (s : State) : List Byte :=
  codeBytes v.code ++ number1 v.kind ++ bytes3 v.sale ++ bytes2 v.screening ++ amountBytes v.price
    ++ [v.state.code] ++ redemptionBytes v.redemption
    ++ bytes2 (windowOpening s (s.startOf v.screening)) ++ bytes2 (windowEnd s (s.startOf v.screening))

end Sys2Proof.Machine
end

