-- ==== Sys2Proof/Machine/BasketOps.lean ====
section
/-! DEFINITION. The basket unit's operations: entering ENDING, leaving a slot, returning from payment, going
into doubt, and what the owner is told (chapter 4). -/

namespace Sys2Proof.Machine

/-- An entry joins the tail of the seat request queue (R33). -/
def placeEntry (e : Entry) (s : State) : State :=
  { s with engine := { s.engine with queue := s.engine.queue ++ [e] } }

/-- The seconds a hold countdown stands at; 0 when it is absent. -/
def Hold.seconds : Hold → Nat
  | .absent => 0
  | .running n => n
  | .suspended n => n

/-- R113: a basket's reservation is released, if it holds one. -/
def releaseReservation (b : Basket) (s : State) : State :=
  if b.reserved then unreserve (quantityOf b.vouchers) s else s

/-- R168: a CLOSING station becomes LOCKED when its basket leaves its slot or enters DOUBT. -/
def lockIfClosing (owner : Owner) (s : State) : State :=
  match owner with
  | .office => s
  | .station n => s.onStation n (fun r => if r.state = .closing then { r with state := .locked } else r)

/-- R72: a basket enters ENDING for a reason other than COMMITTED: its countdown is discarded, its
reservation released, and RELEASE_BASKET is placed. -/
def endBasket (slot : Fin 16) (b : Basket) (reason : EndReason) (s : State) : State :=
  placeEntry (.releaseBasket slot b.ref b.screening)
    ((releaseReservation b s).putBasket slot
      { b with state := .ending, endReason := some reason, hold := .absent, reserved := false })

/-- R65, R71: a basket returns to TALLIED from payment. -/
def returnBasket (slot : Fin 16) (b : Basket) (s : State) : State :=
  (releaseReservation b s).putBasket slot
    { b with state := .tallied, hold := .running (max b.hold.seconds Config.returnFloor),
             warningSent := false, reserved := false, payRef := none }

/-- R65: a basket enters DOUBT: no countdown, no reservation, no pay ref. -/
def doubtBasket (slot : Fin 16) (b : Basket) (s : State) : State :=
  lockIfClosing b.owner
    ((releaseReservation b s).putBasket slot
      { b with state := .doubt, hold := .absent, reserved := false, payRef := none })

/-- A basket's record leaves its slot: the count of its generation falls, the slot is free, a CLOSING owner
is LOCKED (R72, R168). -/
def freeSlot (slot : Fin 16) (b : Basket) (s : State) : State :=
  let s := uncountBasket b.generation s
  lockIfClosing b.owner { s with baskets := s.baskets.set slot none }

/-- R72: the stock of the voucher lines goes back to available. -/
def returnStock (lines : List VoucherLine) (s : State) : State :=
  lines.foldl (fun s l => moveStock l.kind .inBaskets .available l.quantity s) s

/-- BASKET_ENDED: slot, ref, reason, number of seats freed. -/
def basketEnded (slot : Fin 16) (b : Basket) (reason : EndReason) (freed : Nat) (s : State) : State :=
  notifyOwner b.owner 0xE6 (bytes1 slot.val ++ bytes2 b.ref ++ [reason.code] ++ bytes1 freed) s

/-- The answer that waited for a basket to leave its slot: OK with the seats freed (R67, R108). -/
def answerWaiter (b : Basket) (freed : Nat) (s : State) : State :=
  match b.waiter with
  | none => s
  | some r => answer r .ok (bytes1 freed) s

/-- The table of R72: what the owner is sent for an end reason. COMMITTED is told by R117. -/
def tellEnd (slot : Fin 16) (b : Basket) (reason : EndReason) (freed : Nat) (s : State) : State :=
  match reason with
  | .committed => s
  | .cancelled => answerWaiter b freed s
  | .voided => answerWaiter b freed (basketEnded slot b reason freed s)
  | _ => basketEnded slot b reason freed s

/-- R72: a basket whose RELEASE_BASKET has been carried out leaves its slot; `freed` seats were freed. R72 has it all
done together: the PRICES_ACTIVE of a deferred activation (R84) is sent before the BASKET_ENDED or the answer
(DESIGN CHOICE, log entry 27). -/
def basketLeaves (slot : Fin 16) (b : Basket) (freed : Nat) (s : State) : State :=
  tellEnd slot b (b.endReason.getD .cancelled) freed (freeSlot slot b (returnStock b.vouchers s))

-- ## What a payment's outcome tells the kiosk (R97, R99)

/-- The outcomes a PAY_RESULT carries (R99), numbered from 1 in its order. -/
inductive PayOutcome where
  | approved
  | declined
  | timedOut
  | reversed
  | doubt
deriving DecidableEq, Repr

/-- The number of an outcome. -/
def PayOutcome.code : PayOutcome → Byte
  | .approved => 1 | .declined => 2 | .timedOut => 3 | .reversed => 4 | .doubt => 5

/-- The figures of a PAY_RESULT: the decline reason, the attempts made and left, the countdown; zero where
the outcome does not call for one (R179). -/
structure PayFigures where
  reason : Nat := 0
  made : Nat := 0
  left : Nat := 0
  countdown : Nat := 0
deriving DecidableEq, Repr

/-- PAY_RESULT: slot, ref, pay ref, outcome, figures. -/
def payResult (slot : Fin 16) (b : Basket) (payRef : Nat) (o : PayOutcome) (f : PayFigures)
    (s : State) : State :=
  notifyOwner b.owner 0xE4 (bytes1 slot.val ++ bytes2 b.ref ++ bytes2 payRef ++ [o.code] ++ bytes1 f.reason
    ++ bytes1 f.made ++ bytes1 f.left ++ bytes2 f.countdown) s

/-- PAY_STATUS: slot, ref, pay ref, stage (log entry 10). -/
def payStatus (slot : Fin 16) (b : Basket) (payRef : Nat) (stage : Stage) (s : State) : State :=
  notifyOwner b.owner 0xE3 (bytes1 slot.val ++ bytes2 b.ref ++ bytes2 payRef ++ [stage.statusCode]) s

/-- Whether an owner is a station in state OPEN (R109). -/
def State.ownerOpen (s : State) (o : Owner) : Bool :=
  match o with
  | .station n => (s.ifc.stations.get n).state == .opened
  | .office => false

/-- R99, R104, R109: a basket is judged against the decline limit after a decline, a mismatch or a confirmed
reversal. The PAY_RESULT carries the attempts made in every case (DESIGN CHOICE, log entry 35), and for a station
that is not OPEN the reason, the attempts made and left, and the countdown 0 (DESIGN CHOICE, log entry 35). -/
def judgeAttempt (slot : Fin 16) (b : Basket) (payRef : Nat) (o : PayOutcome) (reason : Nat)
    (s : State) : State :=
  if b.attempts < s.params.declineLimit then
    let left := s.params.declineLimit - b.attempts
    if s.ownerOpen b.owner then
      payResult slot b payRef o ⟨reason, b.attempts, left, max b.hold.seconds Config.returnFloor⟩
        (returnBasket slot b s)
    else
      endBasket slot b .stationClosed (payResult slot b payRef o ⟨reason, b.attempts, left, 0⟩ s)
  else
    endBasket slot b .payFailed (payResult slot b payRef o ⟨reason, b.attempts, 0, 0⟩ s)

-- ## Reports

/-- A voucher line. -/
def VoucherLine.bytes (l : VoucherLine) : List Byte := number1 l.kind ++ bytes1 l.quantity

/-- A seat line: row, position, type and line price, with its presence flag. -/
def SeatLine.bytes (l : SeatLine) : List Byte :=
  seatBytes l.row l.pos ++ [l.type.code] ++ optionalBytes amountBytes 4 l.price

/-- A hold countdown, as R54 lists its values: the seconds remaining, then 1 running, 2 suspended or 3 absent. -/
def Hold.bytes : Hold → List Byte
  | .running n => bytes2 n ++ bytes1 1
  | .suspended n => bytes2 n ++ bytes1 2
  | .absent => bytes2 0 ++ bytes1 3

/-- Every field of R54, in its order (R174); the tally as the TALLY answer lays it out, and an absent one as its
flag off and the zeros of a tally with no line (DEDUCED, log entry 15). -/
def Basket.bytes (slot : Fin 16) (b : Basket) : List Byte :=
  bytes1 slot.val ++ bytes2 b.ref ++ [ownerByte b.owner] ++ bytes2 b.screening
    ++ listBytes SeatLine.bytes b.lines ++ listBytes VoucherLine.bytes b.vouchers ++ bytes1 b.generation
    ++ optionalBytes Tally.bytes 23 b.tally
    ++ [b.state.code] ++ optionalBytes (fun r => [r.code]) 1 b.endReason ++ b.hold.bytes
    ++ flagByte b.extensionUsed ++ flagByte b.warningSent ++ bytes1 b.attempts ++ flagByte b.reserved
    ++ optionalBytes bytes2 2 b.payRef

end Sys2Proof.Machine
end

