-- ==== Sys2Proof/Machine/PrintOps.lean ====
section
/-! DEFINITION. The print controller's operations: element pool, jobs and waiting list, the power arbiter,
what a completed element does, stops and faults (chapter 9). -/

namespace Sys2Proof.Machine

-- ## Text (section 12.5)

/-- The characters of ten decimal digits. -/
def digitChars (code : Nat) : List Byte :=
  (List.range 10).map (fun i => BitVec.ofNat 8 (0x30 + code / 10 ^ (9 - i) % 10))

/-- The characters SETTLED. -/
def settledChars : List Byte := [0x53, 0x45, 0x54, 0x54, 0x4C, 0x45, 0x44]

/-- The characters of a class's name: STANDARD, 3D, PREMIUM. -/
def classChars : Class → List Byte
  | .standard => [0x53, 0x54, 0x41, 0x4E, 0x44, 0x41, 0x52, 0x44]
  | .threeD => [0x33, 0x44]
  | .premium => [0x50, 0x52, 0x45, 0x4D, 0x49, 0x55, 0x4D]

/-- The characters of a ticket type's name: ADULT, CHILD, SENIOR, COMPANION. -/
def typeChars : TicketType → List Byte
  | .adult => [0x41, 0x44, 0x55, 0x4C, 0x54]
  | .child => [0x43, 0x48, 0x49, 0x4C, 0x44]
  | .senior => [0x53, 0x45, 0x4E, 0x49, 0x4F, 0x52]
  | .companion => [0x43, 0x4F, 0x4D, 0x50, 0x41, 0x4E, 0x49, 0x4F, 0x4E]

/-- The characters of a number in decimal, with no leading zero; `fuel` digits at most. -/
def numberChars : Nat → Nat → List Byte
  | 0, _ => []
  | fuel + 1, n => (if n < 10 then [] else numberChars fuel (n / 10)) ++ [BitVec.ofNat 8 (0x30 + n % 10)]

/-- The free characters in a place of a line, 0x20–0x7E, at most `room` of them (log entry 6). -/
def freeChars (form place : Nat) (figures : List Nat) (room : Nat) : List Byte :=
  ((Config.lineText form (place :: figures)).filter printable).take room

/-- The parts of a line that section 12.5 gives, in order, with free characters before, between and after them,
`room` in all (log entry 6). -/
def weave (form : Nat) (figures : List Nat) (place room : Nat) : List (List Byte) → List Byte
  | [] => freeChars form place figures room
  | part :: rest =>
    let free := freeChars form place figures room
    free ++ part ++ weave form figures (place + 1) (room - free.length) rest

/-- A line of given parts and free characters, of at most 25 in all, so that each text stays within 160 bytes
(log entry 6). -/
def lineChars (form : Nat) (figures : List Nat) (parts : List (List Byte)) : List Byte :=
  weave form figures 0 (25 - (parts.map List.length).sum) parts

/-- Amounts are shown in units and cents. -/
def amountParts (cents : Nat) : List (List Byte) :=
  [numberChars 8 (cents / 100), numberChars 2 (cents % 100)]

/-- A row's letter, A for row 1. -/
def rowChars (row : Nat) : List Byte := [BitVec.ofNat 8 (0x40 + row)]

/-- The characters of a line of text (section 12.5): the parts it gives, in its order, the class and the ticket type
by their names (DEDUCED, log entry 6), and the figures of a receipt in units and cents as a ticket's price is (DESIGN
CHOICE, log entry 6). -/
def TextLine.chars : TextLine → List Byte
  | .name cs => cs
  | .start m c => lineChars 1 [m, c.code.toNat] [numberChars 2 (m / 60), numberChars 2 (m % 60), classChars c]
  | .seat r p t => lineChars 2 [r, p, t.code.toNat] [rowChars r, numberChars 2 p, typeChars t]
  | .price c => lineChars 3 [c] (amountParts c)
  | .saleTicket n i => lineChars 4 [n, i] [numberChars 6 n, numberChars 2 i]
  | .voucherCode c => digitChars c
  | .comboKind k => lineChars 5 [k] [numberChars 1 k]
  | .figure i c => lineChars 6 [i, c] (amountParts c)
  | .payment l r code => lineChars 7 (l :: r :: code.map BitVec.toNat) [numberChars 1 l, numberChars 5 r, code]
  | .settled => settledChars

/-- A text: its lines, each ended by 0x0A. -/
def textBytes (lines : List TextLine) : List Byte := lines.flatMap (fun l => l.chars ++ [0x0A])

-- ## Line states (section 9.3)

/-- The power-enable output: off in OFF, and in STOPPED for OVERCURRENT and POWER_CUT. -/
def TicketLine.powered (l : TicketLine) : Bool :=
  match l.state with
  | .off => false
  | .stopped => l.cause != some .overcurrent && l.cause != some .powerCut
  | _ => true

/-- R154: an assertion present as the power-enable output turns on is filtered afresh, with the filter time in
force then. -/
def TicketLine.watching (l : TicketLine) (time : Nat) : TicketLine :=
  { l with filter := if l.asserted then some time else none }

/-- A line holds a grant while it is PRINTING. -/
def TicketLine.granted (l : TicketLine) : Bool := l.state == .printing

/-- R145: the draws of the lines that hold a grant, summed. -/
def State.grantedSum (s : State) : Nat :=
  (((indices 8).filter (fun i => (s.ticketLine i).granted)).map s.params.draws.get).sum

/-- Whether any line holds a grant (R146). -/
def State.anyGrant (s : State) : Bool := s.print.lines.list.any TicketLine.granted

-- ## Pool, jobs, chains

/-- The free elements' numbers. -/
def State.freeElements (s : State) : List (Fin 256) :=
  (indices 256).filter (fun i => (s.print.pool.get i).isNone)

/-- The elements chained from `e` on, `fuel` at most. -/
def chainFrom (pool : Tab (Option Element) 256) : Nat → Fin 256 → List (Fin 256)
  | 0, _ => []
  | fuel + 1, e =>
    e :: (match (pool.get e).bind (·.next) with
      | none => []
      | some e' => chainFrom pool fuel e')

/-- A job's elements in order; no chain is longer than the pool. -/
def Job.chain (j : Job) (pool : Tab (Option Element) 256) : List (Fin 256) := chainFrom pool 256 j.first

/-- The next element to send: the first one not yet done (R141). -/
def Job.next (j : Job) (pool : Tab (Option Element) 256) : Option (Fin 256) :=
  let c := j.chain pool
  (c.drop (c.length - j.remaining)).head?

/-- The next element of the head job of a line. -/
def State.headElement (s : State) (i : Fin 8) : Option (Fin 256) :=
  (s.ticketLine i).queue.head?.bind (fun j => j.next s.print.pool)

/-- The element in flight: a PRINTING line's next element (R147). -/
def State.inFlight (s : State) (i : Fin 8) : Option (Fin 256) :=
  if (s.ticketLine i).state = .printing then s.headElement i else none

/-- What a job prints of one element, before it has a number. -/
structure ElementPlan where
  kind : ElementKind
  index : Nat
  text : List TextLine
deriving DecidableEq, Repr

/-- The number of elements a make-up needs (R140). -/
def MakeUp.count : MakeUp → Nat
  | .first t v r => t + v + (if r then 1 else 0)
  | .reprint ts => ts.length

/-- A ticket's text, from the records as they stand (R139). -/
def ticketText (s : State) (sale : Sale) (i : Nat) : List TextLine :=
  match s.screening sale.screening, sale.tickets[i]? with
  | some c, some t =>
    [.name ((s.plan c.plan).elim [] (fun p => p.1.name)), .start c.start c.cls, .seat t.row t.pos t.type,
      .price t.price, .saleTicket sale.number i]
  | _, _ => []

/-- A receipt's text: T, D, V, the total and X, each on a line of its own, and the pay line, pay ref and approval code
on one line, as they make one payment (DESIGN CHOICE, log entry 6), or the word SETTLED. -/
def receiptText (sale : Sale) : List TextLine :=
  [.figure 1 sale.subtotal, .figure 2 sale.discount, .figure 3 sale.voucherTotal, .figure 4 sale.total,
    .figure 5 sale.tax,
    match sale.payment with
    | some p => .payment p.line.val p.payRef p.code
    | none => .settled]

/-- R140: a job's elements, in order. -/
def composeJob (s : State) (sale : Sale) : MakeUp → List ElementPlan
  | .first t v r =>
    (List.range t).map (fun i => ⟨.ticket, i, ticketText s sale i⟩)
      ++ (List.range v).map (fun i =>
        ⟨.voucherSlip, i, match sale.vouchers[i]? with
          | some u => [.voucherCode u.code, .comboKind (u.kind.val + 1)]
          | none => []⟩)
      ++ (if r then [⟨.receipt, 0, receiptText sale⟩] else [])
  | .reprint ts => ts.map (fun i => ⟨.ticket, i, ticketText s sale i⟩)

/-- The elements of a job written into the pool as a chain, each PENDING (R139). -/
def writeChain (sale : Nat) : List (Fin 256) → List ElementPlan → Tab (Option Element) 256 →
    Tab (Option Element) 256
  | e :: es, x :: xs, pool =>
    writeChain sale es xs
      (pool.set e (some ⟨x.kind, sale, x.index, es.head?, xs.isEmpty, .waiting, x.text⟩))
  | _, _, pool => pool

-- ## The power arbiter (R145)

/-- PRINT_ELEMENT for the next element of the head job (R147); the job is started. -/
def sendElement (i : Fin 8) (s : State) : State :=
  match s.headElement i with
  | none => s
  | some e =>
    match s.print.pool.get e with
    | none => s
    | some x =>
      let text := textBytes x.text
      let body := [0x54#8, 0] ++ bytes1 e.val ++ [x.kind.code] ++ bytes3 x.sale ++ bytes1 x.index
        ++ bytes1 text.length ++ text
      send (.tl i) ⟨body, false⟩
        (s.onTicketLine i (fun l => { l with
          queue := match l.queue with
            | j :: rest => { j with started := true } :: rest
            | [] => [] }))

/-- R145: the head of the waiting order is granted while its draw fits, and so on with the new head. -/
def judgeFrom : Nat → State → State
  | 0, s => s
  | fuel + 1, s =>
    match s.print.order with
    | [] => s
    | i :: rest =>
      if s.grantedSum + s.params.draws.get i ≤ s.params.budget then
        let s := { s with print := { s.print with order := rest } }
        judgeFrom fuel (sendElement i (s.onTicketLine i (fun l => { l with state := .printing })))
      else s

/-- The arbiter judges its head; at most 8 lines wait. -/
def judge (s : State) : State := judgeFrom 8 s

/-- A line enters WAIT_POWER and joins the tail of the order; an order that was empty is judged (R145). -/
def joinOrder (i : Fin 8) (s : State) : State :=
  let first := s.print.order.isEmpty
  let s := s.onTicketLine i (fun l => { l with state := .waitPower })
  let s := { s with print := { s.print with order := s.print.order ++ [i] } }
  if first then judge s else s

/-- R143: a line in IDLE whose queue holds a job enters WAIT_POWER at once. -/
def wake (i : Fin 8) (s : State) : State :=
  let l := s.ticketLine i
  if l.state = .idle ∧ l.queue ≠ [] then joinOrder i s else s

/-- A line is changed by `f`, giving up its grant or its place in the order (R145). -/
def vacate (i : Fin 8) (f : TicketLine → TicketLine) (s : State) : State :=
  let s := s.onTicketLine i f
  { s with print := { s.print with order := s.print.order.filter (fun k => k != i) } }

/-- The same, and the arbiter judges its head where a grant was released or the head left (R145). -/
def release (i : Fin 8) (f : TicketLine → TicketLine) (s : State) : State :=
  let judged := (s.ticketLine i).granted || s.print.order.head? == some i
  let s := vacate i f s
  if judged then judge s else s

-- ## Jobs and the waiting list (R140, R142)

/-- The outcome of a job request (R140). -/
inductive PrintOutcome where
  | queued
  | waiting
  | notQueued
deriving DecidableEq, Repr

/-- QUEUED 1, WAITING 2, NOT_QUEUED 3. -/
def PrintOutcome.code : PrintOutcome → Byte
  | .queued => 1
  | .waiting => 2
  | .notQueued => 3

/-- Whether a job of `n` elements fits: enough free elements and a place in the line's queue (R140). -/
def State.jobFits (s : State) (i : Fin 8) (n : Nat) : Bool :=
  n ≤ s.freeElements.length && (s.ticketLine i).queue.length < Config.maxJobs

/-- The elements are taken and composed and the job joins the tail of the line's queue (R139, R140); which
free elements are taken is open (log entry 5). -/
def makeJob (i : Fin 8) (sale : Sale) (origin : Owner) (makeUp : MakeUp) (s : State) : State :=
  let plans := composeJob s sale makeUp
  let free := s.freeElements
  let numbers := (arrangeFrom s.choice plans.length free).take plans.length
  match numbers with
  | [] => s
  | first :: _ =>
    let isReprint := match makeUp with
      | .first _ _ _ => false
      | .reprint _ => true
    let job : Job := ⟨sale.number, origin, first, plans.length, isReprint, false⟩
    let s := { s with print := { s.print with pool := writeChain sale.number numbers plans s.print.pool } }
    let s := if free.length ≤ 1 then s else { s with choice := s.choice + plans.length }
    wake i (s.onTicketLine i (fun l => { l with queue := l.queue ++ [job] }))

/-- R140: a job request judged. -/
def requestJob (i : Fin 8) (sale : Sale) (origin : Owner) (makeUp : MakeUp) (s : State) :
    PrintOutcome × State :=
  let entry : WaitEntry := ⟨sale.number, i, origin, makeUp, makeUp.count⟩
  let joined := { s with print := { s.print with waiting := s.print.waiting ++ [entry] } }
  if s.print.waiting = [] then
    if s.jobFits i makeUp.count then (.queued, makeJob i sale origin makeUp s) else (.waiting, joined)
  else if s.print.waiting.length < Config.maxWaiting then (.waiting, joined)
  else (.notQueued, s)

/-- R142: the waiting list served, head by head. -/
def serveFrom : Nat → State → State
  | 0, s => s
  | fuel + 1, s =>
    match s.print.waiting with
    | [] => s
    | e :: rest =>
      let removed := { s with print := { s.print with waiting := rest } }
      match s.sale e.sale with
      | none => serveFrom fuel removed
      | some sale =>
        if s.jobFits e.line e.needed then
          serveFrom fuel (makeJob e.line sale e.origin e.makeUp removed)
        else s

/-- The waiting list holds at most 16 entries. -/
def serveWaiting (s : State) : State := serveFrom s.print.waiting.length s

-- ## A completed element (R148)

/-- An element's result as a ticket state. -/
def ElementResult.ticketState : ElementResult → TicketState
  | .spoiled => .spoiled
  | _ => .printed

/-- R118: the results of a job's TICKET elements written into the sale's tickets, and its flag cleared; a
sale no longer live takes nothing. -/
def reportJob (number : Nat) (elements : List Element) (s : State) : State :=
  s.onSale number (fun sale => { sale with
    jobLive := false
    tickets := elements.foldl (fun ts x =>
      if x.kind = .ticket then ts.modify x.index (fun t => { t with state := x.result.ticketState }) else ts)
      sale.tickets })

/-- Step 2 of R148: the head job of a line completes. -/
def completeJob (i : Fin 8) (s : State) : State :=
  match (s.ticketLine i).queue with
  | [] => s
  | j :: rest =>
    let chain := j.chain s.print.pool
    let elements := chain.filterMap s.print.pool.get
    let s := s.onTicketLine i (fun l => { l with queue := rest })
    let s := reportJob j.sale elements s
    let pool := chain.foldl (fun p e => p.set e none) s.print.pool
    serveWaiting { s with print := { s.print with pool := pool } }

/-- R149: a rest ends: WAIT_POWER if the queue holds a job, IDLE otherwise. -/
def leaveRest (i : Fin 8) (s : State) : State :=
  let s := s.onTicketLine i (fun l => { l with state := .idle, rest := none })
  wake i s

/-- R149: a line enters RESTING; a rest time of 0 is left at once. -/
def enterRest (i : Fin 8) (s : State) : State :=
  let t := s.params.restTime
  let s := release i (fun l => { l with
    state := .resting, sinceRest := 0, rest := if t = 0 then none else some t }) s
  if t = 0 then leaveRest i s else s

/-- Step 3 of R148: the line goes on, by the first case of the table that holds. -/
def goOn (i : Fin 8) (jobDone : Bool) (s : State) : State :=
  let l := s.ticketLine i
  if l.stopPending then
    release i (fun l => { l with state := .stopped, cause := some .stop, stopPending := false }) s
  else if l.haltPending ∧ jobDone then
    release i (fun l => { l with state := .halted, haltPending := false, sinceRest := 0 }) s
  else if s.params.restAfter ≠ 0 ∧ s.params.restAfter ≤ l.sinceRest then enterRest i s
  else if l.queue ≠ [] then sendElement i s
  else release i (fun l => { l with state := .idle }) s

/-- R148: the element in flight completes with a result. -/
def completeElement (i : Fin 8) (e : Fin 256) (result : ElementResult) (s : State) : State :=
  let pool := s.print.pool.modify e (fun x => x.map (fun x => { x with result := result }))
  let s := { s with print := { s.print with pool := pool } }
  let s := s.onTicketLine i (fun l => { l with
    sinceRest := min (l.sinceRest + 1) 32
    queue := match l.queue with
      | j :: rest => { j with remaining := j.remaining - 1 } :: rest
      | [] => [] })
  match (s.ticketLine i).queue with
  | [] => s
  | j :: _ => if j.remaining = 0 then goOn i true (completeJob i s) else goOn i false s

-- ## Power off and faults (R144, R153 to R156)

/-- The element in flight becomes SPOILED and stays not done. -/
def spoilInFlight (i : Fin 8) (s : State) : State :=
  match s.inFlight i with
  | none => s
  | some e =>
    { s with print := { s.print with
        pool := s.print.pool.modify e (fun x => x.map (fun x => { x with result := .spoiled })) } }

/-- R144: POWER_OFF in any state but OFF. -/
def powerDown (i : Fin 8) (s : State) : State :=
  if (s.ticketLine i).state = .off then s
  else
    release i (fun l => { l with
      state := .off, cause := none, stopPending := false, haltPending := false, rest := none,
      status := .none, filter := none }) (spoilInFlight i s)

/-- What the capture of a fault holds now (R156). -/
def State.captureOf (s : State) (i : Fin 8) (cause : Cause) : Capture :=
  ⟨cause, (s.inFlight i).bind (fun e => (s.print.pool.get e).map (fun x => ⟨x.sale, x.kind, x.index⟩))⟩

/-- A capture is filled when it is empty (R156). -/
def TicketLine.capturing (l : TicketLine) (c : Capture) : TicketLine :=
  { l with capture := match l.capture with
    | none => some c
    | some old => some old }

/-- R153: a fault a printer reports, by the line's state. -/
def printerFault (i : Fin 8) (cause : Cause) (s : State) : State :=
  let c := s.captureOf i cause
  if (s.ticketLine i).state = .stopped then s.onTicketLine i (fun l => l.capturing c)
  else
    release i (fun l => { l.capturing c with
      state := .stopped, cause := some cause, stopPending := false, haltPending := false, rest := none })
      (spoilInFlight i s)

/-- R154, R155: a line's supply is cut: it stops with the cause, whatever its state. Both pending marks are cleared, a
halt-pending mark set while it was STOPPED too (DESIGN CHOICE, log entry 40). -/
def cutSupply (i : Fin 8) (cause : Cause) (s : State) : State :=
  let c := s.captureOf i cause
  vacate i (fun l => { l.capturing c with
    state := .stopped, cause := some cause, stopPending := false, haltPending := false, rest := none,
    status := .none, filter := none }) (spoilInFlight i s)

/-- R154, R155: a filtered fault on a powered line. -/
def filteredFault (i : Fin 8) (s : State) : State :=
  let judged := (s.ticketLine i).granted || s.print.order.head? == some i
  match s.params.supply with
  | .individual =>
    let s := cutSupply i .overcurrent s
    if judged then judge s else s
  | .ganged =>
    let others := (indices 8).filter (fun k => k != i && (s.ticketLine k).powered)
    others.foldl (fun s k => cutSupply k .powerCut s) (cutSupply i .overcurrent s)

/-- R154: what happens at a line's fault input. The filter time is read when an assertion begins on a watched
line; an assertion that has lasted that long is a filtered fault, and a shorter one has no effect. -/
def faultInput (i : Fin 8) (input : FaultInput) (s : State) : State :=
  let l := s.ticketLine i
  match input with
  | .begins =>
    if l.asserted then s
    else s.onTicketLine i (fun l => { l with
      asserted := true, filter := if l.powered then some s.params.filterTime else none })
  | .lasts ms =>
    match l.filter with
    | none => s
    | some time => if time ≤ ms ∧ l.powered then filteredFault i s else s
  | .ends => s.onTicketLine i (fun l => { l with asserted := false, filter := none })

end Sys2Proof.Machine
end

