-- ==== Sys2Proof/Machine/SaleOps.lean ====
section
/-! DEFINITION. The sale table's operations: sale numbers, the two ends of a commit, the ends of a refund
quote, and the sale record as messages carry it (chapter 7, section 12.5). -/

namespace Sys2Proof.Machine

-- ## Sale numbers (R112)

/-- R112: whether a live record, a commit under way, a queued job, a waiting entry or a last sale holds a
sale number. -/
def State.holdsNumber (s : State) (n : Nat) : Bool :=
  s.sales.records.any (fun r => r.number == n)
    || s.sales.commits.any (fun c => c.number == n)
    || s.print.lines.list.any (fun l => l.queue.any (fun j => j.sale == n))
    || s.print.waiting.any (fun w => w.sale == n)
    || s.sales.last.list.any (fun l => l.any (fun l => l.number == n))

/-- R112: the number the next commit takes; a free one is found within 2,121 steps. -/
def State.freeNumber (s : State) : Nat := firstFree s.holdsNumber (wrapSucc 999999) 2121 s.sales.next

-- ## Commit (R114, R115, R117)

/-- R114: a commit begins: the number is taken, the payment fixed, the basket enters ENDING with COMMITTED,
and SELL_BASKET is placed. -/
def beginCommit (slot : Fin 16) (b : Basket) (payment : Option Payment) (line : Option (Fin 8))
    (s : State) : State :=
  let n := s.freeNumber
  let s := { s with sales := { s.sales with
    next := wrapSucc 999999 n, commits := s.sales.commits ++ [Commit.mk slot b.ref n payment line] } }
  placeEntry (.sellBasket slot b.ref b.screening n)
    (s.putBasket slot { b with state := .ending, endReason := some .committed, hold := .absent })

/-- The tickets of a basket's seat lines (step 1 of R115). -/
def ticketsOf (lines : List SeatLine) : List Ticket :=
  lines.map (fun l => ⟨l.row, l.pos, l.type, l.price.getD 0, .unprinted, 0⟩)

/-- A tally with nothing in it, for a basket that holds none; a basket being committed holds one (R54). -/
def Tally.none (g : Nat) : Tally := ⟨g, [], 0, 0, [], 0, 0, 0⟩

/-- Step 1 of R115: the record a commit creates. -/
def commitRecord (b : Basket) (c : Commit) : Sale :=
  let t := b.tally.getD (Tally.none b.generation)
  { number := c.number, screening := b.screening, origin := b.owner, generation := t.generation
    tickets := ticketsOf b.lines, vouchers := []
    subtotal := t.subtotal, discount := t.discount, voucherTotal := t.voucherTotal, total := t.total
    tax := t.tax, payment := c.payment, state := .committed, quote := none, jobLive := false }

/-- R117: the ticket line of a commit, chosen when it completes. -/
def State.commitLine (s : State) (owner : Owner) (c : Commit) : Option (Fin 8) :=
  match owner with
  | .station n => (s.binding n).map (·.ticket)
  | .office => c.line

/-- Step 4 of R115: the sale's job is asked for. -/
def commitJob (line : Option (Fin 8)) (n : Nat) (s : State) : PrintOutcome × State :=
  match line, s.sale n with
  | some i, some sale =>
    let receipt := match sale.origin with
      | .station _ => true
      | .office => false
    let (o, s) := requestJob i sale sale.origin
      (.first sale.tickets.length sale.vouchers.length receipt) s
    (o, if o = .notQueued then s else s.onSale n (fun r => { r with jobLive := true }))
  | _, _ => (.notQueued, s)

/-- The payment of a sale: present flag, pay line, pay ref, approval code. -/
def paymentBytes (p : Option Payment) : List Byte :=
  match p with
  | some p => 1#8 :: lineByte (.pl p.line) :: (bytes2 p.payRef ++ p.code)
  | none => List.replicate 10 0

/-- A ticket in a sale record. -/
def Ticket.bytes (t : Ticket) : List Byte :=
  seatBytes t.row t.pos ++ [t.type.code] ++ amountBytes t.price ++ [t.state.code] ++ bytes1 t.used

/-- A voucher in a sale record. -/
def SaleVoucher.bytes (v : SaleVoucher) : List Byte := codeBytes v.code ++ number1 v.kind ++ amountBytes v.price

/-- The sale record of section 12.5. -/
def Sale.bytes (r : Sale) : List Byte :=
  bytes3 r.number ++ bytes2 r.screening ++ [ownerByte r.origin] ++ bytes1 r.generation ++ [r.state.code]
    ++ flagByte r.jobLive ++ listBytes Ticket.bytes r.tickets ++ listBytes SaleVoucher.bytes r.vouchers
    ++ amountBytes r.subtotal ++ amountBytes r.discount ++ amountBytes r.voucherTotal ++ amountBytes r.total
    ++ amountBytes r.tax ++ paymentBytes r.payment
    ++ (match r.quote with
        | some q => 1#8 :: (amountBytes q.amount ++ bytes2 q.seconds)
        | none => List.replicate 7 0)

/-- R117: the owner of the basket is told of the sale; a station's sale becomes its last sale. -/
def tellCommit (slot : Fin 16) (b : Basket) (r : Sale) (o : PrintOutcome) (s : State) : State :=
  let codes := listBytes (fun (v : SaleVoucher) => codeBytes v.code) r.vouchers
  match b.owner with
  | .station n =>
    let s := notifyStation n 0xE5 (bytes1 slot.val ++ bytes2 b.ref ++ bytes3 r.number ++ amountBytes r.total
      ++ amountBytes r.tax ++ bytes1 r.tickets.length ++ codes ++ [o.code]) s
    let s := { s with sales := { s.sales with
      last := s.sales.last.set n (some ⟨r.number, Config.reprintWindow⟩) } }
    match b.waiter with
    | none => s
    | some w => answer w .ok (bytes3 r.number ++ [o.code]) s
  | .office =>
    match b.waiter with
    | none => s
    | some w => answer w .ok (bytes3 r.number ++ amountBytes r.total ++ amountBytes r.tax ++ codes ++ [o.code]) s

/-- Steps 1 and 2 of R115: the record is created, the reservation consumed, the vouchers issued. -/
def recordSale (b : Basket) (c : Commit) (s : State) : State :=
  let r := commitRecord b c
  let s := { s with sales := { s.sales with
    records := s.sales.records ++ [r]
    commits := s.sales.commits.filter (fun k => k.number != c.number) } }
  let s := releaseReservation b s
  let (made, s) := issueVouchers c.number b.screening
    (voucherUnits (b.tally.getD (Tally.none b.generation)).charges) s
  s.onSale c.number (fun r => { r with vouchers := made })

/-- R115: a commit completes, the seats being SOLD. -/
def completeCommit (slot : Fin 16) (b : Basket) (c : Commit) (s : State) : State :=
  let s := freeSlot slot b (recordSale b c s)
  let (o, s) := commitJob (s.commitLine b.owner c) c.number s
  match s.sale c.number with
  | none => s
  | some r => tellCommit slot b r o (notifyOffice 0xEA r.bytes s)

-- ## Refunds (R120, R121)

/-- REFUND_NOTICE: the outcome (1 REFUNDED, 2 EXPIRED), the sale number, then the fields of R120. -/
def refundNotice (outcome : Nat) (r : Sale) (fields : List Byte) (s : State) : State :=
  notifyOffice 0xEB (bytes1 outcome ++ bytes3 r.number ++ fields) s

/-- R121: a quote ends: it is removed, the sale is COMMITTED again, its vouchers return or lapse. -/
def endQuote (n : Nat) (s : State) : State :=
  returnVouchers n (s.onSale n (fun r => { r with state := .committed, quote := none }))

/-- R121: a quote's countdown expires; the notice carries no figure but the number (R179). -/
def expireQuote (r : Sale) (s : State) : State := refundNotice 2 r (List.replicate 19 0) (endQuote r.number s)

/-- R120: FREE_SALE has been carried out: the refund completes. -/
def completeRefund (r : Sale) (q : Quote) (s : State) : State :=
  let voided := s.countVouchers r.number .suspended
  let redeemed := s.countVouchers r.number .redeemed
  let s := s.onSale r.number (fun r => { r with state := .refunded, quote := none })
  let s := voidVouchers r.number s
  let s := match q.taken with
    | none => s
    | some w => answer w .ok (amountBytes q.amount) s
  refundNotice 1 r (bytes2 r.screening ++ [ownerByte r.origin] ++ paymentBytes r.payment
    ++ amountBytes q.amount ++ bytes1 voided ++ bytes1 redeemed) s

end Sys2Proof.Machine
end

