-- ==== Sys2Proof/Machine/PayOps.lean ====
section
/-! DEFINITION. The payment unit's operations: records, exchanges, the reversal queue, timeouts, late
messages and doubt (chapter 6). -/

namespace Sys2Proof.Machine

-- ## Records and pay refs (R92, R93)

/-- The payment record of a line that names a pay ref. -/
def PayLine.record (l : PayLine) (payRef : Nat) : Option PayRecord := l.records.find? (fun r => r.payRef == payRef)

/-- The queued reversal of a line that names a pay ref. -/
def PayLine.reversal (l : PayLine) (payRef : Nat) : Option Reversal := l.queue.find? (fun r => r.payRef == payRef)

/-- The payment record of a pay ref changed. -/
def PayLine.onRecord (l : PayLine) (payRef : Nat) (f : PayRecord → PayRecord) : PayLine :=
  { l with records := l.records.map (fun r => if r.payRef = payRef then f r else r) }

/-- A pay line's record. -/
def State.payLine (s : State) (i : Fin 8) : PayLine := s.pay.lines.get i

/-- The states of an attempt in flight; the others are final (R93). -/
def PayState.inFlight : PayState → Bool
  | .sent => true
  | .accepted => true
  | .aborting => true
  | _ => false

/-- R92: whether a pay ref is held by a payment record, a reversal record or a doubt-list entry. -/
def State.holdsPayRef (s : State) (n : Nat) : Bool :=
  s.pay.lines.list.any (fun l => l.records.any (fun r => r.payRef == n) || l.queue.any (fun r => r.payRef == n))
    || s.pay.doubts.any (fun d => d.payRef == n)

/-- R92: the pay ref of the next attempt; at most 6 × 8 records, 4 × 8 reversals and 16 doubts hold values. -/
def State.freePayRef (s : State) : Nat := firstFree s.holdsPayRef (wrapSucc 65535) 97 s.pay.nextRef

/-- R93: the oldest record in a final state is forgotten. -/
def retire : List PayRecord → List PayRecord
  | [] => []
  | r :: rest => if r.state.inFlight then r :: retire rest else rest

/-- R93: an accepted PAY's record joins the line's. -/
def addRecord (r : PayRecord) (records : List PayRecord) : List PayRecord :=
  (if records.length < Config.maxPayRecords then records else retire records) ++ [r]

/-- A stray message adds one to the line's stray count (R91). -/
def countStray (line : Fin 8) (s : State) : State := s.onPayLine line (fun l => { l with stray := bump l.stray })

-- ## Exchanges (R94)

/-- The exchange in flight ends. -/
def endExchange (line : Fin 8) (s : State) : State := s.onPayLine line (fun l => { l with exchange := none })

/-- R94, R104: with no exchange in flight, the head of the queue is sent as REVERSE. Its approval code, sent when
known, stands after a presence flag, as zeros when unknown (DESIGN CHOICE, log entry 15). -/
def pump (line : Fin 8) (s : State) : State :=
  match (s.payLine line).exchange, (s.payLine line).queue with
  | none, r :: _ =>
    tellTerminal line 0x52 (bytes2 r.payRef ++ amountBytes r.amount ++ approvalBytes r.code)
      (s.onPayLine line (fun l => { l with
        exchange := some ⟨.reversal, r.payRef, s.params.reversalInterval⟩ }))
  | _, _ => s

/-- A record's state changed. -/
def setRecord (line : Fin 8) (payRef : Nat) (f : PayRecord → PayRecord) (s : State) : State :=
  s.onPayLine line (fun l => l.onRecord payRef f)

-- ## Doubt (R105 to R107)

/-- The causes a DOUBT_NOTICE carries (R107). -/
inductive DoubtCause where
  | limit
  | overflow
deriving DecidableEq, Repr

/-- LIMIT 1, OVERFLOW 2. -/
def DoubtCause.code : DoubtCause → Byte
  | .limit => 1
  | .overflow => 2

/-- The basket a reversal is tied to, while it is live. -/
def State.tied (s : State) (r : Reversal) : Option (Fin 16 × Basket) :=
  r.basket.bind (fun (slot, ref) => (s.basket slot ref).map (fun b => (slot, b)))

/-- DOUBT_NOTICE (R107): the disposition is 1 DOUBT or 2 RELEASED. -/
def doubtNotice (line : Fin 8) (r : Reversal) (cause : DoubtCause) (s : State) : State :=
  let disposition := match s.params.doubtPolicy with
    | .keep => 1
    | .release => 2
  notifyOffice 0xE9 (lineByte (.pl line) :: (bytes2 r.payRef ++ amountBytes r.amount ++ approvalBytes r.code
    ++ [cause.code] ++ optionalBytes (fun (x : Fin 16 × Basket) => bytes1 x.1.val ++ bytes2 x.2.ref
      ++ [ownerByte x.2.owner] ++ bytes1 disposition) 5 (s.tied r))) s

/-- Step 3 of R105: a basket tied to a reversal given up is disposed of by the doubt policy. -/
def dispose (line : Fin 8) (r : Reversal) (s : State) : State :=
  match s.tied r with
  | none => s
  | some (slot, b) =>
    match s.params.doubtPolicy with
    | .release => endBasket slot b .doubtReleased s
    | .keep =>
      let s := payResult slot b r.payRef .doubt {} (doubtBasket slot b s)
      { s with pay := { s.pay with
          doubts := s.pay.doubts ++ [Doubt.mk slot b.ref line r.payRef r.amount r.code] } }

/-- R103, R106: a reversal is needed. A queued record for the same pay ref takes its code and amount; a new
one joins a queue with room; a full queue gives a DOUBT_NOTICE and disposes of the basket. -/
def needReversal (line : Fin 8) (r : Reversal) (s : State) : State :=
  let l := s.payLine line
  if (l.reversal r.payRef).isSome then
    s.onPayLine line (fun l => { l with queue := l.queue.map (fun q =>
      if q.payRef = r.payRef ∧ r.code.isSome then { q with code := r.code, amount := r.amount } else q) })
  else if l.queue.length < Config.maxReversals then
    s.onPayLine line (fun l => { l with queue := l.queue ++ [r] })
  else dispose line r (doubtNotice line r .overflow s)

-- ## Outcomes of an attempt (R97 to R101)

/-- The basket an attempt belongs to, while its slot still carries the ref (R55). -/
def State.attemptBasket (s : State) (r : PayRecord) : Option Basket := s.basket r.slot r.ref

/-- What an outcome does to the attempt's basket; an outcome naming a stale ref is discarded (R55). -/
def withBasket (r : PayRecord) (f : Basket → State → State) (s : State) : State :=
  match s.attemptBasket r with
  | none => s
  | some b => f b s

/-- R97: ACCEPTED in SENT. -/
def acceptRecord (line : Fin 8) (r : PayRecord) (s : State) : State :=
  let s := s.onPayLine line (fun l => { (l.onRecord r.payRef (fun r => { r with state := .accepted })) with
    exchange := some ⟨.authorization, r.payRef, s.params.authorizationWait⟩ })
  withBasket r (fun b => payStatus r.slot b r.payRef .none) s

/-- R97: PROGRESS in ACCEPTED. -/
def progressRecord (line : Fin 8) (r : PayRecord) (stage : Stage) (s : State) : State :=
  withBasket r (fun b => payStatus r.slot b r.payRef stage)
    (setRecord line r.payRef (fun r => { r with stage := stage }) s)

/-- R98: an approval of the right amount commits the sale. -/
def approveRecord (line : Fin 8) (r : PayRecord) (code : List Byte) (s : State) : State :=
  let s := endExchange line (setRecord line r.payRef (fun r => { r with state := .approved, code := some code }) s)
  pump line (withBasket r (fun b s =>
    beginCommit r.slot b (some ⟨line, r.payRef, code⟩) none (payResult r.slot b r.payRef .approved {} s)) s)

/-- R99: an attempt is declined, and its basket judged. -/
def declineRecord (line : Fin 8) (r : PayRecord) (reason : Nat) (s : State) : State :=
  let s := endExchange line (setRecord line r.payRef (fun r => { r with
    state := .declined, reason := some reason }) s)
  pump line (withBasket r (fun b => judgeAttempt r.slot b r.payRef .declined reason) s)

/-- R98: an approval of another amount is reversed, and the basket judged as for a decline. -/
def mismatchRecord (line : Fin 8) (r : PayRecord) (code : List Byte) (amount : Nat) (s : State) : State :=
  let s := endExchange line (setRecord line r.payRef (fun r => { r with
    state := .declined, reason := some 0, code := some code }) s)
  let s := needReversal line ⟨r.payRef, amount, some code, 0, none⟩ s
  pump line (withBasket r (fun b => judgeAttempt r.slot b r.payRef .declined 0) s)

/-- R101: an abort answered by ABORTED or DECLINED cancels the basket. -/
def abortAnswered (line : Fin 8) (r : PayRecord) (f : PayRecord → PayRecord) (s : State) : State :=
  let s := endExchange line (setRecord line r.payRef f s)
  pump line (withBasket r (fun b => endBasket r.slot b .cancelled) s)

/-- R101: an abort met by an approval cancels the basket and reverses the approval. -/
def abortApproved (line : Fin 8) (r : PayRecord) (code : List Byte) (amount : Nat) (s : State) : State :=
  let s := endExchange line (setRecord line r.payRef (fun r => { r with
    state := .aborted, code := some code }) s)
  let s := needReversal line ⟨r.payRef, amount, some code, 0, none⟩ s
  pump line (withBasket r (fun b => endBasket r.slot b .cancelled) s)

/-- The basket waits in REVERSING, its countdown still suspended (R100). -/
def reverseBasket (slot : Fin 16) (b : Basket) (s : State) : State :=
  s.putBasket slot { b with state := .reversing, waiter := none }

/-- R100: an attempt in SENT or ACCEPTED has timed out. -/
def timeOut (line : Fin 8) (r : PayRecord) (s : State) : State :=
  let s := endExchange line (setRecord line r.payRef (fun r => { r with state := .timedOut }) s)
  let s := withBasket r (fun b s => payResult r.slot b r.payRef .timedOut {} (reverseBasket r.slot b s)) s
  pump line (needReversal line ⟨r.payRef, r.amount, none, 0, some (r.slot, r.ref)⟩ s)

/-- R101: an abort has gone unanswered; the CANCEL is answered OK REVERSING at once. -/
def silentAbort (line : Fin 8) (r : PayRecord) (s : State) : State :=
  let s := endExchange line (setRecord line r.payRef (fun r => { r with state := .timedOut }) s)
  let s := withBasket r (fun b s =>
    let s := reverseBasket r.slot b s
    match b.waiter with
    | none => s
    | some w => answer w .okReversing [] s) s
  pump line (needReversal line ⟨r.payRef, r.amount, none, 0, some (r.slot, r.ref)⟩ s)

-- ## Late approvals (R102)

/-- R102: the code of a late approval is stored in the record that has none and in a doubt-list entry. -/
def storeCode (line : Fin 8) (payRef : Nat) (code : List Byte) (s : State) : State :=
  let s := setRecord line payRef (fun r => { r with code := match r.code with
    | none => some code
    | some old => some old }) s
  { s with pay := { s.pay with doubts := s.pay.doubts.map (fun d =>
      if d.payRef = payRef then { d with code := some code } else d) } }

/-- R102: an approval that commits nothing is reversed. -/
def lateApproval (line : Fin 8) (payRef : Nat) (code : List Byte) (amount : Nat) (s : State) : State :=
  pump line (needReversal line ⟨payRef, amount, some code, 0, none⟩ (storeCode line payRef code s))

-- ## Reversals (R104, R105)

/-- R104: a queued reversal is confirmed, at whatever position it stands. -/
def confirmReversal (line : Fin 8) (r : Reversal) (s : State) : State :=
  let s := s.onPayLine line (fun l => { l with
    queue := l.queue.filter (fun q => q.payRef != r.payRef)
    exchange := match l.exchange with
      | some ⟨.reversal, p, n⟩ => if p = r.payRef then none else some ⟨.reversal, p, n⟩
      | other => other })
  pump line (match s.tied r with
    | none => s
    | some (slot, b) => judgeAttempt slot b r.payRef .reversed 0 s)

/-- R105: whether a reversal with `n` attempts made has reached the limit of code `L`. -/
def reversalExhausted (L n : Nat) : Bool := L != 0 && 2 * L ≤ n

/-- R105: the reversal interval of the head expires. -/
def intervalExpired (line : Fin 8) (s : State) : State :=
  match (s.payLine line).queue with
  | [] => endExchange line s
  | r :: rest =>
    let r := { r with attempts := bump r.attempts }
    if reversalExhausted s.params.reversalLimit r.attempts then
      let s := s.onPayLine line (fun l => { l with queue := rest, exchange := none })
      pump line (dispose line r (doubtNotice line r .limit s))
    else
      pump line (s.onPayLine line (fun l => { l with queue := r :: rest, exchange := none }))

-- ## Messages by the record they name (R91, R97 to R104)

/-- A message naming a pay ref: by the line's record, or discarded where only a queued reversal holds the
pay ref, or stray. -/
def onNamed (line : Fin 8) (payRef : Nat) (f : PayRecord → State → State) (s : State) : State :=
  match (s.payLine line).record payRef with
  | some r => f r s
  | none => if ((s.payLine line).reversal payRef).isSome then s else countStray line s

-- ## Reports (R175)

/-- A payment record, every field of R93 in its order; the line is the one queried. -/
def PayRecord.bytes (line : Fin 8) (r : PayRecord) : List Byte :=
  bytes2 r.payRef ++ [lineByte (.pl line)] ++ bytes1 r.slot.val ++ bytes2 r.ref ++ amountBytes r.amount
    ++ [r.state.code] ++ [r.stage.code] ++ approvalBytes r.code ++ optionalBytes bytes1 1 r.reason

/-- A reversal record, every field of R103 in its order. -/
def Reversal.bytes (r : Reversal) : List Byte :=
  bytes2 r.payRef ++ amountBytes r.amount ++ approvalBytes r.code ++ bytes2 r.attempts
    ++ optionalBytes (fun (x : Fin 16 × Nat) => bytes1 x.1.val ++ bytes2 x.2) 3 r.basket

/-- A doubt-list entry, every field of R107 in its order. -/
def Doubt.bytes (d : Doubt) : List Byte :=
  bytes1 d.slot.val ++ bytes2 d.ref ++ [lineByte (.pl d.line)] ++ bytes2 d.payRef ++ amountBytes d.amount
    ++ approvalBytes d.code

/-- The exchange in flight: kind, pay ref and seconds left. -/
def Exchange.bytes (e : Exchange) : List Byte := [e.kind.code] ++ bytes2 e.payRef ++ bytes2 e.seconds

end Sys2Proof.Machine
end

