-- ==== Sys2Proof/Machine/SeatOps.lean ====
section
/-! DEFINITION. The seat engine's operations: the seat-state array and its counts, seat blocks and free runs,
the orphan rule, the best-block search, the arbiter, and the change of seats on both sides (chapter 3, R6). -/

namespace Sys2Proof.Machine

-- ## The seat-state array (R30, R31)

/-- A screening's seat states: one list per row, one place per position, `none` at a GAP. -/
abbrev Grid := List (List (Option SeatState))

/-- A seat by row and position, both counted from 1. -/
abbrev Seat := Nat × Nat

/-- The entry of a row and position. -/
def Grid.at (g : Grid) (x : Seat) : Option SeatState :=
  if x.1 = 0 ∨ x.2 = 0 then none else ((g[x.1 - 1]?).bind (fun row => (row[x.2 - 1]?).join))

/-- The entry of a row and position changed; a GAP has none to change. -/
def Grid.put (g : Grid) (x : Seat) (v : SeatState) : Grid :=
  if x.1 = 0 ∨ x.2 = 0 then g
  else g.modify (x.1 - 1) (fun row => row.modify (x.2 - 1) (fun o => o.map (fun _ => v)))

/-- Every entry changed by `f`. -/
def Grid.change (g : Grid) (f : SeatState → SeatState) : Grid := g.map (fun row => row.map (fun o => o.map f))

/-- The entries of the array. -/
def Grid.entries (g : Grid) : List SeatState := g.flatten.reduceOption

/-- Whether an entry is FREE. -/
def SeatState.isFree : SeatState → Bool
  | .free => true
  | _ => false

/-- Whether an entry is BLOCKED. -/
def SeatState.isBlocked : SeatState → Bool
  | .blocked => true
  | _ => false

/-- Whether an entry is HELD, by any basket. -/
def SeatState.isHeld : SeatState → Bool
  | .held _ _ => true
  | _ => false

/-- Whether an entry is SOLD. -/
def SeatState.isSold : SeatState → Bool
  | .sold _ _ => true
  | _ => false

/-- R31: the four counts of an array. -/
def Grid.counts (g : Grid) : Counts :=
  ⟨g.entries.countP SeatState.isFree, g.entries.countP SeatState.isHeld,
    g.entries.countP SeatState.isSold, g.entries.countP SeatState.isBlocked⟩

/-- R31: a screening's array replaced, its counts moved with it in the one change. -/
def Screening.withSeats (c : Screening) (g : Grid) : Screening := { c with seats := g, counts := g.counts }

/-- R8: the array of a new screening, every non-GAP cell FREE. -/
def freshGrid (rows : List (List Cell)) : Grid :=
  rows.map (fun row => row.map (fun c => match c with
    | .gap => none
    | .seat _ _ _ => some .free))

/-- The array of a screening replaced. -/
def State.putSeats (id : Nat) (g : Grid) (s : State) : State := s.onScreening id (fun c => c.withSeats g)

/-- The four counts on the wire. -/
def Counts.bytes (c : Counts) : List Byte := bytes2 c.free ++ bytes2 c.held ++ bytes2 c.sold ++ bytes2 c.blocked

-- ## Seat blocks and runs (R6, R40)

/-- The kind of a seat. -/
def kindAt (rows : List (List Cell)) (x : Seat) : Option SeatKind :=
  match cellAt rows x.1 x.2 with
  | some (.seat k _ _) => some k
  | _ => none

/-- R6: the seat blocks of a row from position `pos` on, `cur` being the block under way. -/
def blocksFrom (pos : Nat) (cur : List Nat) : List Cell → List (List Nat)
  | [] => if cur.isEmpty then [] else [cur]
  | .gap :: rest => (if cur.isEmpty then [] else [cur]) ++ blocksFrom (pos + 1) [] rest
  | .seat _ _ aisle :: rest =>
    if aisle then (cur ++ [pos]) :: blocksFrom (pos + 1) [] rest
    else blocksFrom (pos + 1) (cur ++ [pos]) rest

/-- R6: the seat blocks of a row, each as its positions. -/
def rowBlocks (cells : List Cell) : List (List Nat) := blocksFrom 1 [] cells

/-- The maximal runs of positions for which `p` holds. -/
def runsFrom (p : Nat → Bool) (cur : List Nat) : List Nat → List (List Nat)
  | [] => if cur.isEmpty then [] else [cur]
  | x :: rest =>
    if p x then runsFrom p (cur ++ [x]) rest
    else (if cur.isEmpty then [] else [cur]) ++ runsFrom p [] rest

/-- The runs inside a block. -/
def blockRuns (p : Nat → Bool) (block : List Nat) : List (List Nat) := runsFrom p [] block

/-- R40, in one row: after the hold some block has a FREE run of exactly one seat that lay, before it, inside
a FREE run of two or more. -/
def strands (cells : List Cell) (before after : Nat → Bool) : Bool :=
  (rowBlocks cells).any (fun b =>
    (blockRuns after b).any (fun r =>
      r.length == 1 && (blockRuns before b).any (fun q => 2 ≤ q.length && r.all (fun x => q.contains x))))

/-- A row of a plan, counted from 1. -/
def rowCells (rows : List (List Cell)) (r : Nat) : List Cell :=
  if r = 0 then [] else (rows[r - 1]?).getD []

/-- Whether a seat is FREE. -/
def Grid.freeAt (g : Grid) (x : Seat) : Bool := g.at x == some .free

/-- R40: holding the listed seats would leave a single seat stranded in one of their rows. -/
def orphaned (rows : List (List Cell)) (g : Grid) (seats : List Seat) : Bool :=
  (seats.map Prod.fst).dedup.any (fun r =>
    strands (rowCells rows r) (fun p => g.freeAt (r, p))
      (fun p => g.freeAt (r, p) && !seats.contains (r, p)))

/-- R40: whether the orphan rule applies to a requester's hold. -/
def orphanApplies (h : PlanHeader) (who : Owner) (override : Bool) : Bool :=
  h.orphanRule && match who with
    | .station _ => true
    | .office => !override

-- ## The best-block search (R41 to R43)

/-- Whether a cell is FREE, of kind NORMAL and in the zone asked for. -/
def searchable (rows : List (List Cell)) (g : Grid) (zone : Option Zone) (x : Seat) : Bool :=
  g.freeAt x && match cellAt rows x.1 x.2 with
    | some (.seat .normal z _) => zone.all (fun w => w == z)
    | _ => false

/-- The positions of a run. -/
def runSeats (r f n : Nat) : List Seat := (List.range n).map (fun k => (r, f + k))

/-- R41: the first positions, within a block, of the candidates of row `r`. -/
def blockCandidates (rows : List (List Cell)) (g : Grid) (zone : Option Zone) (rule : Bool) (n r : Nat)
    (block : List Nat) : List Nat :=
  block.filter (fun f =>
    (runSeats r f n).all (fun x => block.contains x.2 && searchable rows g zone x)
      && !(rule && orphaned rows g (runSeats r f n)))

/-- R41: the candidates of the whole array, by row and then by first position. -/
def candidates (rows : List (List Cell)) (g : Grid) (zone : Option Zone) (rule : Bool) (n : Nat) :
    List Seat :=
  (List.range rows.length).flatMap (fun i =>
    (rowBlocks (rowCells rows (i + 1))).flatMap (fun b =>
      (blockCandidates rows g zone rule n (i + 1) b).map (fun f => (i + 1, f))))

/-- R42: the score of a candidate. -/
def score (h : PlanHeader) (n : Nat) (x : Seat) : Nat :=
  4 * absDiff x.1 h.bestRow + absDiff (2 * x.2 + n - 1) h.bestCentre

/-- R42: the first of the candidates with the lowest score. -/
def bestOf (f : Seat → Nat) : List Seat → Option Seat
  | [] => none
  | x :: rest =>
    match bestOf f rest with
    | none => some x
    | some y => if f x ≤ f y then some x else some y

/-- R43: the longest run of FREE NORMAL cells in the filter zone within one seat block. -/
def longestRun (rows : List (List Cell)) (g : Grid) (zone : Option Zone) : Nat :=
  ((List.range rows.length).flatMap (fun i =>
    (rowBlocks (rowCells rows (i + 1))).flatMap (fun b =>
      (blockRuns (fun p => searchable rows g zone (i + 1, p)) b).map List.length))).foldl max 0

-- ## The arbiter (R34, R35)

/-- A requester's place in the ring. -/
def Owner.ring : Owner → Fin 9
  | .station n => ⟨n.val, by omega⟩
  | .office => 8

/-- Who placed an entry; none for an internal entry. -/
def Entry.requester : Entry → Option (Fin 9)
  | .request who _ _ => some who.ring
  | .restore _ _ => some 8
  | _ => none

/-- The requesters in ring order, from the one after the pointer. -/
def ringFrom (p : Fin 9) : List (Fin 9) := (indices 9).map (fun k => p + 1 + k)

/-- R35: the requester served next from a level. -/
def Engine.nextOf (e : Engine) (level : Level) (p : Fin 9) : Option (Fin 9) :=
  (ringFrom p).find? (fun r => e.levels.get r == level && e.queue.any (fun x => x.requester == some r))

/-- The oldest entry that `p` names, and the queue without it. -/
def Engine.pull (e : Engine) (p : Entry → Bool) : Option (Entry × List Entry) :=
  match e.queue.findIdx? p with
  | none => none
  | some i => (e.queue[i]?).map (fun x => (x, e.queue.eraseIdx i))

/-- R34: the entry the arbiter takes, and the engine after it. -/
def Engine.take (e : Engine) : Option (Entry × Engine) :=
  match e.pull (fun x => x.requester.isNone) with
  | some (x, q) => some (x, { e with queue := q })
  | none =>
    match e.nextOf .high e.highPointer with
    | some r => (e.pull (fun x => x.requester == some r)).map
        (fun (x, q) => (x, { e with queue := q, highPointer := r }))
    | none =>
      match e.nextOf .low e.lowPointer with
      | some r => (e.pull (fun x => x.requester == some r)).map
          (fun (x, q) => (x, { e with queue := q, lowPointer := r }))
      | none => none

/-- R33, R34: a step of the arbiter. It happens when the engine is idle and the entry taken is one that `run`
carries out; otherwise there is no such step and nothing changes (log entry 11). -/
def arbitrate (run : Entry → Option (State → State)) (s : State) : State :=
  if s.engine.search.isSome then s
  else
    match s.engine.take with
    | none => s
    | some (x, e) =>
      match run x with
      | none => s
      | some f => f { s with engine := e }

-- ## Changing seats and seat lines together (R32, R38, R60)

/-- R38: seats become HELD by a basket, and their lines are appended in order. -/
def holdFor (slot : Fin 16) (b : Basket) (c : Screening) (lines : List SeatLine) (s : State) : State :=
  let g := lines.foldl (fun g l => Grid.put g (l.row, l.pos) (.held slot.val b.ref)) c.seats
  (s.putSeats c.id g).putBasket slot { b with lines := b.lines ++ lines }

/-- R44: seats become FREE, and their lines leave the basket. -/
def releaseFor (slot : Fin 16) (b : Basket) (c : Screening) (seats : List Seat) (s : State) : State :=
  let g := seats.foldl (fun g x => Grid.put g x .free) c.seats
  (s.putSeats c.id g).putBasket slot
    { b with lines := b.lines.filter (fun l => !seats.contains (l.row, l.pos)) }

/-- R50: every seat HELD with a slot and ref becomes FREE. -/
def Grid.freeHeld (g : Grid) (slot ref : Nat) : Grid :=
  g.change (fun x => if x = .held slot ref then .free else x)

/-- How many seats a slot and ref hold. -/
def Grid.heldBy (g : Grid) (slot ref : Nat) : Nat := g.entries.countP (fun x => x == .held slot ref)

/-- R52: every seat SOLD with a sale number becomes FREE. -/
def Grid.freeSold (g : Grid) (sale : Nat) : Grid :=
  g.change (fun x => match x with
    | .sold n i => if n = sale then .free else .sold n i
    | other => other)

/-- R51, R53: the seats become SOLD, each with its place in the list. -/
def Grid.sell (g : Grid) (sale : Nat) (seats : List Seat) : Grid :=
  seats.zipIdx.foldl (fun g x => Grid.put g x.1 (.sold sale x.2)) g

/-- R47, R48: the entries in state `source` among the listed seats become `target`. -/
def Grid.flip (g : Grid) (source target : SeatState) (seats : List Seat) : Grid :=
  seats.foldl (fun g x => if g.at x = some source then Grid.put g x target else g) g

-- ## The seat map (R49, section 12.5)

/-- The symbol of a place, to the office or to a kiosk. -/
def mapSymbol (office : Bool) (o : Option SeatState) : Nat :=
  match office, o with
  | true, some .free => 0
  | true, some (.held _ _) => 1
  | true, some (.sold _ _) => 2
  | true, some .blocked => 3
  | true, none => 3
  | false, some .free => 0
  | false, some (.held _ _) => 1
  | false, some (.sold _ _) => 1
  | false, some .blocked => 2
  | false, none => 3

/-- Symbols packed four to a byte, the first in bits 7–6, `fuel` bytes at most. -/
def packSymbols : Nat → List Nat → List Byte
  | 0, _ => []
  | _ + 1, [] => []
  | fuel + 1, xs =>
    let y (i : Nat) := xs.getD i 0
    BitVec.ofNat 8 (64 * y 0 + 16 * y 1 + 4 * y 2 + y 3) :: packSymbols fuel (xs.drop 4)

/-- The QUERY_MAP answer's fields. -/
def mapBytes (office : Bool) (h : PlanHeader) (g : Grid) (first last : Nat) : List Byte :=
  bytes1 h.positions ++ bytes1 first ++ bytes1 (last + 1 - first)
    ++ ((g.drop (first - 1)).take (last + 1 - first)).flatMap
        (fun row => packSymbols row.length (row.map (mapSymbol office)))

-- ## What a screening admits (R9)

/-- R9: whether a requester may open a basket on a screening. -/
def Screening.opensFor (c : Screening) (who : Owner) : Bool :=
  match who, c.state with
  | .office, .loaded => true
  | .office, .onSale => true
  | .station _, .onSale => c.kioskSales
  | _, _ => false

/-- R9: whether a basket of an owner may take new holds; no station basket can exist in LOADED. -/
def Screening.holdsFor (c : Screening) (who : Owner) : Bool :=
  match who, c.state with
  | .office, .loaded => true
  | _, .onSale => true
  | _, _ => false

end Sys2Proof.Machine
end

