-- ==== Sys2Proof/Machine/ClockOps.lean ====
section
/-! DEFINITION. The show clock's operations: minute checks and what they do in three blocks, setting the clock,
the minute pulse, and the second tick at every countdown (chapter 2). -/

namespace Sys2Proof.Machine

-- ## Minute checks (R12, R24, R82, R133)

/-- R8, R12: the clock value at which a screening closes. -/
def Screening.closeTime (c : Screening) : Nat := (c.start + c.late) * 60

/-- R12: whether a minute check for `v` closes a screening. -/
def Screening.closesAt (c : Screening) (v : Nat) : Bool := c.state != .closed && c.closeTime ≤ v

/-- SCREENING_CLOSED: the id and the four counts. -/
def screeningClosed (c : Screening) (s : State) : State :=
  notifyOffice 0xE7 (bytes2 c.id ++ c.counts.bytes) s

/-- R82: whether a minute check for `v` attempts an activation. -/
def State.pricesDue (s : State) (v : Nat) : Bool :=
  match s.prices.mode with
  | .atMinute t => s.prices.staged.state == .complete && t * 60 ≤ v
  | _ => false

/-- R24: one minute check, for `v`: screenings close, vouchers lapse, a timed price set is activated. The
order of the notices it sends is open (log entry 5). -/
def minuteCheck (v : Nat) (s : State) : State :=
  let closing := s.screenings.filter (fun c => c.closesAt v)
  let s := { s with screenings := s.screenings.map (fun c =>
    if c.closesAt v then { c with state := .closed } else c) }
  let s := minuteVouchers v s
  let acts : List (State → State) :=
    closing.map screeningClosed ++ (if s.pricesDue v then [minutePrices v] else [])
  (s.arranged acts).foldl (fun s f => f s) (s.spend acts.length)

-- ## The clock value (R19, R20, R23)

/-- V becomes `v`; the fraction is 0 where the clock stops. -/
def putClock (v : Nat) (s : State) : State :=
  { s with clock := { s.clock with
      value := v, fraction := if v = Config.clockEnd then 0 else s.clock.fraction } }

/-- A move of the clock to `v`, with the one minute check it brings when the minute rises (R24). -/
def moveClock (v : Nat) (s : State) : State :=
  let check := s.clock.isSet && decide (s.clock.value / 60 < v / 60)
  let s := putClock v s
  if check then minuteCheck v s else s

/-- Whether the clock runs (R19, R20). -/
def State.clockRuns (s : State) : Bool := s.clock.value < Config.clockEnd

/-- R19: a clock second: F returns to 0 and V advances by one. -/
def clockSecond (s : State) : State :=
  if s.clockRuns then
    let s := { s with clock := { s.clock with fraction := 0 } }
    moveClock (s.clock.value + 1) s
  else s

-- ## The minute pulse (R25 to R27)

/-- R25: the clock reading in milliseconds. -/
def Clock.reading (c : Clock) : Nat := 1000 * c.value + c.fraction

/-- R25: the nearest whole minute to a reading, in milliseconds. -/
def nearestMinute (r : Nat) : Nat := (r + 30000) / 60000 * 60000

/-- R25: the deviation of a reading. -/
def deviationOf (r : Nat) : Int := (r : Int) - (nearestMinute r : Int)

/-- R27: an alignment onto the nearest minute, not made at the end of the day. -/
def align (s : State) : State :=
  let n := nearestMinute s.clock.reading
  if n = 172800000 ∨ n = s.clock.reading then s
  else
    let s' := moveClock (n / 1000) s
    { s' with clock := { s'.clock with fraction := 0 } }

/-- R25 to R28: a pulse. -/
def takePulse (s : State) : State :=
  if s.clock.sync = .off then s
  else
    let s := { s with clock := { s.clock with
      pulses := bump s.clock.pulses, noPulse := .running Config.noPulseTime } }
    if s.clockRuns then
      let d := deviationOf s.clock.reading
      let s := { s with clock := { s.clock with deviation := some d } }
      match s.clock.sync with
      | .track => if d.natAbs ≤ s.params.jitterWindow then align s else s
      | .once =>
        let s := align s
        { s with clock := { s.clock with sync := .watch } }
      | _ => s
    else { s with clock := { s.clock with deviation := none } }

-- ## The second tick (R17, R18, R69)

/-- HOLD_WARNING: slot, ref, seconds remaining, whether EXTEND is open. -/
def holdWarning (slot : Fin 16) (b : Basket) (s : State) : State :=
  notifyOwner b.owner 0xE2 (bytes1 slot.val ++ bytes2 b.ref ++ bytes2 b.hold.seconds
    ++ flagByte (!b.extensionUsed)) s

/-- A basket's hold countdown one second on. -/
def Basket.ticked (b : Basket) : Basket :=
  match b.hold with
  | .running n => { b with hold := .running (n - 1) }
  | _ => b

/-- R69: whether a basket is to be warned after a tick. -/
def Basket.warned (b : Basket) (lead : Nat) : Bool :=
  match b.hold with
  | .running n => n ≤ lead && 0 < n && !b.warningSent
  | _ => false

/-- The tick at the basket unit; the order of the warnings of several baskets is open (log entry 5). -/
def tickBaskets (s : State) : State :=
  let s := { s with baskets := s.baskets.map (fun b => b.map Basket.ticked) }
  let warned := s.liveBaskets.filter (fun x => x.2.warned s.params.warningLead)
  let order := s.arranged warned
  order.foldl (fun s x => holdWarning x.1 x.2 (s.putBasket x.1 { x.2 with warningSent := true }))
    (s.spend warned.length)

/-- The tick at the payment unit (R96, R104). -/
def tickPay (s : State) : State :=
  { s with pay := { s.pay with lines := s.pay.lines.map (fun l =>
      { l with exchange := l.exchange.map (fun e => { e with seconds := e.seconds - 1 }) }) } }

/-- The tick at the sale table: quotes not yet taken, and reprint windows (R119, R110). -/
def tickSales (s : State) : State :=
  { s with sales := { s.sales with
      records := s.sales.records.map (fun r => { r with
        quote := r.quote.map (fun q => if q.taken.isNone then { q with seconds := q.seconds - 1 } else q) })
      last := s.sales.last.map (fun l => l.map (fun l => { l with seconds := l.seconds - 1 })) } }

/-- The tick at the print controller: rests (R149). -/
def tickPrint (s : State) : State :=
  { s with print := { s.print with
      lines := s.print.lines.map (fun l => { l with rest := l.rest.map (fun n => n - 1) }) } }

/-- The tick at the show clock: the no-pulse countdown (R28). -/
def tickClock (s : State) : State :=
  { s with clock := { s.clock with noPulse := match s.clock.noPulse with
    | .running n => .running (n - 1)
    | other => other } }

/-- R17: a second tick reaches every countdown that runs. -/
def secondTick (s : State) : State := tickBaskets (tickClock (tickPrint (tickSales (tickPay s))))

end Sys2Proof.Machine
end

