-- ==== Sys2Proof/Machine/Flags.lean ====
section
/-! DEFINITION. The ten alarm flags: the condition of each as its block defines it, computed from that
block's records, and the latching of R171 and R172. -/

namespace Sys2Proof.Machine

/-- The magnitude of a deviation. -/
def magnitude (d : Int) : Nat := d.natAbs

/-- R26: the last deviation is present and its magnitude exceeds the jitter window in force. -/
def State.jitterHolds (s : State) : Bool :=
  match s.clock.deviation with
  | none => false
  | some d => s.params.jitterWindow < magnitude d

/-- R138: a kind is low when its allotment is above 0 and its available count at or below its low mark. -/
def Stock.isLow (k : Stock) : Bool := 0 < k.allotment && k.available ≤ k.lowMark

/-- The conditions of the table of chapter 11, in its order. -/
def State.conditions (s : State) : List Bool :=
  [ s.jitterHolds,
    s.clock.noPulse == .expired,
    s.clock.value == Config.clockEnd,
    s.print.lines.list.any (fun l => l.capture.isSome),
    s.print.lines.list.any (fun l => l.status == .paperLow),
    !s.pay.doubts.isEmpty,
    s.pay.lines.list.any (fun l => l.queue.length == Config.maxReversals),
    s.vouchers.stock.list.any Stock.isLow,
    s.print.waiting.length == Config.maxWaiting,
    s.ifc.lines.list.any (fun l => 100 < l.badFrames) ]

/-- Whether the condition of flag `i` holds. -/
def State.condition (s : State) (i : Fin 10) : Bool := s.conditions.getD i.val false

/-- The flags that must latch now: clear, with their condition holding (R171). -/
def State.arising (s : State) : List (Fin 10) :=
  (indices 10).filter (fun i => s.condition i && !s.alarms.latched.get i)

/-- R172: the ALARM_NOTICE of a flag: the flag, the set latched after the event, the conditions that hold. -/
def alarmNotice (i : Fin 10) (s : State) : State :=
  notifyOffice 0xEC (number1 i ++ flagSetBytes s.alarms.latched.list ++ flagSetBytes s.conditions) s

/-- R172: each flag of the list that is enabled sends its notice. -/
def alarmNotices (flags : List (Fin 10)) (s : State) : State :=
  flags.foldl (fun s i => if s.alarms.enabled.get i then alarmNotice i s else s) s

/-- The named flags latched. -/
def setLatched (flags : List (Fin 10)) (s : State) : State :=
  { s with alarms := { s.alarms with
      latched := flags.foldl (fun t i => t.set i true) s.alarms.latched } }

/-- R171, R172: after an event, each clear flag whose condition holds latches, and the enabled ones among
them send one ALARM_NOTICE each, in either order (log entry 5). -/
def latchAlarms (s : State) : State :=
  match s.arising with
  | [] => s
  | flags => alarmNotices (s.arranged flags) ((setLatched flags s).spend flags.length)

end Sys2Proof.Machine
end

