-- ==== Sys2Proof/Machine/Events.lean ====
section
/-! DEFINITION. The events the part brings about itself: expiries of countdowns (R18), bad frames (R159) and
the reset of RESTART (R170). Each is due when its record says so, is carried out by its own command or, at the
latest, before the next command (log entry 12), and does nothing when it is not due. Then the three forms of a
meaning: an event, a command of the outside, and a request. -/

namespace Sys2Proof.Machine

-- ## Resets (R170)

/-- The causes a START_NOTICE carries, numbered from 1 in R170's order. -/
inductive StartCause where
  | powerOn
  | pin
  | restart
deriving DecidableEq, Repr

/-- The number of a cause. -/
def StartCause.code : StartCause → Byte
  | .powerOn => 1
  | .pin => 2
  | .restart => 3

/-- R170: every block as after any reset, then one START_NOTICE. The commands still waiting are the outside's
and stay, and the count of free choices goes on, so that no two of them are one (log entries 1 and 5). -/
def resetPart (cause : StartCause) (s : State) : State :=
  notifyOffice 0xE0 [cause.code] { State.reset with pending := s.pending, choice := s.choice }

-- ## The expiries

/-- R70: a running hold countdown stands at 0. -/
def Basket.expired (b : Basket) : Bool := b.hold == .running 0

/-- R70: the basket of a slot expires. -/
def expireHold (slot : Fin 16) (s : State) : State :=
  match s.baskets.get slot with
  | none => s
  | some b => if b.expired then endBasket slot b .expired s else s

/-- The exchange of a pay line whose countdown stands at 0, with its attempt's record (R96). -/
def State.waitOver (s : State) (line : Fin 8) : Option (Exchange × PayRecord) :=
  match (s.payLine line).exchange with
  | none => none
  | some e =>
    if e.seconds = 0 ∧ e.kind ≠ .reversal then ((s.payLine line).record e.payRef).map (fun r => (e, r)) else none

/-- The accept wait of a line stands at 0: its record is SENT, or ABORTING (R96). -/
def State.acceptOver (s : State) (line : Fin 8) : Bool :=
  (s.waitOver line).any (fun x => x.2.state != .accepted)

/-- The authorization wait of a line stands at 0: its record is ACCEPTED (R96). -/
def State.authorizationOver (s : State) (line : Fin 8) : Bool :=
  (s.waitOver line).any (fun x => x.2.state == .accepted)

/-- The reversal interval of a line stands at 0 (R105). -/
def State.intervalOver (s : State) (line : Fin 8) : Bool :=
  (s.payLine line).exchange.any (fun e => e.kind == .reversal && e.seconds == 0)

/-- R100, R101: the accept wait of a line expires. -/
def expireAccept (line : Fin 8) (s : State) : State :=
  match s.waitOver line with
  | none => s
  | some (e, r) =>
    if r.state = .accepted then s
    else if e.kind = .abort then silentAbort line r s
    else timeOut line r s

/-- R100: the authorization wait of a line expires. -/
def expireAuthorization (line : Fin 8) (s : State) : State :=
  match s.waitOver line with
  | none => s
  | some (_, r) => if r.state = .accepted then timeOut line r s else s

/-- R105: the reversal interval of a line expires. -/
def expireInterval (line : Fin 8) (s : State) : State :=
  if s.intervalOver line then intervalExpired line s else s

/-- R121: a quote not taken stands at 0. -/
def Sale.quoteOver (r : Sale) : Bool := r.quote.any (fun q => q.taken.isNone && q.seconds == 0)

/-- R121: a sale's quote expires. -/
def expireSaleQuote (n : Nat) (s : State) : State :=
  match s.sale n with
  | none => s
  | some r => if r.quoteOver then expireQuote r s else s

/-- R110: a station's reprint window stands at 0. -/
def State.windowOver (s : State) (station : Fin 8) : Bool :=
  (s.sales.last.get station).any (fun l => l.seconds == 0)

/-- R110: the expiry of a reprint window removes the last sale. -/
def expireWindow (station : Fin 8) (s : State) : State :=
  if s.windowOver station then
    { s with sales := { s.sales with last := s.sales.last.set station none } }
  else s

/-- R149: a line's rest stands at 0. -/
def State.restOver (s : State) (line : Fin 8) : Bool :=
  (s.ticketLine line).state == .resting && (s.ticketLine line).rest == some 0

/-- R149: a rest ends. -/
def expireRest (line : Fin 8) (s : State) : State := if s.restOver line then leaveRest line s else s

/-- R28: the no-pulse countdown expires: it stands at zero, and the last deviation is NONE. -/
def expireNoPulse (s : State) : State :=
  if s.clock.noPulse = .running 0 then
    { s with clock := { s.clock with noPulse := .expired, deviation := none } }
  else s

/-- R159: a line's receiver stands over a frame found bad. -/
def LineState.isBad (l : LineState) : Bool :=
  match l.receiver with
  | .hunting => false
  | .assembling bytes => frameStatus bytes == .bad

/-- R159, R160: a bad frame is discarded whole and counted, and the receiver hunts again. -/
def discardFrame (l : Line) (s : State) : State :=
  s.onLine l (fun r => { r with receiver := .hunting, badFrames := bump r.badFrames })

/-- A bad frame on a line is judged. -/
def expireFrame (l : Line) (s : State) : State := if (s.line l).isBad then discardFrame l s else s

/-- R170: the reset of RESTART, once its answer has been sent whole. -/
def expireRestart (s : State) : State := if s.ifc.restart = .due then resetPart .restart s else s

-- ## What is due

/-- The events the part brings about. -/
inductive Event where
  | frame (l : Line)
  | noPulse
  | hold (slot : Fin 16)
  | accept (line : Fin 8)
  | authorization (line : Fin 8)
  | interval (line : Fin 8)
  | quote (sale : Nat)
  | window (station : Fin 8)
  | rest (line : Fin 8)
deriving DecidableEq, Repr

/-- The 29 lines in the order KL, PL, TL, CL, OL of section 12.2; the answer to CLEAR_FRAME_COUNT ALL lists its counts
so (DESIGN CHOICE, log entry 15). -/
def allLines : List Line :=
  (indices 8).map Line.kl ++ (indices 8).map Line.pl ++ (indices 8).map Line.tl
    ++ (indices 4).map Line.cl ++ [Line.ol]

/-- The events that are due. -/
def State.due (s : State) : List Event :=
  (allLines.filter (fun l => (s.line l).isBad)).map .frame
    ++ (if s.clock.noPulse = .running 0 then [.noPulse] else [])
    ++ ((s.liveBaskets.filter (fun x => x.2.expired)).map (fun x => .hold x.1))
    ++ ((indices 8).filter s.acceptOver).map .accept
    ++ ((indices 8).filter s.authorizationOver).map .authorization
    ++ ((indices 8).filter s.intervalOver).map .interval
    ++ (s.sales.records.filter Sale.quoteOver).map (fun r => .quote r.number)
    ++ ((indices 8).filter s.windowOver).map .window
    ++ ((indices 8).filter s.restOver).map .rest

/-- An event carried out, if it is due. -/
def carryOut : Event → State → State
  | .frame l => expireFrame l
  | .noPulse => expireNoPulse
  | .hold slot => expireHold slot
  | .accept line => expireAccept line
  | .authorization line => expireAuthorization line
  | .interval line => expireInterval line
  | .quote n => expireSaleQuote n
  | .window station => expireWindow station
  | .rest line => expireRest line

/-- R18, R70: what is due comes before the next command; several events that are due together come in an
order the manual leaves open (log entries 5 and 12). -/
def State.settle (s : State) : State :=
  if s.ifc.restart = .due then resetPart .restart s
  else
    match s.due with
    | [] => s
    | events => (s.arranged events).foldl (fun s e => latchAlarms (carryOut e s)) (s.spend events.length)

/-- Nothing is due: no event, and no reset. -/
def State.quiet (s : State) : Bool := s.ifc.restart != .due && s.due.isEmpty

-- ## The forms of a meaning

/-- A command that is itself an event of the part. -/
def event (f : State → State) (s : State) : Host.Outcome State Fault Refusal := .next (latchAlarms (f s))

/-- A command of the outside that is no request. -/
def command (f : State → State) (s : State) : Host.Outcome State Fault Refusal :=
  .next (latchAlarms (f s.settle))

/-- A message of a pay line or a ticket line. -/
def message (l : Line) (i : Instr) (f : State → State) (s : State) : Host.Outcome State Fault Refusal :=
  command (fun s => f (takeMessage l i s)) s

/-- A request: it is judged, answered at once or handed to its block (R162, R163, R177). -/
def request (i : Instr) (src : Link) (tag kind : Byte) (fieldsOk : Bool)
    (run : Requester → Reply → State → State) (s : State) : Host.Outcome State Fault Refusal :=
  command (fun s => hear src tag kind i.wellFormed fieldsOk run (takeMessage src.line i s)) s

end Sys2Proof.Machine
end

