-- ==== Sys2Proof/Machine/Baskets.lean ====
section
/-! DEFINITION. Meanings: the basket requests (R58 to R67, R95, R101, R116, R174). -/

namespace Sys2Proof.Machine

-- ## The checks every request naming a basket passes first (R58)

/-- R58: the live basket a requester's request names, not in ENDING. -/
def State.owned (s : State) (who : Requester) (slot : Byte) (ref : BitVec 16) :
    Option (Owner × Fin 16 × Basket) :=
  match who.owner, readSlot slot with
  | some o, some i =>
    match s.basket i ref.toNat with
    | none => none
    | some b => if b.owner = o ∧ b.state ≠ .ending then some (o, i, b) else none
  | _, _ => none

/-- A request naming a basket: NO_SUCH unless the checks of R58 pass. -/
def onOwned (who : Requester) (r : Reply) (slot : Byte) (ref : BitVec 16)
    (f : Owner → Fin 16 → Basket → State → State) (s : State) : State :=
  match s.owned who slot ref with
  | none => answer r .noSuch [] s
  | some (o, i, b) => f o i b s

-- ## OPEN_BASKET (R55, R59)

/-- R55: the ref of the next basket. -/
def State.freeRef (s : State) : Nat :=
  firstFree (fun n => s.liveBaskets.any (fun x => x.2.ref == n)) (wrapSucc 65535) 17 s.nextBasketRef

/-- R68: the hold time for an owner's kind. -/
def State.holdTime (s : State) : Owner → Nat
  | .station _ => s.params.stationHold
  | .office => s.params.officeHold

/-- The live baskets of an owner. -/
def State.basketsOf (s : State) (o : Owner) : List (Fin 16 × Basket) :=
  s.liveBaskets.filter (fun x => x.2.owner == o)

/-- Check 4 of R59: the owner's limit, one for a station and eight for the office; the figure of LIMIT. -/
def State.atLimit (s : State) (o : Owner) : Option (List Byte) :=
  match o, s.basketsOf o with
  | .station _, x :: _ => some (bytes1 x.1.val ++ bytes2 x.2.ref)
  | .station _, [] => none
  | .office, xs => if 8 ≤ xs.length then some [] else none

/-- R59: the record OPEN_BASKET creates. -/
def newBasket (ref : Nat) (o : Owner) (screening generation hold : Nat) : Basket :=
  { ref := ref, owner := o, screening := screening, lines := [], vouchers := [], generation := generation
    tally := none, state := .opened, endReason := none, hold := .running hold, extensionUsed := false
    warningSent := false, attempts := 0, reserved := false, payRef := none, waiter := none }

/-- OPEN_BASKET carried out (R59). -/
def runOpenBasket (o : Owner) (r : Reply) (id : Nat) (s : State) : State :=
  if id = 0 then answer r .badRequest [] s
  else
    match s.screening id with
    | none => answer r .noSuch [] s
    | some c =>
      if !c.opensFor o then answer r .closed [] s
      else
        match s.atLimit o, s.prices.active, (indices 16).find? (fun i => (s.baskets.get i).isNone) with
        | some figure, _, _ => answer r .limit figure s
        | none, none, _ => answer r .noPrices [] s
        | none, some _, none => answer r .limit [] s
        | none, some k, some slot =>
          let ref := s.freeRef
          let hold := s.holdTime o
          let s := countBasket (s.putBasket slot (newBasket ref o id k.generation hold))
          answer r .ok (bytes1 slot.val ++ bytes2 ref ++ bytes1 k.generation ++ bytes2 hold)
            { s with nextBasketRef := wrapSucc 65535 ref }

/-- OPEN_BASKET (R59). -/
def execOpenBasket (src : Link) (tag : Byte) (id : BitVec 16) (s : State) : Host.Outcome State Fault Refusal :=
  request (.openBasket src tag id) src tag 0x18 true (fun who r s =>
    match who.owner with
    | none => answer r .notAllowed [] s
    | some o => runOpenBasket o r id.toNat s) s

-- ## ADD_VOUCHER and DROP_VOUCHER (R61, R62)

/-- A quantity of 1–8. -/
def readQuantity (b : Byte) : Option Nat := if 1 ≤ b.toNat ∧ b.toNat ≤ 8 then some b.toNat else none

/-- Check 3 of R61: the kind is offered in a generation. -/
def State.offered (s : State) (generation : Nat) (kind : Fin 8) : Bool :=
  (s.prices.bank generation).any (fun k => (k.set.combos.get kind).offered)

/-- R61: the voucher lines with a quantity of a kind added. -/
def addLine (kind : Fin 8) (q : Nat) (lines : List VoucherLine) : List VoucherLine :=
  if lines.any (fun l => l.kind == kind) then
    lines.map (fun l => if l.kind = kind then { l with quantity := l.quantity + q } else l)
  else lines ++ [⟨kind, q⟩]

/-- R62: the voucher lines with a quantity of a kind dropped; a line brought to 0 goes. -/
def dropLine (kind : Fin 8) (q : Nat) (lines : List VoucherLine) : List VoucherLine :=
  (lines.map (fun l => if l.kind = kind then { l with quantity := l.quantity - q } else l)).filter
    (fun l => l.quantity != 0)

/-- ADD_VOUCHER (R61). -/
def execAddVoucher (src : Link) (tag : Byte) (slot : Byte) (ref : BitVec 16) (kind quantity : Byte)
    (s : State) : Host.Outcome State Fault Refusal :=
  request (.addVoucher src tag slot ref kind quantity) src tag 0x19 true (fun who r s =>
    onOwned who r slot ref (fun _ i b s =>
      match readKind kind, readQuantity quantity with
      | some k, some q =>
        let available := (s.vouchers.stock.get k).available
        if b.state ≠ .opened then answer r .wrongState [] s
        else if !s.offered b.generation k then answer r .notAllowed [] s
        else if 8 < quantityOf b.vouchers + q
            ∨ (!b.vouchers.any (fun l => l.kind == k) ∧ 4 ≤ b.vouchers.length) then answer r .limit [] s
        else if available < q then answer r .noStock (bytes2 available) s
        else
          let lines := addLine k q b.vouchers
          answer r .ok (listBytes VoucherLine.bytes lines)
            (moveStock k .available .inBaskets q (s.putBasket i { b with vouchers := lines }))
      | _, _ => answer r .badRequest [] s) s) s

/-- DROP_VOUCHER (R62). -/
def execDropVoucher (src : Link) (tag : Byte) (slot : Byte) (ref : BitVec 16) (kind quantity : Byte)
    (s : State) : Host.Outcome State Fault Refusal :=
  request (.dropVoucher src tag slot ref kind quantity) src tag 0x1A true (fun who r s =>
    onOwned who r slot ref (fun _ i b s =>
      match readKind kind, readQuantity quantity with
      | some k, some q =>
        if b.state ≠ .opened then answer r .wrongState [] s
        else
          match b.vouchers.find? (fun l => l.kind == k) with
          | none => answer r .noSuch [] s
          | some l =>
            if l.quantity < q then answer r .badRequest [] s
            else
              let lines := dropLine k q b.vouchers
              answer r .ok (listBytes VoucherLine.bytes lines)
                (moveStock k .inBaskets .available q (s.putBasket i { b with vouchers := lines }))
      | _, _ => answer r .badRequest [] s) s) s

-- ## TALLY and REOPEN (R63, R64)

/-- R86: the tally of a basket's lines, from the records as they stand; none where no bank holds its
generation or its screening is not live, which R76 and R14 rule out. -/
def State.tallyOf (s : State) (b : Basket) : Option Tally :=
  match s.prices.bank b.generation, s.screening b.screening with
  | some k, some c =>
    (s.plan c.plan).map (fun p => computeTally b.generation k.set p.2 c.cls c.matinee b.lines b.vouchers)
  | _, _ => none

/-- R63: the tally stored, its line prices written into the seat lines. -/
def Basket.tallied (b : Basket) (t : Tally) : Basket :=
  { b with tally := some t, state := .tallied
           lines := (b.lines.zip t.prices).map (fun x => { x.1 with price := some x.2 }) }

/-- TALLY (R63). -/
def execTally (src : Link) (tag : Byte) (slot : Byte) (ref : BitVec 16) (s : State) :
    Host.Outcome State Fault Refusal :=
  request (.tally src tag slot ref) src tag 0x1B true (fun who r s =>
    onOwned who r slot ref (fun _ i b s =>
      match b.state, b.tally with
      | .tallied, some t => answer r .ok t.bytes s
      | .opened, _ =>
        if b.lines = [] then answer r .empty [] s
        else
          match s.tallyOf b with
          | none => answer r .noPrices [] s
          | some t => answer r .ok t.bytes (s.putBasket i (b.tallied t))
      | _, _ => answer r .wrongState [] s) s) s

/-- R64: the tally discarded, the line prices removed. -/
def Basket.reopened (b : Basket) : Basket :=
  { b with tally := none, state := .opened, lines := b.lines.map (fun l => { l with price := none }) }

/-- REOPEN (R64). -/
def execReopen (src : Link) (tag : Byte) (slot : Byte) (ref : BitVec 16) (s : State) :
    Host.Outcome State Fault Refusal :=
  request (.reopen src tag slot ref) src tag 0x1C true (fun who r s =>
    onOwned who r slot ref (fun _ i b s =>
      match b.state with
      | .opened => answer r .ok [] s
      | .tallied => answer r .ok [] (s.putBasket i b.reopened)
      | _ => answer r .wrongState [] s) s) s

-- ## EXTEND and CANCEL (R66, R67, R101)

/-- R66: the highest a hold countdown may be extended to. -/
def holdCap : Owner → Nat
  | .station _ => 900
  | .office => 3600

/-- R66: a basket's hold extended. -/
def Basket.extended (b : Basket) (extension lead : Nat) : Basket :=
  let n := min (b.hold.seconds + extension) (holdCap b.owner)
  { b with hold := .running n, extensionUsed := true
           warningSent := if lead < n then false else b.warningSent }

/-- EXTEND (R66). -/
def execExtend (src : Link) (tag : Byte) (slot : Byte) (ref : BitVec 16) (s : State) :
    Host.Outcome State Fault Refusal :=
  request (.extend src tag slot ref) src tag 0x1D true (fun who r s =>
    onOwned who r slot ref (fun _ i b s =>
      if b.state ≠ .opened ∧ b.state ≠ .tallied then answer r .wrongState [] s
      else if b.extensionUsed then answer r .limit [] s
      else
        let b' := b.extended s.params.extension s.params.warningLead
        answer r .ok (bytes2 b'.hold.seconds) (s.putBasket i b')) s) s

/-- The pay line that keeps the record of a basket's current attempt. -/
def State.attemptLine (s : State) (b : Basket) : Option (Fin 8 × PayRecord) :=
  match b.payRef with
  | none => none
  | some p => (indices 8).findSome? (fun i => ((s.payLine i).record p).map (fun r => (i, r)))

/-- R101: the abort of an attempt in flight; the CANCEL waits for its outcome. -/
def startAbort (i : Fin 16) (b : Basket) (r : Reply) (line : Fin 8) (rec : PayRecord) (s : State) : State :=
  let s := s.putBasket i { b with waiter := some r }
  let s := s.onPayLine line (fun l => { (l.onRecord rec.payRef (fun x => { x with state := .aborting })) with
    exchange := some ⟨.abort, rec.payRef, s.params.acceptWait⟩ })
  tellTerminal line 0x51 (bytes2 rec.payRef) s

/-- CANCEL (R67, R101). -/
def execCancel (src : Link) (tag : Byte) (slot : Byte) (ref : BitVec 16) (s : State) :
    Host.Outcome State Fault Refusal :=
  request (.cancel src tag slot ref) src tag 0x1E true (fun who r s =>
    onOwned who r slot ref (fun _ i b s =>
      match b.state with
      | .opened => endBasket i { b with waiter := some r } .cancelled s
      | .tallied => endBasket i { b with waiter := some r } .cancelled s
      | .paying =>
        match s.attemptLine b with
        | some (line, rec) =>
          if rec.state = .sent ∨ rec.state = .accepted then startAbort i b r line rec s
          else answer r .wrongState [] s
        | none => answer r .wrongState [] s
      | _ => answer r .wrongState [] s) s) s

-- ## PAY and SETTLE (R95, R116)

/-- The total of a basket's stored tally. -/
def Basket.total (b : Basket) : Nat := b.tally.elim 0 (·.total)

/-- R95: an accepted PAY on a pay line: the reservation, PAYING, the record, AUTHORIZE and the accept wait. -/
def startPayment (i : Fin 16) (b : Basket) (r : Reply) (line : Fin 8) (amount : Nat) (s : State) : State :=
  let p := s.freePayRef
  let s := reserve (quantityOf b.vouchers) s
  let s := s.putBasket i { b with
    state := .paying, hold := .suspended b.hold.seconds, attempts := b.attempts + 1, reserved := true
    payRef := some p }
  let s := { s with pay := { s.pay with nextRef := wrapSucc 65535 p } }
  let s := s.onPayLine line (fun l => { l with
    records := addRecord ⟨p, i, b.ref, amount, .sent, .none, none, none⟩ l.records
    exchange := some ⟨.authorization, p, s.params.acceptWait⟩ })
  tellTerminal line 0x50 (bytes2 p ++ amountBytes amount)
    (answer r .ok (bytes2 p ++ bytes1 (b.attempts + 1)) s)

/-- The pay line a requester's PAY uses: the one its station is bound to, idle and with an empty queue
(check 7 of R95). -/
def State.freePayLine (s : State) (o : Owner) : Option (Fin 8) :=
  match o with
  | .office => none
  | .station n =>
    match s.binding n with
    | none => none
    | some k =>
      if (s.payLine k.pay).exchange = none ∧ (s.payLine k.pay).queue = [] then some k.pay else none

/-- PAY (R95). -/
def execPay (src : Link) (tag : Byte) (slot : Byte) (ref : BitVec 16) (amount : BitVec 32) (s : State) :
    Host.Outcome State Fault Refusal :=
  request (.pay src tag slot ref amount) src tag 0x1F (readAmount amount).isSome (fun who r s =>
    onOwned who r slot ref (fun o i b s =>
      if o = .office then answer r .notAllowed [] s
      else if b.state ≠ .tallied then answer r .wrongState [] s
      else if s.params.declineLimit ≤ b.attempts then answer r .limit [] s
      else if readAmount amount ≠ some b.total then answer r .amountMismatch (amountBytes b.total) s
      else
        match s.freePayLine o with
        | none => answer r .lineBusy [] s
        | some line =>
          if !s.hasRoom (quantityOf b.vouchers) then answer r .tableFull [] s
          else startPayment i b r line b.total s) s) s

/-- The ticket line of a SETTLE: TL0–TL7, or NONE; none where it is neither. -/
def readSettleLine (b : Byte) : Option (Option (Fin 8)) :=
  if b = 0xFF then some none else (readTicketLine b).map some

/-- SETTLE (R116): the commit begins, and its answer waits (R117). -/
def execSettle (src : Link) (tag : Byte) (slot : Byte) (ref : BitVec 16) (line : Byte) (s : State) :
    Host.Outcome State Fault Refusal :=
  request (.settle src tag slot ref line) src tag 0x20 true (fun who r s =>
    match readSettleLine line with
    | none => answer r .badRequest [] s
    | some l =>
      onOwned who r slot ref (fun _ i b s =>
        if b.state ≠ .tallied then answer r .wrongState [] s
        else if !s.hasRoom (quantityOf b.vouchers) then answer r .tableFull [] s
        else beginCommit i { b with reserved := true, waiter := some r } none l
          (reserve (quantityOf b.vouchers) s)) s) s

-- ## QUERY_BASKET (R174)

/-- QUERY_BASKET (R174): a live basket is the flag 1 and every field of R54; FREE is the flag 0 and the zeros of a
basket with no line, so that the length follows the counts carried (R179; DEDUCED, log entry 15). A ref behind a flag
that is off is not judged (DESIGN CHOICE, log entry 39). -/
def execQueryBasket (src : Link) (tag : Byte) (slot refPresent : Byte) (ref : BitVec 16) (s : State) :
    Host.Outcome State Fault Refusal :=
  request (.queryBasket src tag slot refPresent ref) src tag 0x21 (readFlag refPresent).isSome (fun _ r s =>
    match readSlot slot with
    | none => answer r .badRequest [] s
    | some i =>
      let b := s.baskets.get i
      if refPresent = 0 ∨ b.any (fun b => b.ref == ref.toNat) then
        answer r .ok (optionalBytes (Basket.bytes i) 46 b) s
      else answer r .noSuch [] s) s

end Sys2Proof.Machine
end

