-- ==== Sys2Proof/Machine/Days.lean ====
section
/-! DEFINITION. Meanings: plans, screenings and the show clock's requests (R1 to R15, R21 to R29). -/

namespace Sys2Proof.Machine

-- ## Plans (R3, R4)

/-- R177: the fields of a LOAD_PLAN that can be malformed. -/
def planOk (f : PlanFields) : Bool :=
  f.name.all printable && (readFlag f.orphan).isSome && (readFlag f.wheelchair).isSome

/-- Check 1 of R3: the ranges of the header's numbers. -/
def planInRange (f : PlanFields) : Bool :=
  let rows := f.rows.toNat
  let positions := f.positions.toNat
  !(planName f.name).isEmpty && 1 ≤ rows && rows ≤ 26 && 1 ≤ positions && positions ≤ 40
    && 1 ≤ f.bestRow.toNat && f.bestRow.toNat ≤ rows
    && 2 ≤ f.bestCentre.toNat && f.bestCentre.toNat ≤ 2 * positions

/-- The header of a LOAD_PLAN. -/
def planHeader (f : PlanFields) : PlanHeader :=
  ⟨planName f.name, f.rows.toNat, f.positions.toNat, f.bestRow.toNat, f.bestCentre.toNat,
    readFlag f.orphan == some true, readFlag f.wheelchair == some true⟩

/-- LOAD_PLAN (R3). -/
def execLoadPlan (src : Link) (tag : Byte) (f : PlanFields) (s : State) : Host.Outcome State Fault Refusal :=
  request (.loadPlan src tag f) src tag 0x01 (planOk f) (fun _ r s =>
    match readPlan f.plan.toNat with
    | none => answer r .badRequest [] s
    | some i =>
      if !planInRange f then answer r .badRequest [] s
      else if s.screenings.any (fun c => c.plan == f.plan.toNat) then answer r .wrongState [] s
      else answer r .ok [] { s with plans := s.plans.set i (.loading (planHeader f) [] 1 0) }) s

/-- A cell as a row stores it: the zone of a GAP is discarded (R4). -/
def CellFields.cell (c : CellFields) : Cell :=
  match c.kind with
  | none => .gap
  | some k => .seat k c.zone c.aisle

/-- Check 3 of R4: as many cells as positions, aisle-right off on GAP cells and on the last one. -/
def rowFits (positions : Nat) (cells : List CellFields) : Bool :=
  cells.length == positions && cells.all (fun c => c.kind.isSome || !c.aisle)
    && cells.getLast?.all (fun c => !c.aisle)

/-- How many of a row's cells are seats. -/
def seatsIn (row : List Cell) : Nat := row.countP (fun c => c != .gap)

/-- PLAN_ROW (R4). A plan number with no slot names none that is LOADING. -/
def execPlanRow (src : Link) (tag : Byte) (plan row : Byte) (cells : List Byte) (s : State) :
    Host.Outcome State Fault Refusal :=
  let read := readAll readCell cells
  request (.planRow src tag plan row cells) src tag 0x02 read.isSome (fun _ r s =>
    match readPlan plan.toNat with
    | none => answer r .wrongState [] s
    | some i =>
      match s.plans.get i with
      | .loading h rows next seats =>
        let given := read.getD []
        let new := given.map CellFields.cell
        if row.toNat ≠ next then answer r .wrongState [] s
        else if !rowFits h.positions given then answer r .badRequest [] s
        else if Config.maxSeats < seats + seatsIn new then answer r .limit [] s
        else if next = h.rows then
          answer r .okReady [] { s with plans := s.plans.set i (.ready h (rows ++ [new])) }
        else
          let slot := PlanSlot.loading h (rows ++ [new]) (next + 1) (seats + seatsIn new)
          answer r .ok [] { s with plans := s.plans.set i slot }
      | _ => answer r .wrongState [] s) s

-- ## Screenings (R8, R10, R11, R13)

/-- R177: the fields of a LOAD_SCREENING that can be malformed. -/
def screeningOk (f : ScreeningFields) : Bool :=
  (readClass f.cls).isSome && (readFlag f.matinee).isSome && (readFlag f.kioskSales).isSome
    && (readFlag f.latePresent).isSome

/-- The late window carried, or 15 where none is (R8); the byte behind a flag that is off is not judged (DESIGN
CHOICE, log entry 39). -/
def lateWindow (f : ScreeningFields) : Nat :=
  if readFlag f.latePresent = some true then f.late.toNat else 15

/-- Check 2 of R8. -/
def screeningInRange (f : ScreeningFields) : Bool :=
  1 ≤ f.id.toNat && (readPlan f.plan.toNat).isSome && f.start.toNat ≤ 2879 && lateWindow f ≤ 30

/-- LOAD_SCREENING (R8). -/
def execLoadScreening (src : Link) (tag : Byte) (f : ScreeningFields) (s : State) :
    Host.Outcome State Fault Refusal :=
  request (.loadScreening src tag f) src tag 0x03 (screeningOk f) (fun _ r s =>
    if !s.clock.isSet then answer r .wrongState [] s
    else if !screeningInRange f then answer r .badRequest [] s
    else if (s.screening f.id.toNat).isSome then answer r .taken [] s
    else
      match (readPlan f.plan.toNat).map s.plans.get with
      | some (.ready _ rows) =>
        if (f.start.toNat + lateWindow f) * 60 ≤ s.clock.value then answer r .tooLate [] s
        else if Config.maxScreenings ≤ s.screenings.length then answer r .limit [] s
        else
          let g := freshGrid rows
          let c : Screening := ⟨f.id.toNat, f.plan.toNat, f.start.toNat, (readClass f.cls).getD .standard,
            readFlag f.matinee == some true, lateWindow f, readFlag f.kioskSales == some true, .loaded,
            Grid.counts g, g⟩
          answer r .ok [] { s with screenings := s.screenings ++ [c] }
      | some (.loading _ _ _ _) => answer r .wrongState [] s
      | _ => answer r .noSuch [] s) s

/-- The targets of SET_SCREENING: 1 ON_SALE, 2 PAUSED (R10). -/
def readTarget (b : Byte) : Option ScreeningState :=
  if b = 1 then some .onSale else if b = 2 then some .paused else none

/-- SET_SCREENING (R10). -/
def execSetScreening (src : Link) (tag : Byte) (id : BitVec 16) (target : Byte) (s : State) :
    Host.Outcome State Fault Refusal :=
  request (.setScreening src tag id target) src tag 0x04 (readTarget target).isSome (fun _ r s =>
    match s.screening id.toNat, readTarget target with
    | none, _ => answer r .noSuch [] s
    | some c, some t =>
      if c.state = .closed ∨ (c.state = .loaded ∧ t = .paused) then answer r .wrongState [] s
      else answer r .ok [] (s.onScreening id.toNat (fun c => { c with state := t }))
    | some _, none => answer r .badRequest [] s) s

/-- SET_KIOSK_SALES (R11). -/
def execSetKioskSales (src : Link) (tag : Byte) (id : BitVec 16) (value : Byte) (s : State) :
    Host.Outcome State Fault Refusal :=
  request (.setKioskSales src tag id value) src tag 0x05 (readFlag value).isSome (fun _ r s =>
    match s.screening id.toNat with
    | none => answer r .noSuch [] s
    | some c =>
      if c.state = .closed then answer r .wrongState [] s
      else answer r .ok [] (s.onScreening id.toNat (fun c => { c with kioskSales := value == 1 }))) s

/-- CLOSE_SCREENING (R13). -/
def execCloseScreening (src : Link) (tag : Byte) (id : BitVec 16) (s : State) :
    Host.Outcome State Fault Refusal :=
  request (.closeScreening src tag id) src tag 0x06 true (fun _ r s =>
    match s.screening id.toNat with
    | none => answer r .noSuch [] s
    | some c => answer r .ok c.counts.bytes (s.onScreening id.toNat (fun c => { c with state := .closed }))) s

/-- R15: the records of a screening go, in the order of the rule. -/
def archiveScreening (id : Nat) (s : State) : State :=
  let s := removeVouchers id (lapseScreening id s)
  { s with
    sales := { s.sales with records := s.sales.records.filter (fun r => r.screening != id) }
    screenings := s.screenings.filter (fun c => c.id != id) }

/-- ARCHIVE (R14, R15). -/
def execArchive (src : Link) (tag : Byte) (id : BitVec 16) (s : State) : Host.Outcome State Fault Refusal :=
  request (.archive src tag id) src tag 0x07 true (fun _ r s =>
    let n := id.toNat
    match s.screening n with
    | none => answer r .noSuch [] s
    | some c =>
      if c.state ≠ .closed then answer r .wrongState [] s
      else if s.liveBaskets.any (fun x => x.2.screening == n) then answer r .dependent [] s
      else if s.sales.records.any (fun k => k.screening == n && k.state == .refundPending) then
        answer r .dependent [] s
      else
        let sales := s.sales.records.countP (fun k => k.screening == n)
        let vouchers := s.vouchers.records.countP (fun v => v.screening == n)
        answer r .ok (bytes2 sales ++ bytes2 vouchers) (archiveScreening n s)) s

/-- A plan name on the wire, padded with spaces (section 12.2). -/
def nameBytes (name : List Byte) : List Byte := (name ++ List.replicate 16 0x20).take 16

/-- QUERY_SCREENING (R174): the record, its late window as 1 byte (DESIGN CHOICE, log entry 37), the plan's name, the
counts, the live baskets, the sales by state. -/
def execQueryScreening (src : Link) (tag : Byte) (id : BitVec 16) (s : State) :
    Host.Outcome State Fault Refusal :=
  request (.queryScreening src tag id) src tag 0x08 true (fun _ r s =>
    match s.screening id.toNat with
    | none => answer r .noSuch [] s
    | some c =>
      let name := (s.plan c.plan).elim [] (fun p => p.1.name)
      let sales (t : SaleState) := s.sales.records.countP (fun k => k.screening == c.id && k.state == t)
      answer r .ok (bytes2 c.id ++ bytes1 c.plan ++ bytes2 c.start ++ [c.cls.code] ++ flagByte c.matinee
        ++ bytes1 c.late ++ flagByte c.kioskSales ++ [c.state.code] ++ nameBytes name ++ c.counts.bytes
        ++ bytes1 (s.liveBaskets.countP (fun x => x.2.screening == c.id))
        ++ bytes2 (sales .committed) ++ bytes2 (sales .refundPending) ++ bytes2 (sales .refunded)) s) s

-- ## The show clock (R21 to R29)

/-- A start carried by a DAY_OPEN, or 1 (R22); the bytes behind a flag that is off are not judged (DESIGN CHOICE, log
entry 39). -/
def startOr1 (present : Byte) (w : BitVec 24) : Nat := if readFlag present = some true then w.toNat else 1

/-- Check 1 of R21. -/
def dayInRange (f : DayFields) : Bool :=
  let start (n : Nat) : Bool := 1 ≤ n && n ≤ 999999
  1 ≤ f.day.toNat && f.day.toNat ≤ 366 && f.clock.toNat ≤ Config.clockEnd
    && start (startOr1 f.salePresent f.saleStart) && start (startOr1 f.serialPresent f.serialStart)

/-- DAY_OPEN (R21, R22); the day number is 2 bytes and the voucher serial 3 bytes of binary, in the request and in
the answer (DESIGN CHOICE, log entry 37). -/
def execDayOpen (src : Link) (tag : Byte) (f : DayFields) (s : State) : Host.Outcome State Fault Refusal :=
  request (.dayOpen src tag f) src tag 0x0A ((readFlag f.salePresent).isSome && (readFlag f.serialPresent).isSome)
    (fun _ r s =>
      if !dayInRange f then answer r .badRequest [] s
      else if s.screenings ≠ [] then answer r .wrongState [] s
      else
        let sale := startOr1 f.salePresent f.saleStart
        let serial := startOr1 f.serialPresent f.serialStart
        let s := putClock f.clock.toNat s
        answer r .ok (bytes2 f.day.toNat ++ bytes3 f.clock.toNat ++ bytes3 sale ++ bytes3 serial)
          { s with
            clock := { s.clock with isSet := true, day := f.day.toNat }
            sales := { s.sales with next := sale }
            vouchers := { s.vouchers with serial := serial } }) s

/-- SET_TIME (R23). The SCREENING_CLOSED and PRICES_ACTIVE notices of the minute check it brings are sent before its
answer (DESIGN CHOICE, log entry 27). -/
def execSetTime (src : Link) (tag : Byte) (clock : BitVec 24) (s : State) : Host.Outcome State Fault Refusal :=
  request (.setTime src tag clock) src tag 0x0B true (fun _ r s =>
    if !s.clock.isSet then answer r .wrongState [] s
    else if Config.clockEnd < clock.toNat then answer r .badRequest [] s
    else answer r .ok (bytes3 s.clock.value ++ bytes3 clock.toNat) (moveClock clock.toNat s)) s

/-- A sync mode (R28). -/
def readSync (b : Byte) : Option SyncMode :=
  match b.toNat with
  | 1 => some .off
  | 2 => some .watch
  | 3 => some .track
  | 4 => some .once
  | _ => none

/-- The table of R28: what a change of mode does to the no-pulse countdown. -/
def setSync (m : SyncMode) (c : Clock) : Clock :=
  { c with sync := m
           noPulse := if m = .off then .stopped
             else if c.sync = .off then .running Config.noPulseTime else c.noPulse }

/-- SET_SYNC (R28). -/
def execSetSync (src : Link) (tag : Byte) (mode : Byte) (s : State) : Host.Outcome State Fault Refusal :=
  request (.setSync src tag mode) src tag 0x0C true (fun _ r s =>
    match readSync mode with
    | none => answer r .badRequest [] s
    | some m => answer r .ok [] { s with clock := setSync m s.clock }) s

/-- CLEAR_PULSE_COUNT (R29). -/
def execClearPulseCount (src : Link) (tag : Byte) (s : State) : Host.Outcome State Fault Refusal :=
  request (.clearPulseCount src tag) src tag 0x0D true (fun _ r s =>
    answer r .ok (bytes2 s.clock.pulses) { s with clock := { s.clock with pulses := 0 } }) s

/-- The no-pulse countdown on the wire: 0 stopped, or 1 and the seconds that remain. -/
def NoPulse.bytes : NoPulse → List Byte
  | .stopped => [0, 0, 0]
  | .running n => 1#8 :: bytes2 n
  | .expired => [1, 0, 0]

/-- The clock as QUERY_CLOCK reports it (R29): V, F, the state (1 NOT_SET, 2 SET), running (1) or stopped at
its end (2), the day number, the sync mode, the last deviation, the pulse count, the no-pulse countdown. F and the
day number are 2 bytes of binary each (DESIGN CHOICE, log entry 37). -/
def State.clockBytes (s : State) : List Byte :=
  bytes3 s.clock.value ++ bytes2 s.clock.fraction ++ bytes1 (if s.clock.isSet then 2 else 1)
    ++ bytes1 (if s.clockRuns then 1 else 2) ++ bytes2 s.clock.day ++ [s.clock.sync.code]
    ++ deviationBytes s.clock.deviation ++ bytes2 s.clock.pulses ++ s.clock.noPulse.bytes

/-- QUERY_CLOCK (R29). -/
def execQueryClock (src : Link) (tag : Byte) (s : State) : Host.Outcome State Fault Refusal :=
  request (.queryClock src tag) src tag 0x0E true (fun _ r s => answer r .ok s.clockBytes s) s

end Sys2Proof.Machine
end

