-- ==== Sys2Proof/Machine/Frames.lean ====
section
/-! DEFINITION. Meanings: bytes received, frames sent, bad frames, and bodies that spell no request
(R158 to R163, R177). -/

namespace Sys2Proof.Machine

/-- R158: a ticket line's receiver is watched while its power-enable output is on; every other line's
always. -/
def State.watched (s : State) (l : Line) : Bool :=
  match l with
  | .tl n => (s.ticketLine n).powered
  | _ => true

/-- R159: a byte at a receiver. A good frame is handed on as a message; a frame found bad waits for
BAD_FRAME (log entry 12). -/
def receive (l : Line) (b : Byte) (r : LineState) : LineState :=
  match r.receiver with
  | .hunting => if b = 0xA5 then { r with receiver := .assembling [] } else r
  | .assembling bytes =>
    match frameStatus (bytes ++ [b]) with
    | .good body =>
      { r with receiver := .hunting
               handedOn := if (decodeBody l body).isSome then r.handedOn ++ [body] else r.handedOn }
    | _ => { r with receiver := .assembling (bytes ++ [b]) }

/-- FRAME_BYTE (R158, R159). -/
def execFrameByte (l : Line) (b : Byte) (s : State) : Host.Outcome State Fault Refusal :=
  command (fun s => if s.watched l then s.onLine l (receive l b) else s) s

/-- BAD_FRAME (R159, R160). -/
def execBadFrame (l : Line) (s : State) : Host.Outcome State Fault Refusal := event (expireFrame l) s

/-- FRAME_GAP_TIMEOUT (R159): a gap of `gap` ms between two bytes of one frame. -/
def execFrameGapTimeout (l : Line) (gap : Nat) (s : State) : Host.Outcome State Fault Refusal :=
  command (fun s =>
    if s.watched l ∧ Config.maxGap < gap ∧ (s.line l).receiver ≠ .hunting then discardFrame l s else s) s

/-- R162, R163: a request is no longer outstanding once its answer has been sent; R170: nor does RESTART's
reset wait any longer. -/
def closeRequest (l : Line) (f : Frame) (s : State) : State :=
  match l with
  | .kl n => { s with ifc := { s.ifc with kiosk := s.ifc.kiosk.set n none } }
  | .cl n => { s with ifc := { s.ifc with concession := s.ifc.concession.set n none } }
  | .ol =>
    { s with ifc := { s.ifc with
        office := s.ifc.office.filter (fun o => some o.tag != f.body[1]?)
        restart := if s.ifc.restart = .answering ∧ f.body.head? = some 0xCC then .due else s.ifc.restart } }
  | _ => s

/-- FRAME_SENT (R161): the frame being sent on a line has been sent whole. -/
def execFrameSent (l : Line) (s : State) : Host.Outcome State Fault Refusal :=
  command (fun s =>
    match (s.line l).sending with
    | [] => s
    | f :: rest =>
      let s := s.onLine l (fun r => { r with sending := rest })
      if f.closes then closeRequest l f s else s) s

/-- The kinds that name a request (section 12.3). -/
def requestKinds : List Byte :=
  [0x01, 0x02, 0x03, 0x04, 0x05, 0x06, 0x07, 0x08, 0x0A, 0x0B, 0x0C, 0x0D, 0x0E,
    0x10, 0x11, 0x12, 0x13, 0x14, 0x15, 0x16, 0x17,
    0x18, 0x19, 0x1A, 0x1B, 0x1C, 0x1D, 0x1E, 0x1F, 0x20, 0x21,
    0x24, 0x25, 0x26, 0x27, 0x28, 0x2A, 0x2C, 0x2D, 0x2E, 0x2F, 0x30, 0x31,
    0x34, 0x35, 0x36, 0x37, 0x38, 0x39, 0x3C, 0x3D, 0x3E, 0x3F, 0x40, 0x41,
    0x44, 0x45, 0x46, 0x47, 0x48, 0x49, 0x4A, 0x4B, 0x4C, 0x4D, 0x4E, 0x4F]

/-- The kind an answer to a body turned away by its kind or length is made from: 0xFF where the kind names
no request (section 12.3). -/
def refusedKind (kind : Byte) : Byte := if requestKinds.contains kind then kind else 0x7F

/-- UNRECOGNISED_REQUEST (R162, R163, R177): the kind names no request, or the length does not suit it. -/
def execUnrecognisedRequest (src : Link) (tag kind : Byte) (s : State) : Host.Outcome State Fault Refusal :=
  command (fun s => hear src tag (refusedKind kind) false true (fun _ _ s => s)
    (takeMessage src.line (.unrecognisedRequest src tag kind) s)) s

end Sys2Proof.Machine
end

