-- ==== Sys2Proof/Machine/Office.lean ====
section
/-! DEFINITION. Meanings: alarm enables, acknowledgement, and the parameters (R146, R154, R171 to R173,
R176). -/

namespace Sys2Proof.Machine

-- ## Alarms (R172, R173)

/-- The flags a set names; none with a bit outside the ten on. -/
def readFlags (w : BitVec 16) : Option (List (Fin 10)) :=
  if 1024 ≤ w.toNat then none else some ((indices 10).filter (fun i => w.toNat / 2 ^ i.val % 2 == 1))

/-- A set of flags on the wire. -/
def flagsBytes (flags : List (Fin 10)) : List Byte :=
  flagSetBytes ((indices 10).map (fun i => flags.contains i))

/-- The ten enables on the wire, as one set of flags in 2 bytes (DESIGN CHOICE, log entry 37). -/
def State.enableBytes (s : State) : List Byte := flagSetBytes s.alarms.enabled.list

/-- The enables of the named flags turned to a value. -/
def setEnables (flags : List (Fin 10)) (on : Bool) (s : State) : State :=
  { s with alarms := { s.alarms with enabled := flags.foldl (fun t i => t.set i on) s.alarms.enabled } }

/-- R172: the named flags that are latched and go from disabled to enabled. -/
def State.reporting (s : State) (flags : List (Fin 10)) (on : Bool) : List (Fin 10) :=
  if on then flags.filter (fun i => s.alarms.latched.get i && !s.alarms.enabled.get i) else []

/-- SET_ALARM_ENABLE (R172): the notices come at once; their order is open (log entry 5). -/
def execSetAlarmEnable (src : Link) (tag : Byte) (set : BitVec 16) (value : Byte) (s : State) :
    Host.Outcome State Fault Refusal :=
  request (.setAlarmEnable src tag set value) src tag 0x4D (readFlag value).isSome (fun _ r s =>
    match readFlags set with
    | none => answer r .badRequest [] s
    | some [] => answer r .badRequest [] s
    | some flags =>
      let on := readFlag value == some true
      let notices := s.reporting flags on
      let order := s.arranged notices
      let s := alarmNotices order ((setEnables flags on s).spend notices.length)
      answer r .ok s.enableBytes s) s

/-- The named flags cleared. -/
def clearLatched (flags : List (Fin 10)) (s : State) : State :=
  { s with alarms := { s.alarms with latched := flags.foldl (fun t i => t.set i false) s.alarms.latched } }

/-- ACK_ALARMS (R173): the named latched flags are cleared, and those whose condition holds latch again, each
with its notice where it is enabled. -/
def execAckAlarms (src : Link) (tag : Byte) (set : BitVec 16) (s : State) : Host.Outcome State Fault Refusal :=
  request (.ackAlarms src tag set) src tag 0x4E true (fun _ r s =>
    match readFlags set with
    | none => answer r .badRequest [] s
    | some flags =>
      let named := flags.filter s.alarms.latched.get
      let again := named.filter s.condition
      let gone := named.filter (fun i => !s.condition i)
      let s := latchAlarms (clearLatched named s)
      answer r .ok (flagsBytes gone ++ flagsBytes again ++ flagSetBytes s.alarms.latched.list
        ++ s.enableBytes ++ flagSetBytes s.conditions) s) s

-- ## Parameters (R146, R154, R176)

/-- A value clamped to a range. -/
def clamp (lo hi n : Nat) : Nat := max lo (min hi n)

/-- R154: a filter time is taken up to the next allowed value. -/
def clampFilter (n : Nat) : Nat :=
  if n ≤ 50 then 50 else if n ≤ 100 then 100 else if n ≤ 200 then 200 else 400

/-- The largest declared draw. -/
def Params.largestDraw (p : Params) : Nat := p.draws.list.foldl max 0

/-- A doubt policy: 1 KEEP, 2 RELEASE. -/
def readPolicy (n : Nat) : Option DoubtPolicy := if n = 1 then some .keep else if n = 2 then some .release else none

/-- A supply mode: 1 INDIVIDUAL, 2 GANGED. -/
def readSupply (n : Nat) : Option SupplyMode := if n = 1 then some .individual else if n = 2 then some .ganged else none

/-- The number of a policy. -/
def DoubtPolicy.number : DoubtPolicy → Nat
  | .keep => 1
  | .release => 2

/-- The number of a supply mode. -/
def SupplyMode.number : SupplyMode → Nat
  | .individual => 1
  | .ganged => 2

/-- A parameter's value and what a value carried makes of the parameters: none where a choice parameter
carries none of its values. -/
structure Parameter where
  value : Params → Nat
  take : Params → Nat → Option Params

/-- A numeric parameter, clamped to its range. -/
def numeric (lo hi : Nat) (value : Params → Nat) (put : Params → Nat → Params) : Parameter :=
  ⟨value, fun p n => some (put p (clamp lo hi n))⟩

/-- The parameters by their place from 1 in the table of R176; `line` is the ticket line of a declared draw. -/
def parameter (place : Nat) (line : Option (Fin 8)) : Option Parameter :=
  match place, line with
  | 1, none => some (numeric 60 600 (·.stationHold) (fun p n => { p with stationHold := n }))
  | 2, none => some (numeric 60 3600 (·.officeHold) (fun p n => { p with officeHold := n }))
  | 3, none => some (numeric 30 600 (·.extension) (fun p n => { p with extension := n }))
  | 4, none => some (numeric 0 120 (·.warningLead) (fun p n => { p with warningLead := n }))
  | 5, none => some (numeric 1 30 (·.acceptWait) (fun p n => { p with acceptWait := n }))
  | 6, none => some (numeric 30 300 (·.authorizationWait) (fun p n => { p with authorizationWait := n }))
  | 7, none => some (numeric 2 60 (·.reversalInterval) (fun p n => { p with reversalInterval := n }))
  | 8, none => some (numeric 1 5 (·.declineLimit) (fun p n => { p with declineLimit := n }))
  | 9, none => some (numeric 0 15 (·.reversalLimit) (fun p n => { p with reversalLimit := n }))
  | 10, none => some ⟨fun p => p.doubtPolicy.number, fun p n =>
      (readPolicy n).map (fun c => { p with doubtPolicy := c })⟩
  | 11, none => some (numeric 0 240 (·.refundCutoff) (fun p n => { p with refundCutoff := n }))
  | 12, none => some (numeric 30 600 (·.quoteTime) (fun p n => { p with quoteTime := n }))
  | 13, none => some (numeric 0 240 (·.windowBefore) (fun p n => { p with windowBefore := n }))
  | 14, none => some (numeric 0 240 (·.windowAfter) (fun p n => { p with windowAfter := n }))
  | 15, none => some (numeric 0 2000 (·.jitterWindow) (fun p n => { p with jitterWindow := n }))
  | 16, none => some ⟨fun p => p.budget, fun p n =>
      some { p with budget := clamp (max 10 p.largestDraw) 200 n }⟩
  | 17, some i => some ⟨fun p => p.draws.get i, fun p n =>
      some { p with draws := p.draws.set i (clamp 5 (min 40 p.budget) n) }⟩
  | 18, none => some ⟨fun p => p.supply.number, fun p n => (readSupply n).map (fun c => { p with supply := c })⟩
  | 19, none => some (numeric 0 32 (·.restAfter) (fun p n => { p with restAfter := n }))
  | 20, none => some (numeric 0 10 (·.restTime) (fun p n => { p with restTime := n }))
  | 21, none => some ⟨fun p => p.filterTime, fun p n => some { p with filterTime := clampFilter n }⟩
  | _, _ => none

/-- The parameter a SET_PARAM names: its line byte is the ticket line of a declared draw, and NONE for any
other (section 12.2, log entry 20). -/
def namedParameter (place : Nat) (line : Byte) : Option Parameter :=
  if place = 17 then (readTicketLine line).bind (fun i => parameter place (some i))
  else if line = 0xFF then parameter place none else none

/-- The power parameters (check 3 of R176). -/
def isPower (place : Nat) : Bool := 16 ≤ place && place ≤ 18

/-- SET_PARAM (R146, R176): OK carries the value before and the value taken; with no value carried, the value
in force stands in both places (DEDUCED, log entry 20), and the bytes behind its flag are not judged (DESIGN CHOICE,
log entry 39). -/
def execSetParam (src : Link) (tag : Byte) (param line present : Byte) (value : BitVec 16) (s : State) :
    Host.Outcome State Fault Refusal :=
  request (.setParam src tag param line present value) src tag 0x4F (readFlag present).isSome (fun _ r s =>
    match namedParameter param.toNat line with
    | none => answer r .badRequest [] s
    | some q =>
      let before := q.value s.params
      let taken := if readFlag present = some true then q.take s.params value.toNat else some s.params
      match taken with
      | none => answer r .badRequest [] s
      | some p =>
        if isPower param.toNat && s.anyGrant then answer r .busy [] s
        else answer r .ok (bytes2 before ++ bytes2 (q.value p)) { s with params := p }) s

end Sys2Proof.Machine
end

