-- ==== Sys2Proof/Machine/Payments.lean ====
section
/-! DEFINITION. Meanings: the card terminals' messages, and RESOLVE (R91, R97 to R104, R108, R178). -/

namespace Sys2Proof.Machine

/-- ACCEPTED (R97): in SENT; discarded otherwise. -/
def execAccepted (line : Fin 8) (payRef : BitVec 16) (s : State) : Host.Outcome State Fault Refusal :=
  message (.pl line) (.accepted line payRef) (onNamed line payRef.toNat (fun r s =>
    if r.state = .sent then acceptRecord line r s else s)) s

/-- A progress stage: 1 CARD_WAIT, 2 PIN_WAIT, 3 ONLINE (section 6.1). -/
def readStage (b : Byte) : Option Stage :=
  match b.toNat with
  | 1 => some .cardWait
  | 2 => some .pinWait
  | 3 => some .online
  | _ => none

/-- PROGRESS (R97): in SENT it is an ACCEPTED first; a malformed stage is stray. -/
def execProgress (line : Fin 8) (payRef : BitVec 16) (stage : Byte) (s : State) :
    Host.Outcome State Fault Refusal :=
  message (.pl line) (.progress line payRef stage) (fun s =>
    match readStage stage with
    | none => countStray line s
    | some st => onNamed line payRef.toNat (fun r s =>
        match r.state with
        | .sent => progressRecord line r st (acceptRecord line r s)
        | .accepted => progressRecord line r st s
        | _ => s) s) s

/-- APPROVED taken for a record, by its state (R98, R101, R102). -/
def takeApproved (line : Fin 8) (code : List Byte) (amount : Nat) (r : PayRecord) (s : State) : State :=
  match r.state with
  | .aborting => abortApproved line r code amount s
  | .approved => if amount = r.amount then s else lateApproval line r.payRef code amount s
  | .timedOut => lateApproval line r.payRef code amount s
  | .aborted => lateApproval line r.payRef code amount s
  | .declined => lateApproval line r.payRef code amount s
  | _ => if amount = r.amount then approveRecord line r code s else mismatchRecord line r code amount s

/-- APPROVED (R98, R101, R102): one that names only a queued reversal is a late approval for it. -/
def execApproved (line : Fin 8) (payRef : BitVec 16) (code : List Byte) (amount : BitVec 32) (s : State) :
    Host.Outcome State Fault Refusal :=
  message (.pl line) (.approved line payRef code amount) (fun s =>
    match readAmount amount with
    | none => countStray line s
    | some a =>
      if code.length ≠ 6 ∨ !code.all printable then countStray line s
      else if ((s.payLine line).record payRef.toNat).isNone
          && ((s.payLine line).reversal payRef.toNat).isSome then lateApproval line payRef.toNat code a s
      else onNamed line payRef.toNat (takeApproved line code a) s) s

/-- DECLINED (R99, R101, R102); a reason outside 1–15 is stray (log entry 13). -/
def execDeclined (line : Fin 8) (payRef : BitVec 16) (reason : Byte) (s : State) :
    Host.Outcome State Fault Refusal :=
  message (.pl line) (.declined line payRef reason) (fun s =>
    let n := reason.toNat
    if n = 0 ∨ 15 < n then countStray line s
    else onNamed line payRef.toNat (fun r s =>
      match r.state with
      | .sent => declineRecord line r n s
      | .accepted => declineRecord line r n s
      | .aborting => abortAnswered line r (fun r => { r with state := .declined, reason := some n }) s
      | _ => s) s) s

/-- ABORTED (R101, R102): unasked for, it is a DECLINED with reason 0. -/
def execAborted (line : Fin 8) (payRef : BitVec 16) (s : State) : Host.Outcome State Fault Refusal :=
  message (.pl line) (.aborted line payRef) (onNamed line payRef.toNat (fun r s =>
    match r.state with
    | .sent => declineRecord line r 0 s
    | .accepted => declineRecord line r 0 s
    | .aborting => abortAnswered line r (fun r => { r with state := .aborted }) s
    | _ => s)) s

/-- REVERSED (R104): it confirms a queued reversal; it is discarded where only a record holds the pay ref,
and stray otherwise. -/
def execReversed (line : Fin 8) (payRef : BitVec 16) (s : State) : Host.Outcome State Fault Refusal :=
  message (.pl line) (.reversed line payRef) (fun s =>
    match (s.payLine line).reversal payRef.toNat with
    | some r => confirmReversal line r s
    | none => if ((s.payLine line).record payRef.toNat).isSome then s else countStray line s) s

/-- STRAY_MESSAGE (R91, R178): none of the six messages, or a wrong length. -/
def execStrayMessage (line : Fin 8) (body : List Byte) (s : State) : Host.Outcome State Fault Refusal :=
  message (.pl line) (.strayMessage line body) (countStray line) s

-- ## RESOLVE (R108)

/-- The doubt-list entry of a basket (R107). -/
def State.doubtOf (s : State) (slot : Fin 16) (ref : Nat) : Option Doubt :=
  s.pay.doubts.find? (fun d => d.slot == slot && d.ref == ref)

/-- R108: the entry of a basket leaves the doubt list. -/
def dropDoubt (slot : Fin 16) (ref : Nat) (s : State) : State :=
  { s with pay := { s.pay with
      doubts := s.pay.doubts.filter (fun d => !(d.slot == slot && d.ref == ref)) } }

/-- R108: RESOLVE SOLD with a code. -/
def resolveSold (i : Fin 16) (b : Basket) (d : Doubt) (r : Reply) (code : List Byte) (s : State) : State :=
  if ((s.payLine d.line).reversal d.payRef).isSome then answer r .dependent [] s
  else if !s.hasRoom (quantityOf b.vouchers) then answer r .tableFull [] s
  else
    beginCommit i { b with reserved := true, waiter := some r } (some ⟨d.line, d.payRef, code⟩) none
      (reserve (quantityOf b.vouchers) (dropDoubt i b.ref s))

/-- R108: RESOLVE VOID. -/
def resolveVoid (i : Fin 16) (b : Basket) (r : Reply) (s : State) : State :=
  endBasket i { b with waiter := some r } .voided (dropDoubt i b.ref s)

/-- RESOLVE (R108): verdict 1 SOLD or 2 VOID; the code's six characters are judged for SOLD. -/
def execResolve (src : Link) (tag : Byte) (slot : Byte) (ref : BitVec 16) (verdict : Byte) (code : List Byte)
    (s : State) : Host.Outcome State Fault Refusal :=
  request (.resolve src tag slot ref verdict code) src tag 0x2A true (fun _ r s =>
    if verdict ≠ 1 ∧ verdict ≠ 2 ∨ verdict = 1 ∧ !code.all printable then answer r .badRequest [] s
    else
      match (readSlot slot).bind (fun i => (s.basket i ref.toNat).map (fun b => (i, b))) with
      | none => answer r .noSuch [] s
      | some (i, b) =>
        if b.state = .ending then answer r .noSuch [] s
        else if b.state ≠ .doubt then answer r .wrongState [] s
        else if verdict = 2 then resolveVoid i b r s
        else
          match s.doubtOf i b.ref with
          | none => answer r .wrongState [] s
          | some d => resolveSold i b d r code s) s

end Sys2Proof.Machine
end

