-- ==== Sys2Proof/Machine/Prices.lean ====
section
/-! DEFINITION. Meanings: the price requests (R77 to R85). -/

namespace Sys2Proof.Machine

-- ## The parts (section 5.1, R77)

/-- `n` amounts at the head of the fields. -/
def readAmounts : Nat → List Byte → Option (List Nat × List Byte)
  | 0, bs => some ([], bs)
  | n + 1, a :: b :: c :: d :: rest =>
    match readAmount (word4 a b c d), readAmounts n rest with
    | some x, some (xs, tail) => some (x :: xs, tail)
    | _, _ => none
  | _, _ => none

/-- A kind's combo price, bundle price and offered flag. -/
def readCombo : List Byte → Option (ComboPrice × List Byte)
  | bs =>
    match readAmounts 2 bs with
    | some ([a, b], f :: rest) => (readFlag f).map (fun o => (⟨a, b, o⟩, rest))
    | _ => none

/-- A table of `n` records from a list, `d` where the list has none. -/
def tabOf {α : Type} (n : Nat) (l : List α) (d : α) : Tab α n :=
  ⟨(List.range n).map (fun i => l.getD i d), by simp⟩

/-- One part of a price set. -/
inductive Part where
  | tickets (base : Tab Nat 12)
  | surcharges (s : Surcharges)
  | combos (c : Tab ComboPrice 8)
  | rates (r : Rates)
deriving DecidableEq, Repr

/-- A part's fields, well formed; none where an amount or a flag is malformed (R177). A COMBOS part is read kind by
kind, combo price, bundle price and flag, as a price set goes (DESIGN CHOICE, log entry 41). -/
def readPart (part : Byte) (fields : List Byte) : Option Part :=
  match part.toNat, fields with
  | 1, fs => (readAmounts 12 fs).map (fun x => .tickets (tabOf 12 x.1 0))
  | 2, fs =>
    match readAmounts 3 fs with
    | some (xs, [m]) => some (.surcharges ⟨tabOf 3 xs 0, m.toNat⟩)
    | _ => none
  | 3, fs => (readItems readCombo 8 fs).map (fun x => .combos (tabOf 8 x.1 ⟨0, 0, false⟩))
  | 4, [g, p, r] => some (.rates ⟨g.toNat, p.toNat, r.toNat⟩)
  | _, _ => none

/-- Check 3 of R77: every field in its range. -/
def Part.inRange : Part → Bool
  | .tickets base => base.list.all (fun n => n ≤ 49999)
  | .surcharges s => s.classes.list.all (fun n => n ≤ 9999) && s.matinee ≤ 50
  | .combos c => c.list.all (fun k => k.combo ≤ 9999 && k.bundle ≤ k.combo)
  | .rates r => (r.threshold == 0 || (2 ≤ r.threshold && r.threshold ≤ 10)) && r.percent ≤ 30 && r.tax ≤ 250

/-- A part stored in STAGED (R77). -/
def Staged.store (t : Staged) : Part → Staged
  | .tickets base => { t with tickets := some base }
  | .surcharges s => { t with surcharges := some s }
  | .combos c => { t with combos := some c }
  | .rates r => { t with rates := some r }

/-- An activation of the set staged, attempted where all four parts are (R80). -/
def PriceBook.attempt (b : PriceBook) : PriceBook × Option Activation :=
  match b.staged.whole with
  | none => (b, none)
  | some set => let (b', a) := b.activate set; (b', some a)

/-- An activation's outcome in an answer: a flag, then R81's fields, zero where there was none. -/
def outcomeBytes (a : Option Activation) (b : PriceBook) : List Byte :=
  optionalBytes (fun a => Activation.bytes a b) 6 a

/-- The four marks. -/
def Staged.markBytes (t : Staged) : List Byte := t.marks.flatMap flagByte

/-- R83: whether an accepted part attempts an activation: it completed the set under ON_LAST_PART. -/
def completes (b : PriceBook) (t : Staged) : Bool :=
  b.mode == .onLastPart && b.staged.state != .complete && t.state == .complete

/-- STAGE_PRICES (R77, R83). -/
def execStagePrices (src : Link) (tag : Byte) (part : Byte) (fields : List Byte) (s : State) :
    Host.Outcome State Fault Refusal :=
  request (.stagePrices src tag part fields) src tag 0x24 (readPart part fields).isSome (fun _ r s =>
    match readPart part fields with
    | none => answer r .badRequest [] s
    | some p =>
      if s.prices.staged.waiting then answer r .wrongState [] s
      else if !p.inRange then answer r .badRequest [] s
      else
        let t := s.prices.staged.store p
        let b := { s.prices with staged := t }
        let (b', a) := if completes s.prices t then b.attempt else (b, none)
        answer r .ok (b'.staged.markBytes ++ outcomeBytes a b') { s with prices := b' }) s

/-- An apply mode (R79): 1 MANUAL, 2 AT_MINUTE with a minute 0–2,879, 3 ON_LAST_PART. -/
def readMode (mode : Byte) (minute : Nat) : Option ApplyMode :=
  match mode.toNat with
  | 1 => some .manual
  | 2 => if minute ≤ 2879 then some (.atMinute minute) else none
  | 3 => some .onLastPart
  | _ => none

/-- SET_APPLY_MODE (R79). -/
def execSetApplyMode (src : Link) (tag : Byte) (mode : Byte) (minute : BitVec 16) (s : State) :
    Host.Outcome State Fault Refusal :=
  request (.setApplyMode src tag mode minute) src tag 0x25 true (fun _ r s =>
    match readMode mode minute.toNat with
    | none => answer r .badRequest [] s
    | some m =>
      if s.prices.staged.waiting then answer r .wrongState [] s
      else
        let b := { s.prices with mode := m }
        let (b', a) := if m = .onLastPart ∧ b.staged.state = .complete then b.attempt else (b, none)
        answer r .ok (outcomeBytes a b') { s with prices := b' }) s

/-- The RETAINED generation and count that an OK PENDING carries (R81). -/
def PriceBook.pendingBytes (b : PriceBook) : List Byte :=
  match b.retained with
  | some k => bytes1 k.generation ++ bytes1 k.count
  | none => [0, 0]

/-- APPLY_PRICES (R81). -/
def execApplyPrices (src : Link) (tag : Byte) (s : State) : Host.Outcome State Fault Refusal :=
  request (.applyPrices src tag) src tag 0x26 true (fun _ r s =>
    match s.prices.staged.state with
    | .waiting => answer r .okPending s.prices.pendingBytes s
    | .complete =>
      match s.prices.attempt with
      | (b, some (.completed g d)) => answer r .ok (Activation.bytes (.completed g d) b) { s with prices := b }
      | (b, _) => answer r .okPending b.pendingBytes { s with prices := b }
    | _ => answer r .incomplete s.prices.staged.markBytes s) s

/-- The staged states in the order of R78. -/
def StagedState.code : StagedState → Byte
  | .empty => 1
  | .part => 2
  | .complete => 3
  | .waiting => 4

/-- CLEAR_STAGED (R78). -/
def execClearStaged (src : Link) (tag : Byte) (s : State) : Host.Outcome State Fault Refusal :=
  request (.clearStaged src tag) src tag 0x27 true (fun _ r s =>
    answer r .ok [s.prices.staged.state.code]
      { s with prices := { s.prices with staged := Staged.empty, mode := .manual } }) s

-- ## QUERY_PRICES (R85, section 12.5)

/-- The TICKETS part. -/
def ticketsBytes (t : Tab Nat 12) : List Byte := t.list.flatMap amountBytes
/-- The SURCHARGES part. -/
def Surcharges.bytes (s : Surcharges) : List Byte := s.classes.list.flatMap amountBytes ++ bytes1 s.matinee
/-- The COMBOS part. -/
def combosBytes (c : Tab ComboPrice 8) : List Byte :=
  c.list.flatMap (fun k => amountBytes k.combo ++ amountBytes k.bundle ++ flagByte k.offered)
/-- The RATES part. -/
def Rates.bytes (r : Rates) : List Byte := bytes1 r.threshold ++ bytes1 r.percent ++ bytes1 r.tax
/-- A price set. -/
def PriceSet.bytes (p : PriceSet) : List Byte :=
  ticketsBytes p.base ++ p.surcharges.bytes ++ combosBytes p.combos ++ p.rates.bytes

/-- A part, zero where it is not staged. -/
def partBytes {α : Type} (f : α → List Byte) (size : Nat) (o : Option α) : List Byte :=
  o.elim (List.replicate size 0) f

/-- ACTIVE or RETAINED: present flag, generation, count, price set. -/
def fullBankBytes (k : Option Bank) : List Byte :=
  optionalBytes (fun k => bytes1 k.generation ++ bytes1 k.count ++ k.set.bytes) 138 k

/-- The apply mode and its minute, zero outside AT_MINUTE. -/
def ApplyMode.bytes : ApplyMode → List Byte
  | .manual => [1, 0, 0]
  | .atMinute t => 2#8 :: bytes2 t
  | .onLastPart => [3, 0, 0]

/-- The fields that follow the bank named. -/
def PriceBook.bankFields (b : PriceBook) (bank : Nat) : List Byte :=
  if bank = 1 then fullBankBytes b.active
  else if bank = 2 then fullBankBytes b.retained
  else [b.staged.state.code] ++ b.staged.markBytes ++ b.mode.bytes
    ++ partBytes ticketsBytes 48 b.staged.tickets ++ partBytes Surcharges.bytes 13 b.staged.surcharges
    ++ partBytes combosBytes 72 b.staged.combos ++ partBytes Rates.bytes 3 b.staged.rates

/-- QUERY_PRICES (R85): 1 ACTIVE, 2 RETAINED, 3 STAGED. -/
def execQueryPrices (src : Link) (tag : Byte) (bank : Byte) (s : State) : Host.Outcome State Fault Refusal :=
  request (.queryPrices src tag bank) src tag 0x28 true (fun _ r s =>
    if bank.toNat = 0 ∨ 3 < bank.toNat then answer r .badRequest [] s
    else answer r .ok (bank :: (bytes1 s.prices.nextGeneration ++ s.prices.bankFields bank.toNat)) s) s

end Sys2Proof.Machine
end

