-- ==== Sys2Proof/Machine/Printing.lean ====
section
/-! DEFINITION. Meanings: the operator's requests on a ticket line, and the printers' messages (R144, R147,
R148, R150 to R153). -/

namespace Sys2Proof.Machine

/-- A request naming a ticket line: any other line is answered BAD_REQUEST. -/
def onNamedLine (b : Byte) (r : Reply) (f : Fin 8 → State → State) (s : State) : State :=
  match readTicketLine b with
  | none => answer r .badRequest [] s
  | some i => f i s

/-- POWER_ON carried out (R144). -/
def powerUp (i : Fin 8) (s : State) : State :=
  wake i (s.onTicketLine i (fun l =>
    { l.watching s.params.filterTime with state := .idle, status := .none, sinceRest := 0 }))

/-- POWER_ON (R144). -/
def execPowerOn (src : Link) (tag : Byte) (line : Byte) (s : State) : Host.Outcome State Fault Refusal :=
  request (.powerOn src tag line) src tag 0x3C true (fun _ r => onNamedLine line r (fun i s =>
    if (s.ticketLine i).state = .off ∧ (s.ticketLine i).capture = none then answer r .ok [] (powerUp i s)
    else answer r .wrongState [] s)) s

/-- POWER_OFF (R144). -/
def execPowerOff (src : Link) (tag : Byte) (line : Byte) (s : State) : Host.Outcome State Fault Refusal :=
  request (.powerOff src tag line) src tag 0x3D true (fun _ r => onNamedLine line r (fun i s =>
    answer r .ok [] (powerDown i s))) s

/-- STOP in IDLE, WAIT_POWER or RESTING: the line stops at once (R150). -/
def stopNow (i : Fin 8) (s : State) : State :=
  release i (fun l => { l with state := .stopped, cause := some .stop, rest := none }) s

/-- STOP (R150). -/
def execStop (src : Link) (tag : Byte) (line : Byte) (s : State) : Host.Outcome State Fault Refusal :=
  request (.stop src tag line) src tag 0x3E true (fun _ r => onNamedLine line r (fun i s =>
    match (s.ticketLine i).state with
    | .printing => answer r .ok [] (s.onTicketLine i (fun l => { l with stopPending := true }))
    | .stopped => answer r .ok [] s
    | .off => answer r .wrongState [] s
    | .halted => answer r .wrongState [] s
    | _ => answer r .ok [] (stopNow i s))) s

/-- HALT where the line halts at once (R151). -/
def haltNow (i : Fin 8) (s : State) : State :=
  release i (fun l => { l with state := .halted, rest := none, sinceRest := 0, haltPending := false }) s

/-- R151: whether the head job of a line is started. -/
def TicketLine.headStarted (l : TicketLine) : Bool := l.queue.head?.any (·.started)

/-- HALT (R151). -/
def execHalt (src : Link) (tag : Byte) (line : Byte) (s : State) : Host.Outcome State Fault Refusal :=
  request (.halt src tag line) src tag 0x3F true (fun _ r => onNamedLine line r (fun i s =>
    let marked := s.onTicketLine i (fun l => { l with haltPending := true })
    let started := (s.ticketLine i).headStarted
    match (s.ticketLine i).state with
    | .printing => answer r .ok [] marked
    | .stopped => if started then answer r .ok [] marked else answer r .wrongState [] s
    | .resting => if started then answer r .ok [] marked else answer r .ok [] (haltNow i s)
    | .halted => answer r .ok [] s
    | .off => answer r .wrongState [] s
    | _ => answer r .ok [] (haltNow i s))) s

/-- R152: what refuses a RESUME: another state, a filled capture, or POWER_CUT beside a line still stopped
for OVERCURRENT. -/
def State.mayResume (s : State) (i : Fin 8) : Bool :=
  let l := s.ticketLine i
  (l.state == .stopped || l.state == .halted) && l.capture.isNone
    && !(l.cause == some .powerCut
      && s.print.lines.list.any (fun k => k.state == .stopped && k.cause == some .overcurrent))

/-- RESUME carried out (R152). -/
def resumeLine (i : Fin 8) (s : State) : State :=
  wake i (s.onTicketLine i (fun l => { (if l.powered then l else l.watching s.params.filterTime) with
    state := .idle, cause := none, stopPending := false
    status := if l.cause = some .powerCut then .none else l.status }))

/-- RESUME (R152). -/
def execResume (src : Link) (tag : Byte) (line : Byte) (s : State) : Host.Outcome State Fault Refusal :=
  request (.resume src tag line) src tag 0x40 true (fun _ r => onNamedLine line r (fun i s =>
    if s.mayResume i then answer r .ok [] (resumeLine i s) else answer r .wrongState [] s)) s

/-- The element a fault spoiled: sale number, kind, index. -/
def Spoiled.bytes (x : Spoiled) : List Byte := bytes3 x.sale ++ [x.kind.code] ++ bytes1 x.index

/-- A capture, or the indication that it is empty. -/
def captureBytes (c : Option Capture) : List Byte :=
  optionalBytes (fun c => [c.cause.captureCode] ++ optionalBytes Spoiled.bytes 5 c.element) 7 c

/-- R152: a line after CLEAR. A halt-pending mark set while it was STOPPED for OVERCURRENT stays as it goes to OFF
(DESIGN CHOICE, log entry 43). -/
def TicketLine.cleared (l : TicketLine) : TicketLine :=
  if l.state = .stopped ∧ l.cause = some .overcurrent then
    { l with capture := none, state := .off, cause := none }
  else { l with capture := none }

/-- CLEAR (R152). -/
def execClear (src : Link) (tag : Byte) (line : Byte) (s : State) : Host.Outcome State Fault Refusal :=
  request (.clear src tag line) src tag 0x41 true (fun _ r => onNamedLine line r (fun i s =>
    answer r .ok (captureBytes (s.ticketLine i).capture) (s.onTicketLine i TicketLine.cleared))) s

-- ## The printer's messages (R147, R148, R153, R178)

/-- An element's result: 1 PRINTED, 2 SPOILED. -/
def readElementResult (b : Byte) : Option ElementResult :=
  if b = 1 then some .printed else if b = 2 then some .spoiled else none

/-- ELEMENT_DONE (R147, R148): any but the element in flight's is discarded. -/
def execElementDone (line : Fin 8) (element result : Byte) (s : State) : Host.Outcome State Fault Refusal :=
  message (.tl line) (.elementDone line element result) (fun s =>
    match s.inFlight line, readElementResult result with
    | some e, some x => if e.val = element.toNat then completeElement line e x s else s
    | _, _ => s) s

/-- A status a PRINTER_STATE carries (section 12.5), with the fault it is, if it is one (R153). -/
def readStatus (b : Byte) : Option (PrinterStatus × Option Cause) :=
  match b.toNat with
  | 1 => some (.ready, none)
  | 2 => some (.paperLow, none)
  | 3 => some (.paperOut, some .paperOut)
  | 4 => some (.headOpen, some .headOpen)
  | 5 => some (.jam, some .jam)
  | _ => none

/-- PRINTER_STATE (R153): on a powered line. -/
def execPrinterState (line : Fin 8) (status : Byte) (s : State) : Host.Outcome State Fault Refusal :=
  message (.tl line) (.printerState line status) (fun s =>
    match readStatus status with
    | none => s
    | some (st, fault) =>
      if (s.ticketLine line).powered then
        let s := s.onTicketLine line (fun l => { l with status := st })
        match fault with
        | none => s
        | some c => printerFault line c s
      else s) s

end Sys2Proof.Machine
end

