-- ==== Sys2Proof/Machine/Resets.lean ====
section
/-! DEFINITION. Meanings: the three resets, the second tick, the clock second, the minute pulse and the
expiries of the part's countdowns (R17 to R28, R70, R100, R101, R105, R110, R121, R149, R170). -/

namespace Sys2Proof.Machine

/-- POWER_ON_RESET (R170). -/
def execPowerOnReset (s : State) : Host.Outcome State Fault Refusal := event (resetPart .powerOn) s

/-- RESET_PIN (R170). -/
def execResetPin (s : State) : Host.Outcome State Fault Refusal := event (resetPart .pin) s

/-- RESTART (R170): answered OK; the reset waits until that answer has been sent whole. -/
def execRestart (src : Link) (tag : Byte) (s : State) : Host.Outcome State Fault Refusal :=
  request (.restart src tag) src tag 0x4C true (fun _ r s =>
    answer r .ok [] { s with ifc := { s.ifc with restart := .answering } }) s

/-- RESTART_RESET (R170). -/
def execRestartReset (s : State) : Host.Outcome State Fault Refusal := event expireRestart s

/-- SECOND_TICK (R17, R18, R69). -/
def execSecondTick (s : State) : Host.Outcome State Fault Refusal := command secondTick s

/-- CLOCK_SECOND (R19, R20, R24). -/
def execClockSecond (s : State) : Host.Outcome State Fault Refusal := command clockSecond s

/-- MINUTE_PULSE (R25 to R28). -/
def execMinutePulse (s : State) : Host.Outcome State Fault Refusal := command takePulse s

/-- NO_PULSE_EXPIRY (R28). -/
def execNoPulseExpiry (s : State) : Host.Outcome State Fault Refusal := event expireNoPulse s

/-- HOLD_COUNTDOWN_EXPIRY (R70). -/
def execHoldCountdownExpiry (slot : Fin 16) (s : State) : Host.Outcome State Fault Refusal :=
  event (expireHold slot) s

/-- ACCEPT_WAIT_EXPIRY (R100, R101). -/
def execAcceptWaitExpiry (line : Fin 8) (s : State) : Host.Outcome State Fault Refusal :=
  event (expireAccept line) s

/-- AUTHORIZATION_WAIT_EXPIRY (R100). -/
def execAuthorizationWaitExpiry (line : Fin 8) (s : State) : Host.Outcome State Fault Refusal :=
  event (expireAuthorization line) s

/-- REVERSAL_INTERVAL_EXPIRY (R105). -/
def execReversalIntervalExpiry (line : Fin 8) (s : State) : Host.Outcome State Fault Refusal :=
  event (expireInterval line) s

/-- REFUND_QUOTE_EXPIRY (R121). -/
def execRefundQuoteExpiry (sale : Nat) (s : State) : Host.Outcome State Fault Refusal :=
  event (expireSaleQuote sale) s

/-- REPRINT_WINDOW_EXPIRY (R110). -/
def execReprintWindowExpiry (station : Fin 8) (s : State) : Host.Outcome State Fault Refusal :=
  event (expireWindow station) s

/-- PRINTER_REST_EXPIRY (R149). -/
def execPrinterRestExpiry (line : Fin 8) (s : State) : Host.Outcome State Fault Refusal :=
  event (expireRest line) s

/-- FILTERED_FAULT (R154, R155), with the beginning and the end of the assertion it filters (log entry 23). -/
def execFilteredFault (line : Fin 8) (input : FaultInput) (s : State) : Host.Outcome State Fault Refusal :=
  command (faultInput line input) s

end Sys2Proof.Machine
end

