-- ==== Sys2Proof/Machine/Sales.lean ====
section
/-! DEFINITION. Meanings: refunds, reprints, the joining of a restore, QUERY_SALE (R119 to R124, R174). -/

namespace Sys2Proof.Machine

-- ## Refunds (R119 to R121)

/-- Check 4 of R119: the clock is below (start − cutoff) × 60; a cutoff above the start is always too late. -/
def State.inTime (s : State) (r : Sale) : Bool :=
  s.clock.value < (s.startOf r.screening - s.params.refundCutoff) * 60

/-- REFUND_QUOTE (R119, R90). A restored sale whose REDEEMED charges sum above its total is quoted 0 (DESIGN CHOICE,
log entry 42). -/
def execRefundQuote (src : Link) (tag : Byte) (sale : BitVec 24) (s : State) :
    Host.Outcome State Fault Refusal :=
  request (.refundQuote src tag sale) src tag 0x2C true (fun _ r s =>
    match s.sale sale.toNat with
    | none => answer r .noSuch [] s
    | some k =>
      if k.state ≠ .committed then answer r .wrongState [] s
      else if k.jobLive then answer r .printing [] s
      else if !s.inTime k then answer r .tooLate [] s
      else
        let amount := k.total - s.redeemedSum k.number
        let suspended := s.countVouchers k.number .issued
        let deducted := s.countVouchers k.number .redeemed
        let n := s.params.quoteTime
        let s := s.onSale k.number (fun k => { k with state := .refundPending, quote := some ⟨amount, n, none⟩ })
        answer r .ok (amountBytes amount ++ amountBytes k.total ++ bytes1 suspended ++ bytes1 deducted
          ++ bytes2 n) (suspendVouchers k.number s)) s

/-- The quote of a sale in REFUND_PENDING whose REFUND_COMMIT-taken mark is off. -/
def Sale.openQuote (k : Sale) : Option Quote :=
  if k.state = .refundPending then k.quote.filter (fun q => q.taken.isNone) else none

/-- REFUND_COMMIT (R120): the refund completes, and is answered, when FREE_SALE has been carried out. -/
def execRefundCommit (src : Link) (tag : Byte) (sale : BitVec 24) (amount : BitVec 32) (s : State) :
    Host.Outcome State Fault Refusal :=
  request (.refundCommit src tag sale amount) src tag 0x2D (readAmount amount).isSome (fun _ r s =>
    match s.sale sale.toNat with
    | none => answer r .noSuch [] s
    | some k =>
      match k.openQuote with
      | none => answer r .wrongState [] s
      | some q =>
        if readAmount amount ≠ some q.amount then answer r .amountMismatch (amountBytes q.amount) s
        else
          placeEntry (.freeSale k.screening k.number)
            (s.onSale k.number (fun k => { k with quote := some { q with seconds := 0, taken := some r } }))) s

/-- REFUND_CANCEL (R121). -/
def execRefundCancel (src : Link) (tag : Byte) (sale : BitVec 24) (s : State) :
    Host.Outcome State Fault Refusal :=
  request (.refundCancel src tag sale) src tag 0x2E true (fun _ r s =>
    match s.sale sale.toNat with
    | none => answer r .noSuch [] s
    | some k =>
      match k.openQuote with
      | none => answer r .wrongState [] s
      | some _ => answer r .ok [] (endQuote k.number s)) s

-- ## Reprints (R122, R123)

/-- A ticket set: ALL (`some none`), or one index 0–9. -/
def readTicketSet (b : Byte) : Option (Option Nat) :=
  if b = 0xFE then some none else if b.toNat ≤ 9 then some (some b.toNat) else none

/-- The tickets a set names in a sale. -/
def namedTickets (k : Sale) : Option Nat → List Nat
  | none => List.range k.tickets.length
  | some i => [i]

/-- Check 7 of R122, for one ticket. -/
def judgeTicket (override : Bool) (t : Ticket) : Option Result :=
  if t.state ≠ .printed then none
  else if !override then some .wrongState
  else if t.used = 2 then some .limit else none

/-- R123: the reprints used of the named tickets that were PRINTED rise by one. -/
def countReprints (named : List Nat) (tickets : List Ticket) : List Ticket :=
  tickets.zipIdx.map (fun x =>
    if named.contains x.2 ∧ x.1.state = .printed then { x.1 with used := x.1.used + 1 } else x.1)

/-- Check 3 of R122: a kiosk reprints its station's last sale alone, its window running. -/
def State.mayReprint (s : State) (who : Requester) (n : Nat) : Bool :=
  match who with
  | .office => true
  | .station st => (s.sales.last.get st).any (fun l => l.number == n)
  | .concession _ => false

/-- The ticket line of a reprint: the office's, or the one the kiosk's station is bound to (R123). -/
def State.reprintLine (s : State) (who : Requester) (line : Byte) : Option (Fin 8) :=
  match who with
  | .station st => (s.binding st).map (·.ticket)
  | _ => readTicketLine line

/-- R123: an accepted REPRINT. Its job's origin is the requester, not the sale's origin (DESIGN CHOICE, log
entry 36). -/
def runReprint (who : Requester) (r : Reply) (line : Byte) (k : Sale) (named : List Nat) (s : State) : State :=
  match s.reprintLine who line with
  | none => answer r .ok [PrintOutcome.notQueued.code] s
  | some i =>
    let origin := who.owner.getD .office
    let (o, s) := requestJob i k origin (.reprint named) s
    let s := if o = .notQueued then s
      else s.onSale k.number (fun k => { k with jobLive := true, tickets := countReprints named k.tickets })
    answer r .ok [o.code] s

/-- REPRINT (R122, R123). From a kiosk the line and the override are not read. -/
def execReprint (src : Link) (tag : Byte) (sale : BitVec 24) (set line override : Byte) (s : State) :
    Host.Outcome State Fault Refusal :=
  request (.reprint src tag sale set line override) src tag 0x2F
    ((readFlag override).isSome && (readLine line).isSome) (fun who r s =>
      let office := who == .office
      match readTicketSet set with
      | none => answer r .badRequest [] s
      | some given =>
        if office && (readTicketLine line).isNone then answer r .badRequest [] s
        else
          match s.sale sale.toNat with
          | none => answer r .noSuch [] s
          | some k =>
            let named := namedTickets k given
            if !s.mayReprint who k.number then answer r .notAllowed [] s
            else if k.state ≠ .committed then answer r .wrongState [] s
            else if named.any (fun i => k.tickets.length ≤ i) then answer r .badRequest [] s
            else if k.jobLive then answer r .printing [] s
            else
              match (named.filterMap (k.tickets[·]?)).findSome? (judgeTicket (office && override == 1)) with
              | some refusal => answer r refusal [] s
              | none => runReprint who r line k named s) s

-- ## RESTORE_SALE and QUERY_SALE (R53, R124, R174)

/-- RESTORE_SALE (R53, R124): its RESTORE_SEATS joins the queue as the office's entry; every check is made
when it is taken. -/
def execRestoreSale (src : Link) (tag : Byte) (f : SaleFields) (s : State) : Host.Outcome State Fault Refusal :=
  request (.restoreSale src tag f) src tag 0x30 true (fun _ r s => placeEntry (.restore r f) s) s

/-- QUERY_SALE (R174). -/
def execQuerySale (src : Link) (tag : Byte) (sale : BitVec 24) (s : State) : Host.Outcome State Fault Refusal :=
  request (.querySale src tag sale) src tag 0x31 true (fun _ r s =>
    match s.sale sale.toNat with
    | none => answer r .noSuch [] s
    | some k => answer r .ok k.bytes s) s

end Sys2Proof.Machine
end

