-- ==== Sys2Proof/Machine/Seats.lean ====
section
/-! DEFINITION. Meanings: the joining of the seat request queue, the arbiter's steps, and SET_LEVEL (R33 to
R53). Each step of the arbiter carries out the entry that the arbiter's choice takes, where it is of the
command's kind. -/

namespace Sys2Proof.Machine

-- ## Joining (R33)

/-- The kind byte of a seat request (section 12.3). -/
def seatRequestKind : SeatRequest → Byte
  | .holdSeats _ _ _ _ => 0x10
  | .holdBest _ _ _ _ _ _ => 0x11
  | .releaseSeats _ _ _ => 0x12
  | .setType _ _ _ _ => 0x13
  | .queryMap _ _ _ => 0x14
  | .blockSeats _ _ => 0x15
  | .unblockSeats _ _ => 0x16

/-- SEAT_REQUEST_JOIN (R33): the request joins the queue; its fields are judged when it is taken (R37). -/
def execSeatRequestJoin (src : Link) (tag : Byte) (q : SeatRequest) (s : State) :
    Host.Outcome State Fault Refusal :=
  request (.seatRequestJoin src tag q) src tag (seatRequestKind q) true (fun who r s =>
    match who.owner with
    | none => answer r .notAllowed [] s
    | some o => placeEntry (.request o r q) s) s

-- ## The records a seat request names (R36)

/-- What a request naming a basket reaches: the slot, the basket, its screening and its plan. -/
structure Reach where
  slot : Fin 16
  basket : Basket
  screening : Screening
  header : PlanHeader
  rows : List (List Cell)
deriving DecidableEq, Repr

/-- R36: the live basket of a slot and ref that a requester owns, with the screening and plan it names. -/
def State.reach (s : State) (who : Owner) (slot : Byte) (ref : BitVec 16) : Option Reach :=
  match readSlot slot with
  | none => none
  | some i =>
    match s.basket i ref.toNat with
    | none => none
    | some b =>
      if b.owner ≠ who then none
      else
        match s.screening b.screening with
        | none => none
        | some c => (s.plan c.plan).map (fun p => ⟨i, b, c, p.1, p.2⟩)

/-- A screening by id, with its plan. -/
def State.reachScreening (s : State) (id : BitVec 16) :
    Option (Screening × PlanHeader × List (List Cell)) :=
  match s.screening id.toNat with
  | none => none
  | some c => (s.plan c.plan).map (fun p => (c, p.1, p.2))

/-- The seat a reference names. -/
def seatOf (x : SeatRef) : Seat := (x.row.toNat, x.pos.toNat)

/-- The first listed seat for which `p` fails, as an answer carries it. -/
def firstFailing (p : Seat → Bool) (seats : List Seat) : Option (List Byte) :=
  (seats.find? (fun x => !p x)).map (fun x => seatBytes x.1 x.2)

-- ## HOLD_SEATS (R37 to R40)

/-- Whether a list names each seat at most once. -/
def distinct (seats : List Seat) : Bool := decide seats.Nodup

/-- The form of a HOLD_SEATS: 1–10 seats, each once, each with a ticket type; the override a flag. -/
def holdForm (wishes : List SeatWish) (override : Byte) : Option (List (Seat × TicketType) × Bool) :=
  match readAll (fun w => (readTicketType w.type).map (fun t => (seatOf w.seat, t))) wishes, readFlag override with
  | some xs, some o =>
    if 1 ≤ xs.length ∧ xs.length ≤ 10 ∧ distinct (xs.map Prod.fst) then some (xs, o) else none
  | _, _ => none

/-- R39: among lines, whether one stands on a WHEELCHAIR cell. -/
def hasWheelchair (rows : List (List Cell)) (seats : List Seat) : Bool :=
  seats.any (fun x => kindAt rows x == some .wheelchair)

/-- The seats of seat lines. -/
def lineSeats (lines : List SeatLine) : List Seat := lines.map (fun l => (l.row, l.pos))

/-- R39: the companion conditions for a seat that is to carry a type. -/
def companionOk (rows : List (List Cell)) (held : List Seat) (x : Seat) (t : TicketType) : Bool :=
  t != .companion || (kindAt rows x == some .companionSeat && hasWheelchair rows held)

/-- Check 5 of R37: a WHEELCHAIR cell in a station basket needs the plan's flag. -/
def wheelchairOk (h : PlanHeader) (rows : List (List Cell)) (who : Owner) (x : Seat) : Bool :=
  kindAt rows x != some .wheelchair || h.kioskWheelchair || who == .office

/-- The answer to an accepted hold: the number of seat lines (R38). -/
def heldLines (s : State) (x : Reach) : List Byte :=
  bytes1 ((s.basket x.slot x.basket.ref).elim 0 (fun b => b.lines.length))

/-- HOLD_SEATS carried out (R37, R38). -/
def runHoldSeats (who : Owner) (r : Reply) (slot : Byte) (ref : BitVec 16) (wishes : List SeatWish)
    (override : Byte) (s : State) : State :=
  match holdForm wishes override with
  | none => answer r .badRequest [] s
  | some (xs, o) =>
    match s.reach who slot ref with
    | none => answer r .noSuch [] s
    | some x =>
      let seats := xs.map Prod.fst
      let all := lineSeats x.basket.lines ++ seats
      if x.basket.state ≠ .opened then answer r .wrongState [] s
      else if !x.screening.holdsFor who then answer r .closed [] s
      else if 10 < x.basket.lines.length + xs.length then answer r .limit [] s
      else if !seats.all (fun y => (kindAt x.rows y).isSome) then answer r .badRequest [] s
      else
        match firstFailing (Grid.freeAt x.screening.seats) seats with
        | some taken => answer r .taken taken s
        | none =>
          if !seats.all (wheelchairOk x.header x.rows who) then answer r .notAllowed [] s
          else if !xs.all (fun y => companionOk x.rows all y.1 y.2) then answer r .notAllowed [] s
          else if orphanApplies x.header who o && orphaned x.rows x.screening.seats seats then
            answer r .orphan [] s
          else
            let lines := xs.map (fun y => SeatLine.mk y.1.1 y.1.2 y.2 none)
            let s := holdFor x.slot x.basket x.screening lines s
            answer r .ok (heldLines s x) s

/-- HOLD_SEATS (R37). -/
def execHoldSeats (s : State) : Host.Outcome State Fault Refusal :=
  command (arbitrate (fun e => match e with
    | .request who r (.holdSeats slot ref seats o) => some (runHoldSeats who r slot ref seats o)
    | _ => none)) s

-- ## HOLD_BEST (R41 to R43)

/-- The form of a HOLD_BEST: n 1–10, one of the five filters, exactly n types, none COMPANION. -/
def bestForm (count filter : Byte) (types : List Byte) (override : Byte) :
    Option (Option Zone × List TicketType × Bool) :=
  match readZoneFilter filter, readAll readTicketType types, readFlag override with
  | some z, some ts, some o =>
    if 1 ≤ count.toNat ∧ count.toNat ≤ 10 ∧ ts.length = count.toNat ∧ !ts.contains .companion then
      some (z, ts, o)
    else none
  | _, _, _ => none

/-- HOLD_BEST taken: checks 1 and 2 of R37, and then the search is under way (R41, R43). -/
def runHoldBest (who : Owner) (r : Reply) (slot : Byte) (ref : BitVec 16) (count filter : Byte)
    (types : List Byte) (override : Byte) (s : State) : State :=
  match bestForm count filter types override with
  | none => answer r .badRequest [] s
  | some (z, ts, o) =>
    match s.reach who slot ref with
    | none => answer r .noSuch [] s
    | some x =>
      if x.basket.state ≠ .opened then answer r .wrongState [] s
      else if !x.screening.holdsFor who then answer r .closed [] s
      else if 10 < x.basket.lines.length + count.toNat then answer r .limit [] s
      else { s with engine := { s.engine with
        search := some ⟨who, r, x.slot, ref.toNat, count.toNat, z, ts, o⟩ } }

/-- HOLD_BEST (R41). -/
def execHoldBest (s : State) : Host.Outcome State Fault Refusal :=
  command (arbitrate (fun e => match e with
    | .request who r (.holdBest slot ref n z ts o) => some (runHoldBest who r slot ref n z ts o)
    | _ => none)) s

/-- The end of a search (R42, R43): the basket is read again, and the winner held. -/
def runSearchEnd (q : Search) (s : State) : State :=
  match s.reach q.who (BitVec.ofNat 8 q.slot.val) (BitVec.ofNat 16 q.ref) with
  | none => answer q.reply .noSuch [] s
  | some x =>
    if x.basket.state ≠ .opened then answer q.reply .wrongState [] s
    else
      let g := x.screening.seats
      let rule := orphanApplies x.header q.who q.override
      match bestOf (score x.header q.count) (candidates x.rows g q.zone rule q.count) with
      | none => answer q.reply .noBlock (bytes1 (longestRun x.rows g q.zone)) s
      | some (row, f) =>
        let lines := ((runSeats row f q.count).zip q.types).map (fun y => SeatLine.mk y.1.1 y.1.2 y.2 none)
        let s := holdFor x.slot x.basket x.screening lines s
        answer q.reply .ok (seatBytes row f ++ bytes1 q.count ++ heldLines s x) s

/-- BEST_BLOCK_SEARCH_END (R43). -/
def execBestBlockSearchEnd (s : State) : Host.Outcome State Fault Refusal :=
  command (fun s =>
    match s.engine.search with
    | none => s
    | some q => runSearchEnd q { s with engine := { s.engine with search := none } }) s

-- ## RELEASE_SEATS and SET_TYPE (R44 to R46)

/-- R45: the release would remove the last WHEELCHAIR line while a COMPANION line remains. -/
def leavesCompanion (rows : List (List Cell)) (before after : List SeatLine) : Bool :=
  hasWheelchair rows (lineSeats before) && !hasWheelchair rows (lineSeats after)
    && after.any (fun l => l.type == .companion)

/-- RELEASE_SEATS carried out (R44). -/
def runReleaseSeats (who : Owner) (r : Reply) (slot : Byte) (ref : BitVec 16) (refs : List SeatRef)
    (s : State) : State :=
  let seats := refs.map seatOf
  if seats.length = 0 ∨ 10 < seats.length ∨ !distinct seats then answer r .badRequest [] s
  else
    match s.reach who slot ref with
    | none => answer r .noSuch [] s
    | some x =>
      let mine := lineSeats x.basket.lines
      if x.basket.state ≠ .opened then answer r .wrongState [] s
      else
        match firstFailing mine.contains seats with
        | some other => answer r .noSuch other s
        | none =>
          let left := x.basket.lines.filter (fun l => !seats.contains (l.row, l.pos))
          if leavesCompanion x.rows x.basket.lines left then answer r .dependent [] s
          else answer r .ok (bytes1 left.length) (releaseFor x.slot x.basket x.screening seats s)

/-- RELEASE_SEATS (R44). -/
def execReleaseSeats (s : State) : Host.Outcome State Fault Refusal :=
  command (arbitrate (fun e => match e with
    | .request who r (.releaseSeats slot ref seats) => some (runReleaseSeats who r slot ref seats)
    | _ => none)) s

/-- SET_TYPE carried out (R46). -/
def runSetType (who : Owner) (r : Reply) (slot : Byte) (ref : BitVec 16) (seat : SeatRef) (type : Byte)
    (s : State) : State :=
  match readTicketType type with
  | none => answer r .badRequest [] s
  | some t =>
    match s.reach who slot ref with
    | none => answer r .noSuch [] s
    | some x =>
      let y := seatOf seat
      if x.basket.state ≠ .opened then answer r .wrongState [] s
      else if !(lineSeats x.basket.lines).contains y then answer r .noSuch [] s
      else if !companionOk x.rows (lineSeats x.basket.lines) y t then answer r .notAllowed [] s
      else
        let lines := x.basket.lines.map (fun l => if (l.row, l.pos) = y then { l with type := t } else l)
        answer r .ok [] (s.putBasket x.slot { x.basket with lines := lines })

/-- SET_TYPE (R46). -/
def execSetType (s : State) : Host.Outcome State Fault Refusal :=
  command (arbitrate (fun e => match e with
    | .request who r (.setType slot ref seat t) => some (runSetType who r slot ref seat t)
    | _ => none)) s

-- ## QUERY_MAP (R49)

/-- QUERY_MAP carried out (R49). -/
def runQueryMap (who : Owner) (r : Reply) (id : BitVec 16) (first last : Byte) (s : State) : State :=
  match s.reachScreening id with
  | none => answer r .noSuch [] s
  | some (c, h, _) =>
    let a := first.toNat
    let b := last.toNat
    if a = 0 ∨ h.rows < b ∨ b < a then answer r .badRequest [] s
    else if 16 < b + 1 - a then answer r .limit [] s
    else answer r .ok (mapBytes (who == .office) h c.seats a b) s

/-- QUERY_MAP (R49). -/
def execQueryMap (s : State) : Host.Outcome State Fault Refusal :=
  command (arbitrate (fun e => match e with
    | .request who r (.queryMap id a b) => some (runQueryMap who r id a b)
    | _ => none)) s

-- ## BLOCK_SEATS and UNBLOCK_SEATS (R47, R48)

/-- BLOCK_SEATS and UNBLOCK_SEATS carried out: entries in `source` become `target`; a HELD or SOLD seat
gives TAKEN. -/
def runFlip (source target : SeatState) (r : Reply) (id : BitVec 16) (refs : List SeatRef) (s : State) :
    State :=
  let seats := refs.map seatOf
  if seats.length = 0 ∨ 40 < seats.length ∨ !distinct seats then answer r .badRequest [] s
  else
    match s.reachScreening id with
    | none => answer r .noSuch [] s
    | some (c, _, rows) =>
      if !seats.all (fun y => (kindAt rows y).isSome) then answer r .badRequest [] s
      else
        match firstFailing (fun y => Grid.at c.seats y == some source || Grid.at c.seats y == some target)
            seats with
        | some taken => answer r .taken taken s
        | none =>
          let g := Grid.flip c.seats source target seats
          answer r .ok (Grid.counts g).bytes (s.putSeats c.id g)

/-- BLOCK_SEATS (R47). -/
def execBlockSeats (s : State) : Host.Outcome State Fault Refusal :=
  command (arbitrate (fun e => match e with
    | .request _ r (.blockSeats id seats) => some (runFlip .free .blocked r id seats)
    | _ => none)) s

/-- UNBLOCK_SEATS (R48). -/
def execUnblockSeats (s : State) : Host.Outcome State Fault Refusal :=
  command (arbitrate (fun e => match e with
    | .request _ r (.unblockSeats id seats) => some (runFlip .blocked .free r id seats)
    | _ => none)) s

-- ## SET_LEVEL (R35)

/-- A level: 1 HIGH, 2 LOW. -/
def readLevel (b : Byte) : Option Level := if b = 1 then some .high else if b = 2 then some .low else none

/-- SET_LEVEL (R35); the requester is read as an owner byte, 1–8 a station and 0x80 OFFICE (DESIGN CHOICE, log
entry 37). -/
def execSetLevel (src : Link) (tag : Byte) (requester level : Byte) (s : State) :
    Host.Outcome State Fault Refusal :=
  request (.setLevel src tag requester level) src tag 0x17 true (fun _ r s =>
    match readOwner requester, readLevel level with
    | some o, some l =>
      answer r .ok [(s.engine.levels.get o.ring).code]
        { s with engine := { s.engine with levels := s.engine.levels.set o.ring l } }
    | _, _ => answer r .badRequest [] s) s

-- ## Internal entries (R50 to R52)

/-- RELEASE_BASKET carried out (R50): the seats held with the slot and ref become FREE, and the basket
leaves its slot. -/
def runReleaseBasket (slot : Fin 16) (ref screening : Nat) (s : State) : State :=
  let freed := (s.screening screening).elim 0 (fun c => Grid.heldBy c.seats slot.val ref)
  let s := s.onScreening screening (fun c => c.withSeats (Grid.freeHeld c.seats slot.val ref))
  match s.basket slot ref with
  | none => s
  | some b => basketLeaves slot b freed s

/-- RELEASE_BASKET (R50). -/
def execReleaseBasket (s : State) : Host.Outcome State Fault Refusal :=
  command (arbitrate (fun e => match e with
    | .releaseBasket slot ref screening => some (runReleaseBasket slot ref screening)
    | _ => none)) s

/-- SELL_BASKET carried out (R51): the seats of the basket's lines become SOLD in order, and the commit
completes. -/
def runSellBasket (slot : Fin 16) (ref screening sale : Nat) (s : State) : State :=
  match s.basket slot ref, s.sales.commits.find? (fun c => c.number == sale) with
  | some b, some c =>
    completeCommit slot b c
      (s.onScreening screening (fun k => k.withSeats (Grid.sell k.seats sale (lineSeats b.lines))))
  | _, _ => s

/-- SELL_BASKET (R51). -/
def execSellBasket (s : State) : Host.Outcome State Fault Refusal :=
  command (arbitrate (fun e => match e with
    | .sellBasket slot ref screening sale => some (runSellBasket slot ref screening sale)
    | _ => none)) s

/-- FREE_SALE carried out (R52): the seats sold with the number become FREE, and the refund completes. -/
def runFreeSale (screening sale : Nat) (s : State) : State :=
  let s := s.onScreening screening (fun k => k.withSeats (Grid.freeSold k.seats sale))
  match s.sale sale with
  | none => s
  | some r =>
    match r.quote with
    | none => s
    | some q => completeRefund r q s

/-- FREE_SALE (R52). -/
def execFreeSale (s : State) : Host.Outcome State Fault Refusal :=
  command (arbitrate (fun e => match e with
    | .freeSale screening sale => some (runFreeSale screening sale)
    | _ => none)) s

-- ## RESTORE_SEATS (R53, R124)

/-- A ticket state. -/
def readTicketState (b : Byte) : Option TicketState :=
  match b.toNat with
  | 1 => some .unprinted
  | 2 => some .printed
  | 3 => some .spoiled
  | _ => none

/-- A restored ticket; none where a field is malformed or out of its range (R110, R88). -/
def readRestoredTicket (f : TicketFields) : Option Ticket :=
  match readTicketType f.type, readAmount f.price, readTicketState f.state with
  | some t, some p, some st =>
    let (r, q) := seatOf f.seat
    if 1 ≤ r ∧ r ≤ 26 ∧ 1 ≤ q ∧ q ≤ 40 ∧ p ≤ 59998 ∧ f.used.toNat ≤ 2 then
      some ⟨r, q, t, p, st, f.used.toNat⟩
    else none
  | _, _, _ => none

/-- The redemption of a restored REDEEMED voucher: CL0–CL3 or OFFICE, and a minute of the day (R125). -/
def readRedemption (link : Byte) (minute : Nat) : Option Redemption :=
  if 2879 < minute then none
  else
    match readLine link with
    | some (.line (.cl n)) => some ⟨some n, minute⟩
    | some (.line .ol) => some ⟨none, minute⟩
    | _ => none

/-- A restored voucher: ISSUED, REDEEMED or LAPSED, its check digit correct (R124, R128) and its code one that
R127 can form, so that no live record has a code that R128 does not find (log entry 18). -/
def readRestoredVoucher (sale screening : Nat) (f : VoucherFields) : Option Voucher :=
  match readCode f.code, readKind f.kind, readAmount f.price, readLine f.link with
  | some c, some k, some p, some _ =>
    if 9999 < p ∨ !checkAgrees c ∨ !codeInRange c then none
    else
      match f.state.toNat with
      | 1 => some ⟨c, k, sale, screening, p, .issued, none⟩
      | 3 => (readRedemption f.link f.minute.toNat).map (fun x => ⟨c, k, sale, screening, p, .redeemed, some x⟩)
      | 5 => some ⟨c, k, sale, screening, p, .lapsed, none⟩
      | _ => none
  | _, _, _, _ => none

/-- A restored payment: present, with PL0–PL7, a pay ref and a printable approval code, or absent, and then the bytes
behind its flag are not judged (DESIGN CHOICE, log entry 39). -/
def readPayment (f : SaleFields) : Option (Option Payment) :=
  match readFlag f.paid with
  | none => none
  | some false => some none
  | some true =>
    match readPayLine f.payLine with
    | some l =>
      if f.payRef.toNat ≠ 0 ∧ f.approval.length = 6 ∧ f.approval.all printable then
        some (some ⟨l, f.payRef.toNat, f.approval⟩)
      else none
    | none => none

/-- An amount within a bound. -/
def readBounded (bound : Nat) (w : BitVec 32) : Option Nat :=
  (readAmount w).filter (fun n => n ≤ bound)

/-- The sale and vouchers of a RESTORE_SALE; none where check 1 of R124 fails: a field malformed or out of
its range (R88, R110), no ticket, or a seat or a code carried twice. -/
def readRestored (f : SaleFields) : Option (Sale × List Voucher) :=
  let n := f.number.toNat
  let screening := f.screening.toNat
  match readOwner f.origin, readAll readRestoredTicket f.tickets,
      readAll (readRestoredVoucher n screening) f.vouchers, readPayment f with
  | some o, some ts, some vs, some p =>
    match readBounded 599980 f.t, readBounded 179994 f.d, readBounded 79992 f.v, readBounded 679972 f.total,
        readBounded 135994 f.x with
    | some t, some d, some v, some total, some x =>
      if 1 ≤ n ∧ n ≤ 999999 ∧ 1 ≤ screening ∧ 1 ≤ f.generation.toNat ∧ 1 ≤ ts.length ∧ ts.length ≤ 10
          ∧ vs.length ≤ 8 ∧ distinct (ts.map (fun k => (k.row, k.pos))) ∧ (vs.map (·.code)).Nodup then
        some (⟨n, screening, o, f.generation.toNat, ts, vs.map (fun u => ⟨u.code, u.kind, u.price⟩), t, d, v,
          total, x, p, .committed, none, false⟩, vs)
      else none
    | _, _, _, _, _ => none
  | _, _, _, _ => none

/-- Check 6 of R124: of every kind as many units are available as ISSUED and REDEEMED vouchers need. -/
def State.stockFor (s : State) (vs : List Voucher) : Bool :=
  (indices 8).all (fun k =>
    decide (vs.countP (fun v => v.kind == k && v.state != .lapsed) ≤ (s.vouchers.stock.get k).available))

/-- RESTORE_SEATS carried out: the checks of R124 in order, and then the sale, its seats and vouchers. -/
def runRestore (r : Reply) (f : SaleFields) (s : State) : State :=
  match readRestored f with
  | none => answer r .badRequest [] s
  | some (sale, vs) =>
    match s.screening sale.screening with
    | none => answer r .noSuch [] s
    | some c =>
      let seats := sale.tickets.map (fun t => (t.row, t.pos))
      if s.holdsNumber sale.number || vs.any (fun v => (s.voucher v.code).isSome) then answer r .taken [] s
      else if !s.hasRoom vs.length then answer r .tableFull [] s
      else if !seats.all (fun x => (Grid.at c.seats x).isSome) then answer r .badRequest [] s
      else
        match firstFailing (Grid.freeAt c.seats) seats with
        | some taken => answer r .taken taken s
        | none =>
          if !s.stockFor vs then answer r .noStock [] s
          else
            let s := s.putSeats c.id (Grid.sell c.seats sale.number seats)
            let s := { s with sales := { s.sales with records := s.sales.records ++ [sale] } }
            answer r .ok [] (restoreVouchers vs s)

/-- RESTORE_SEATS (R53, R124). -/
def execRestoreSeats (s : State) : Host.Outcome State Fault Refusal :=
  command (arbitrate (fun e => match e with
    | .restore r f => some (runRestore r f)
    | _ => none)) s

end Sys2Proof.Machine
end

