-- ==== Sys2Proof/Machine/Stations.lean ====
section
/-! DEFINITION. Meanings: the station map, station and concession states, CLEAR_FRAME_COUNT and QUERY_LINE
(R160, R165 to R169, R174, R175). -/

namespace Sys2Proof.Machine

-- ## The map (R165, R166)

/-- The stations whose binding `p` names, in order. -/
def State.stationsWith (s : State) (p : Binding → Bool) : List (Fin 8) :=
  (indices 8).filter (fun i => (s.binding i).any p)

/-- Check 3 of R165: the first line that is taken, with the stations that hold it. -/
def State.bindingTaken (s : State) (n : Fin 8) (b : Binding) : Option (Line × List (Fin 8)) :=
  let others (p : Binding → Bool) := (s.stationsWith p).filter (fun i => i != n)
  let k := others (fun x => x.kiosk == b.kiosk)
  let p := others (fun x => x.pay == b.pay)
  let t := others (fun x => x.ticket == b.ticket)
  if k ≠ [] then some (.kl b.kiosk, k)
  else if p ≠ [] then some (.pl b.pay, p)
  else if 2 ≤ t.length then some (.tl b.ticket, t)
  else none

/-- R165, R166: a ticket line left serving no station is taken to OFF as by POWER_OFF. -/
def offIfUnserved (former : Option Binding) (s : State) : State :=
  match former with
  | none => s
  | some b => if s.stationsWith (fun x => x.ticket == b.ticket) = [] then powerDown b.ticket s else s

/-- BIND_STATION carried out (R165). -/
def bindStation (n : Fin 8) (b : Binding) (s : State) : State :=
  offIfUnserved (s.binding n) (s.onStation n (fun _ => ⟨some b, .locked⟩))

/-- BIND_STATION (R165). -/
def execBindStation (src : Link) (tag : Byte) (station kiosk pay ticket : Byte) (s : State) :
    Host.Outcome State Fault Refusal :=
  request (.bindStation src tag station kiosk pay ticket) src tag 0x44 true (fun _ r s =>
    match readStation station, readKioskLine kiosk, readPayLine pay, readTicketLine ticket with
    | some n, some k, some p, some t =>
      let st := (s.ifc.stations.get n).state
      if st = .opened ∨ st = .closing then answer r .wrongState [] s
      else
        match s.bindingTaken n ⟨k, p, t⟩ with
        | some (l, holders) => answer r .taken (lineByte l :: listBytes number1 holders) s
        | none => answer r .ok [] (bindStation n ⟨k, p, t⟩ s)
    | _, _, _, _ => answer r .badRequest [] s) s

/-- UNBIND carried out (R166). -/
def unbindStation (n : Fin 8) (s : State) : State :=
  offIfUnserved (s.binding n) (s.onStation n (fun _ => ⟨none, .unbound⟩))

/-- A request naming a station: a number outside 1–8 is answered BAD_REQUEST. -/
def onNamedStation (b : Byte) (r : Reply) (f : Fin 8 → State → State) (s : State) : State :=
  match readStation b with
  | none => answer r .badRequest [] s
  | some n => f n s

/-- UNBIND (R166). -/
def execUnbind (src : Link) (tag : Byte) (station : Byte) (s : State) : Host.Outcome State Fault Refusal :=
  request (.unbind src tag station) src tag 0x45 true (fun _ r => onNamedStation station r (fun n s =>
    match (s.ifc.stations.get n).state with
    | .unbound => answer r .ok [] s
    | .locked => answer r .ok [] (unbindStation n s)
    | _ => answer r .wrongState [] s)) s

-- ## Opening and closing (R73, R167, R168)

/-- The one live basket of a station. -/
def State.stationBasket (s : State) (n : Fin 8) : Option (Fin 16 × Basket) :=
  s.liveBaskets.find? (fun x => x.2.owner == .station n)

/-- STATION_READY (R167): the station and its lines, its live basket, its last sale and the window. -/
def stationReady (n : Fin 8) (s : State) : State :=
  match s.binding n with
  | none => s
  | some b =>
    notifyStation n 0xE1 (number1 n ++ [lineByte (.kl b.kiosk), lineByte (.pl b.pay), lineByte (.tl b.ticket)]
      ++ optionalBytes (fun (x : Fin 16 × Basket) => bytes1 x.1.val ++ bytes2 x.2.ref ++ [x.2.state.code]) 4
          (s.stationBasket n)
      ++ optionalBytes (fun (l : LastSale) => bytes3 l.number ++ bytes2 l.seconds) 5 (s.sales.last.get n)) s

/-- OPEN_STATION (R167). -/
def execOpenStation (src : Link) (tag : Byte) (station : Byte) (s : State) : Host.Outcome State Fault Refusal :=
  request (.openStation src tag station) src tag 0x46 true (fun _ r => onNamedStation station r (fun n s =>
    match (s.ifc.stations.get n).state with
    | .unbound => answer r .wrongState [] s
    | .opened => answer r .ok [] s
    | _ => stationReady n (answer r .ok [] (s.onStation n (fun k => { k with state := .opened }))))) s

/-- R73, R168: what a close does to the station's basket, and the state the station reaches. -/
def closeStation (n : Fin 8) (s : State) : State :=
  let become (st : StationState) := s.onStation n (fun k => { k with state := st })
  match s.stationBasket n with
  | none => become .locked
  | some (i, b) =>
    match b.state with
    | .doubt => become .locked
    | .opened => endBasket i b .stationClosed (become .closing)
    | .tallied => endBasket i b .stationClosed (become .closing)
    | _ => become .closing

/-- CLOSE_STATION (R168); every OK carries the state the station stands in after it. -/
def execCloseStation (src : Link) (tag : Byte) (station : Byte) (s : State) : Host.Outcome State Fault Refusal :=
  request (.closeStation src tag station) src tag 0x47 true (fun _ r => onNamedStation station r (fun n s =>
    match (s.ifc.stations.get n).state with
    | .unbound => answer r .wrongState [] s
    | .opened =>
      let s' := closeStation n s
      answer r .ok [(s'.ifc.stations.get n).state.code] s'
    | st => answer r .ok [st.code] s)) s

-- ## Concession links (R169)

/-- A concession link made OPEN or LOCKED. -/
def setConcession (n : Fin 4) (on : Bool) (s : State) : State :=
  { s with ifc := { s.ifc with concessionOpen := s.ifc.concessionOpen.set n on } }

/-- OPEN_CONCESSION (R169). -/
def execOpenConcession (src : Link) (tag : Byte) (line : Byte) (s : State) : Host.Outcome State Fault Refusal :=
  request (.openConcession src tag line) src tag 0x48 true (fun _ r s =>
    match readConcession line with
    | none => answer r .badRequest [] s
    | some n => answer r .ok [] (setConcession n true s)) s

/-- CLOSE_CONCESSION (R169). -/
def execCloseConcession (src : Link) (tag : Byte) (line : Byte) (s : State) : Host.Outcome State Fault Refusal :=
  request (.closeConcession src tag line) src tag 0x49 true (fun _ r s =>
    match readConcession line with
    | none => answer r .badRequest [] s
    | some n => answer r .ok [] (setConcession n false s)) s

-- ## Bad-frame counts (R160)

/-- The lines a request names: one of the 29, or ALL. -/
def readLines (b : Byte) : Option (List Line) :=
  match readLine b with
  | some (.line l) => some [l]
  | some .all => some allLines
  | _ => none

/-- CLEAR_FRAME_COUNT (R160): each count as it stood before. -/
def execClearFrameCount (src : Link) (tag : Byte) (line : Byte) (s : State) : Host.Outcome State Fault Refusal :=
  request (.clearFrameCount src tag line) src tag 0x4A true (fun _ r s =>
    match readLines line with
    | none => answer r .badRequest [] s
    | some ls =>
      answer r .ok (listBytes (fun l => bytes2 (s.line l).badFrames) ls)
        (ls.foldl (fun s l => s.onLine l (fun k => { k with badFrames := 0 })) s)) s

-- ## QUERY_LINE (R157, R175)

/-- An outstanding request: kind and tag, or none. -/
def outstandingBytes (o : Option Outstanding) : List Byte := optionalBytes (fun o => [o.kind, o.tag]) 2 o

/-- A kiosk link's part of the answer. -/
def State.kioskBytes (s : State) (n : Fin 8) : List Byte :=
  optionalBytes (fun (st : Fin 8) =>
    number1 st ++ [(s.ifc.stations.get st).state.code, (s.engine.levels.get (Owner.station st).ring).code]) 3
    (s.stationAt n) ++ outstandingBytes (s.ifc.kiosk.get n)

/-- A pay line's part of the answer. -/
def State.payLineBytes (s : State) (n : Fin 8) : List Byte :=
  let l := s.payLine n
  listBytes number1 (s.stationsWith (fun b => b.pay == n))
    ++ optionalBytes Exchange.bytes 5 l.exchange ++ listBytes (PayRecord.bytes n) l.records
    ++ listBytes Reversal.bytes l.queue ++ bytes2 l.stray
    ++ listBytes Doubt.bytes (s.pay.doubts.filter (fun d => d.line == n))

/-- A job in a queue: its fields, and for the head the kind and index of its next element (R157). -/
def State.jobBytes (s : State) (head : Bool) (j : Job) : List Byte :=
  let next := if head then (j.next s.print.pool).bind s.print.pool.get else none
  bytes3 j.sale ++ [ownerByte j.origin] ++ flagByte j.reprint ++ bytes1 j.remaining
    ++ optionalBytes (fun (x : Element) => [x.kind.code] ++ bytes1 x.index) 2 next

/-- A line's hold of the supply (R157): a flag for its grant, and then a byte for its place in the waiting order,
counted from 1, or 0 where it does not wait (DESIGN CHOICE, log entry 37). -/
def State.supplyBytes (s : State) (n : Fin 8) : List Byte :=
  flagByte (s.ticketLine n).granted
    ++ bytes1 (match s.print.order.findIdx? (fun k => k == n) with
      | some i => i + 1
      | none => 0)

/-- A ticket line's part of the answer: everything R157 lists, and the part-wide figures. -/
def State.ticketLineBytes (s : State) (n : Fin 8) : List Byte :=
  let l := s.ticketLine n
  listBytes number1 (s.stationsWith (fun b => b.ticket == n))
    ++ [l.state.code] ++ optionalBytes (fun (c : Cause) => [c.code]) 1 l.cause ++ flagByte l.stopPending
    ++ flagByte l.haltPending ++ bytes1 (s.params.draws.get n) ++ s.supplyBytes n ++ bytes1 l.sinceRest
    ++ optionalBytes bytes2 2 l.rest ++ [l.status.code] ++ captureBytes l.capture
    ++ bytes1 l.queue.length ++ l.queue.zipIdx.flatMap (fun x => s.jobBytes (x.2 == 0) x.1)
    ++ bytes2 s.freeElements.length ++ bytes1 s.params.budget ++ bytes1 s.grantedSum
    ++ bytes1 (match s.params.supply with
      | .individual => 1
      | .ganged => 2)
    ++ listBytes (fun (w : WaitEntry) => bytes3 w.sale ++ [lineByte (.tl w.line)] ++ bytes1 w.needed)
        s.print.waiting

/-- The answer to a QUERY_LINE: name, receiver (1 hunting, 2 assembling), bad-frame count, and what the kind
of line adds (R175). -/
def State.lineBytes (s : State) (l : Line) : List Byte :=
  [lineByte l] ++ bytes1 (if (s.line l).receiver = .hunting then 1 else 2) ++ bytes2 (s.line l).badFrames
    ++ match l with
      | .kl n => s.kioskBytes n
      | .cl n => bytes1 (if s.ifc.concessionOpen.get n then 2 else 1) ++ outstandingBytes (s.ifc.concession.get n)
      | .ol => listBytes (fun (o : Outstanding) => [o.tag]) s.ifc.office
      | .pl n => s.payLineBytes n
      | .tl n => s.ticketLineBytes n

/-- QUERY_LINE (R174, R175). -/
def execQueryLine (src : Link) (tag : Byte) (line : Byte) (s : State) : Host.Outcome State Fault Refusal :=
  request (.queryLine src tag line) src tag 0x4B true (fun _ r s =>
    match readLine line with
    | some (.line l) => answer r .ok (s.lineBytes l) s
    | _ => answer r .badRequest [] s) s

end Sys2Proof.Machine
end

