-- ==== Sys2Proof/Machine/Vouchers.lean ====
section
/-! DEFINITION. Meanings: redemption at the counters, and the stock requests (R128 to R131, R136, R137,
R174). -/

namespace Sys2Proof.Machine

-- ## REDEEM and CHECK (R129 to R131)

/-- Steps 1 and 2 of R129: the check digit and the live record. -/
def onVoucher (code : BitVec 40) (r : Reply) (f : Voucher → State → State) (s : State) : State :=
  match readCode code with
  | none => answer r .badRequest [] s
  | some c =>
    if !checkAgrees c then answer r .badCode [] s
    else
      match s.voucher c with
      | none => answer r .unknown [] s
      | some v => f v s

/-- The link a requester redeems on (R130). -/
def Requester.counter : Requester → Option (Fin 4)
  | .concession n => some n
  | _ => none

/-- REDEEM carried out (R129, R130). -/
def runRedeem (who : Requester) (r : Reply) (v : Voucher) (s : State) : State :=
  match v.state with
  | .redeemed => answer r .redeemedBefore (redemptionBytes v.redemption) s
  | .void => answer r .void [] s
  | .lapsed => answer r .lapsed [] s
  | .suspended => answer r .refundPending [] s
  | .issued =>
    if !s.windowOpen v then answer r .tooEarly (bytes2 (windowOpening s (s.startOf v.screening))) s
    else
      let entry : Redemption := ⟨who.counter, s.clock.value / 60⟩
      let s := s.mapVouchers (fun u =>
        if u.code = v.code then { u with state := .redeemed, redemption := some entry } else u)
      answer r .ok (number1 v.kind ++ bytes2 v.screening ++ amountBytes v.price)
        (moveStock v.kind .outstanding .taken 1 s)

/-- REDEEM (R129, R130). -/
def execRedeem (src : Link) (tag : Byte) (code : BitVec 40) (s : State) : Host.Outcome State Fault Refusal :=
  request (.redeem src tag code) src tag 0x34 (readCode code).isSome (fun who r s =>
    onVoucher code r (runRedeem who r) s) s

/-- CHECK (R131): the record and whether a REDEEM now would pass check 4 of R129. -/
def execCheck (src : Link) (tag : Byte) (code : BitVec 40) (s : State) : Host.Outcome State Fault Refusal :=
  request (.check src tag code) src tag 0x35 (readCode code).isSome (fun _ r s =>
    onVoucher code r (fun v s =>
      answer r .ok (voucherBytes v s ++ flagByte (v.state == .issued && s.windowOpen v)) s) s) s

/-- QUERY_VOUCHER (R174). -/
def execQueryVoucher (src : Link) (tag : Byte) (code : BitVec 40) (s : State) :
    Host.Outcome State Fault Refusal :=
  request (.queryVoucher src tag code) src tag 0x38 (readCode code).isSome (fun _ r s =>
    onVoucher code r (fun v s => answer r .ok (voucherBytes v s) s) s) s

-- ## Stock (R136, R137)

/-- R136: the allotment of a kind set; available moves with it, and a decrease stops where available is
empty. -/
def Stock.setAllotment (k : Stock) (requested : Nat) : Stock :=
  let n := max requested (k.allotment - k.available)
  { k with allotment := n, available := k.available + n - k.allotment }

/-- SET_STOCK (R136); the low mark's bytes behind a flag that is off are not judged (DESIGN CHOICE, log entry 39). -/
def execSetStock (src : Link) (tag : Byte) (kind : Byte) (allotment : BitVec 16) (lowPresent : Byte)
    (low : BitVec 16) (s : State) : Host.Outcome State Fault Refusal :=
  request (.setStock src tag kind allotment lowPresent low) src tag 0x36 (readFlag lowPresent).isSome
    (fun _ r s =>
      let asked := allotment.toNat
      let marked := readFlag lowPresent == some true
      match readKind kind with
      | none => answer r .badRequest [] s
      | some i =>
        if 9999 < asked ∨ (marked ∧ 9999 < low.toNat) then answer r .badRequest [] s
        else
          let k := (s.vouchers.stock.get i).setAllotment asked
          let k := if marked then { k with lowMark := low.toNat } else k
          answer r .ok (bytes2 k.allotment ++ flagByte (asked < k.allotment) ++ bytes2 k.available
            ++ bytes2 k.lowMark) (s.onStock i (fun _ => k))) s

/-- R137: a kind's taken count leaves the allotment. -/
def Stock.clearTaken (k : Stock) : Stock := { k with allotment := k.allotment - k.taken, taken := 0 }

/-- The kinds a CLEAR_TAKEN names: 1–8, or ALL. -/
def readKinds (b : Byte) : Option (List (Fin 8)) :=
  if b = 0xFE then some (indices 8) else (readKind b).map (fun k => [k])

/-- CLEAR_TAKEN (R137): for each kind named, the taken count cleared and the allotment after. -/
def execClearTaken (src : Link) (tag : Byte) (kind : Byte) (s : State) : Host.Outcome State Fault Refusal :=
  request (.clearTaken src tag kind) src tag 0x37 true (fun _ r s =>
    match readKinds kind with
    | none => answer r .badRequest [] s
    | some ks =>
      let report := listBytes (fun i =>
        let k := s.vouchers.stock.get i
        bytes2 k.taken ++ bytes2 (k.allotment - k.taken)) ks
      answer r .ok report (ks.foldl (fun s i => s.onStock i Stock.clearTaken) s)) s

/-- A kind's six counters and whether it is low. -/
def Stock.bytes (k : Stock) : List Byte :=
  bytes2 k.allotment ++ bytes2 k.available ++ bytes2 k.inBaskets ++ bytes2 k.outstanding ++ bytes2 k.taken
    ++ bytes2 k.lowMark ++ flagByte k.isLow

/-- QUERY_STOCK (R174); the day number is sent as 2 bytes and the voucher serial as 3 bytes of binary (DESIGN
CHOICE, log entry 37). -/
def execQueryStock (src : Link) (tag : Byte) (s : State) : Host.Outcome State Fault Refusal :=
  request (.queryStock src tag) src tag 0x39 true (fun _ r s =>
    answer r .ok (s.vouchers.stock.list.flatMap Stock.bytes ++ bytes2 s.clock.day
      ++ bytes3 s.vouchers.serial) s) s

end Sys2Proof.Machine
end

