-- ==== Sys2Proof/Machine/Dispatch.lean ====
section
/-! DEFINITION. The one dispatch: a command's meaning, one arm per row of the table. -/

namespace Sys2Proof.Machine

/-- What a command does to everything but the queue of commands. -/
def exec (i : Instr) (s : State) : Host.Outcome State Fault Refusal :=
  match i with
  | .powerOnReset => Sys2Proof.Machine.execPowerOnReset s
  | .resetPin => Sys2Proof.Machine.execResetPin s
  | .restart src tag => Sys2Proof.Machine.execRestart src tag s
  | .restartReset => Sys2Proof.Machine.execRestartReset s
  | .secondTick => Sys2Proof.Machine.execSecondTick s
  | .clockSecond => Sys2Proof.Machine.execClockSecond s
  | .minutePulse => Sys2Proof.Machine.execMinutePulse s
  | .noPulseExpiry => Sys2Proof.Machine.execNoPulseExpiry s
  | .holdCountdownExpiry slot => Sys2Proof.Machine.execHoldCountdownExpiry slot s
  | .acceptWaitExpiry line => Sys2Proof.Machine.execAcceptWaitExpiry line s
  | .authorizationWaitExpiry line => Sys2Proof.Machine.execAuthorizationWaitExpiry line s
  | .reversalIntervalExpiry line => Sys2Proof.Machine.execReversalIntervalExpiry line s
  | .refundQuoteExpiry sale => Sys2Proof.Machine.execRefundQuoteExpiry sale s
  | .reprintWindowExpiry station => Sys2Proof.Machine.execReprintWindowExpiry station s
  | .printerRestExpiry line => Sys2Proof.Machine.execPrinterRestExpiry line s
  | .filteredFault line input => Sys2Proof.Machine.execFilteredFault line input s
  | .badFrame line => Sys2Proof.Machine.execBadFrame line s
  | .frameGapTimeout line gap => Sys2Proof.Machine.execFrameGapTimeout line gap s
  | .loadPlan src tag fields => Sys2Proof.Machine.execLoadPlan src tag fields s
  | .planRow src tag plan row cells => Sys2Proof.Machine.execPlanRow src tag plan row cells s
  | .loadScreening src tag fields => Sys2Proof.Machine.execLoadScreening src tag fields s
  | .setScreening src tag id target => Sys2Proof.Machine.execSetScreening src tag id target s
  | .setKioskSales src tag id value => Sys2Proof.Machine.execSetKioskSales src tag id value s
  | .closeScreening src tag id => Sys2Proof.Machine.execCloseScreening src tag id s
  | .archive src tag id => Sys2Proof.Machine.execArchive src tag id s
  | .queryScreening src tag id => Sys2Proof.Machine.execQueryScreening src tag id s
  | .dayOpen src tag fields => Sys2Proof.Machine.execDayOpen src tag fields s
  | .setTime src tag clock => Sys2Proof.Machine.execSetTime src tag clock s
  | .setSync src tag mode => Sys2Proof.Machine.execSetSync src tag mode s
  | .clearPulseCount src tag => Sys2Proof.Machine.execClearPulseCount src tag s
  | .queryClock src tag => Sys2Proof.Machine.execQueryClock src tag s
  | .seatRequestJoin src tag request => Sys2Proof.Machine.execSeatRequestJoin src tag request s
  | .holdSeats => Sys2Proof.Machine.execHoldSeats s
  | .holdBest => Sys2Proof.Machine.execHoldBest s
  | .bestBlockSearchEnd => Sys2Proof.Machine.execBestBlockSearchEnd s
  | .releaseSeats => Sys2Proof.Machine.execReleaseSeats s
  | .setType => Sys2Proof.Machine.execSetType s
  | .queryMap => Sys2Proof.Machine.execQueryMap s
  | .blockSeats => Sys2Proof.Machine.execBlockSeats s
  | .unblockSeats => Sys2Proof.Machine.execUnblockSeats s
  | .setLevel src tag requester level => Sys2Proof.Machine.execSetLevel src tag requester level s
  | .releaseBasket => Sys2Proof.Machine.execReleaseBasket s
  | .sellBasket => Sys2Proof.Machine.execSellBasket s
  | .freeSale => Sys2Proof.Machine.execFreeSale s
  | .restoreSeats => Sys2Proof.Machine.execRestoreSeats s
  | .openBasket src tag screening => Sys2Proof.Machine.execOpenBasket src tag screening s
  | .addVoucher src tag slot ref kind quantity => Sys2Proof.Machine.execAddVoucher src tag slot ref kind quantity s
  | .dropVoucher src tag slot ref kind quantity => Sys2Proof.Machine.execDropVoucher src tag slot ref kind quantity s
  | .tally src tag slot ref => Sys2Proof.Machine.execTally src tag slot ref s
  | .reopen src tag slot ref => Sys2Proof.Machine.execReopen src tag slot ref s
  | .extend src tag slot ref => Sys2Proof.Machine.execExtend src tag slot ref s
  | .cancel src tag slot ref => Sys2Proof.Machine.execCancel src tag slot ref s
  | .pay src tag slot ref amount => Sys2Proof.Machine.execPay src tag slot ref amount s
  | .settle src tag slot ref line => Sys2Proof.Machine.execSettle src tag slot ref line s
  | .queryBasket src tag slot refPresent ref => Sys2Proof.Machine.execQueryBasket src tag slot refPresent ref s
  | .accepted line payRef => Sys2Proof.Machine.execAccepted line payRef s
  | .progress line payRef stage => Sys2Proof.Machine.execProgress line payRef stage s
  | .approved line payRef code amount => Sys2Proof.Machine.execApproved line payRef code amount s
  | .declined line payRef reason => Sys2Proof.Machine.execDeclined line payRef reason s
  | .aborted line payRef => Sys2Proof.Machine.execAborted line payRef s
  | .reversed line payRef => Sys2Proof.Machine.execReversed line payRef s
  | .strayMessage line body => Sys2Proof.Machine.execStrayMessage line body s
  | .stagePrices src tag part fields => Sys2Proof.Machine.execStagePrices src tag part fields s
  | .setApplyMode src tag mode minute => Sys2Proof.Machine.execSetApplyMode src tag mode minute s
  | .applyPrices src tag => Sys2Proof.Machine.execApplyPrices src tag s
  | .clearStaged src tag => Sys2Proof.Machine.execClearStaged src tag s
  | .queryPrices src tag bank => Sys2Proof.Machine.execQueryPrices src tag bank s
  | .resolve src tag slot ref verdict code => Sys2Proof.Machine.execResolve src tag slot ref verdict code s
  | .refundQuote src tag sale => Sys2Proof.Machine.execRefundQuote src tag sale s
  | .refundCommit src tag sale amount => Sys2Proof.Machine.execRefundCommit src tag sale amount s
  | .refundCancel src tag sale => Sys2Proof.Machine.execRefundCancel src tag sale s
  | .reprint src tag sale set line override => Sys2Proof.Machine.execReprint src tag sale set line override s
  | .restoreSale src tag fields => Sys2Proof.Machine.execRestoreSale src tag fields s
  | .querySale src tag sale => Sys2Proof.Machine.execQuerySale src tag sale s
  | .redeem src tag code => Sys2Proof.Machine.execRedeem src tag code s
  | .check src tag code => Sys2Proof.Machine.execCheck src tag code s
  | .setStock src tag kind allotment lowPresent low => Sys2Proof.Machine.execSetStock src tag kind allotment lowPresent low s
  | .clearTaken src tag kind => Sys2Proof.Machine.execClearTaken src tag kind s
  | .queryVoucher src tag code => Sys2Proof.Machine.execQueryVoucher src tag code s
  | .queryStock src tag => Sys2Proof.Machine.execQueryStock src tag s
  | .powerOn src tag line => Sys2Proof.Machine.execPowerOn src tag line s
  | .powerOff src tag line => Sys2Proof.Machine.execPowerOff src tag line s
  | .stop src tag line => Sys2Proof.Machine.execStop src tag line s
  | .halt src tag line => Sys2Proof.Machine.execHalt src tag line s
  | .resume src tag line => Sys2Proof.Machine.execResume src tag line s
  | .clear src tag line => Sys2Proof.Machine.execClear src tag line s
  | .elementDone line element result => Sys2Proof.Machine.execElementDone line element result s
  | .printerState line status => Sys2Proof.Machine.execPrinterState line status s
  | .bindStation src tag station kiosk pay ticket => Sys2Proof.Machine.execBindStation src tag station kiosk pay ticket s
  | .unbind src tag station => Sys2Proof.Machine.execUnbind src tag station s
  | .openStation src tag station => Sys2Proof.Machine.execOpenStation src tag station s
  | .closeStation src tag station => Sys2Proof.Machine.execCloseStation src tag station s
  | .openConcession src tag line => Sys2Proof.Machine.execOpenConcession src tag line s
  | .closeConcession src tag line => Sys2Proof.Machine.execCloseConcession src tag line s
  | .clearFrameCount src tag line => Sys2Proof.Machine.execClearFrameCount src tag line s
  | .queryLine src tag line => Sys2Proof.Machine.execQueryLine src tag line s
  | .setAlarmEnable src tag set value => Sys2Proof.Machine.execSetAlarmEnable src tag set value s
  | .ackAlarms src tag set => Sys2Proof.Machine.execAckAlarms src tag set s
  | .setParam src tag param line present value => Sys2Proof.Machine.execSetParam src tag param line present value s
  | .frameByte line byte => Sys2Proof.Machine.execFrameByte line byte s
  | .frameSent line => Sys2Proof.Machine.execFrameSent line s
  | .unrecognisedRequest src tag kind => Sys2Proof.Machine.execUnrecognisedRequest src tag kind s

end Sys2Proof.Machine
end

