-- ==== Sys2Proof/Machine/Step.lean ====
section
/-! DEFINITION. One step: the command at the front of the queue is taken and carried out. On an empty queue one
millisecond of the timebase passes (R19). -/

namespace Sys2Proof.Machine

/-- R19: one millisecond of the timebase with nothing commanded: F advances while the clock runs, up to 999;
the passing of 999 is CLOCK_SECOND's (log entry 14). -/
def idle (s : State) : State :=
  if s.clockRuns && s.clock.fraction < 999 then
    { s with clock := { s.clock with fraction := s.clock.fraction + 1 } }
  else s

/-- One step of the part. -/
def step (s : State) : Host.Outcome State Fault Refusal :=
  match s.pending with
  | [] => .next (idle s)
  | i :: rest => exec i { s with pending := rest }

/-- The state with the command that a word spells put in front of the queue; unchanged where it spells none,
as every word does: the table gives its rows no bits. -/
def State.withFetchWord (s : State) (nbits w : Nat) : State :=
  match decodeTableWord nbits w with
  | none => s
  | some i => { s with pending := i :: s.pending }

end Sys2Proof.Machine
end

