-- ==== Sys2Proof/Safety.lean ====
section
/-! DEFINITION. The terms that statements about the part use: what a command leaves unchanged, what it sends,
when a request is heard, when the arbiter takes an entry, and the laws that hold of the part at every moment. -/

namespace Sys2Proof.Machine

-- ## What a command leaves unchanged

/-- The pieces of the state a statement names when it says what is unchanged. -/
inductive Block where
  | pending | clock | plans | screenings | engine | baskets | nextRef | prices | pay | sales | vouchers | print
  | lines | outstanding | stations | concessions | restart | latched | enabled | params | choice
deriving DecidableEq, Repr

/-- A piece of the state is the same in two states. -/
def Block.same (b : Block) (s t : State) : Prop :=
  match b with
  | .pending => t.pending = s.pending
  | .clock => t.clock = s.clock
  | .plans => t.plans = s.plans
  | .screenings => t.screenings = s.screenings
  | .engine => t.engine = s.engine
  | .baskets => t.baskets = s.baskets
  | .nextRef => t.nextBasketRef = s.nextBasketRef
  | .prices => t.prices = s.prices
  | .pay => t.pay = s.pay
  | .sales => t.sales = s.sales
  | .vouchers => t.vouchers = s.vouchers
  | .print => t.print = s.print
  | .lines => t.ifc.lines = s.ifc.lines
  | .outstanding =>
    t.ifc.kiosk = s.ifc.kiosk ∧ t.ifc.concession = s.ifc.concession ∧ t.ifc.office = s.ifc.office
  | .stations => t.ifc.stations = s.ifc.stations
  | .concessions => t.ifc.concessionOpen = s.ifc.concessionOpen
  | .restart => t.ifc.restart = s.ifc.restart
  | .latched => t.alarms.latched = s.alarms.latched
  | .enabled => t.alarms.enabled = s.alarms.enabled
  | .params => t.params = s.params
  | .choice => t.choice = s.choice

/-- From `s` to `t` nothing changes but the pieces in `bs`. -/
def Only (bs : List Block) (s t : State) : Prop := ∀ b, b ∉ bs → b.same s t

-- ## What a command sends

/-- A frame is an ALARM_NOTICE. -/
def Frame.isAlarm (f : Frame) : Bool := f.body.head? == some 0xEC

/-- From `s` to `t` the frames `fs` become ready on line `l`, followed on OL by alarm notices alone (DEDUCED, log entry
27); the receiver and the count of bad frames of the line stay, and so do the messages handed on, but for the one
that the command was, if any (DESIGN CHOICE, log entry 3). -/
structure Sends (l : Line) (fs : List Frame) (s t : State) : Prop where
  sending : ∃ notices : List Frame, (t.line l).sending = (s.line l).sending ++ fs ++ notices
    ∧ (∀ f ∈ notices, f.isAlarm = true) ∧ (l ≠ .ol → notices = [])
  receiver : (t.line l).receiver = (s.line l).receiver
  badFrames : (t.line l).badFrames = (s.line l).badFrames
  handedOn : (t.line l).handedOn = (s.line l).handedOn ∨ (t.line l).handedOn = (s.line l).handedOn.tail

/-- `fs` on line `l`, nothing on any other. -/
def on (l : Line) (fs : List Frame) : Line → List Frame := fun k => if k = l then fs else []

/-- Nothing is sent. -/
def nothing : Line → List Frame := fun _ => []

/-- What becomes ready first, and then what follows it, line by line (R161). -/
def after (first next : Line → List Frame) : Line → List Frame := fun l => first l ++ next l

/-- A notice's frame: tag 0 (R163), and no answer. -/
def noticeFrame (kind : Byte) (fields : List Byte) : Frame := ⟨kind :: 0 :: fields, false⟩

/-- R164: a frame to the owner of baskets: on OL for the office, on the kiosk link a station is bound to, and
none for a station that is unbound. -/
def toOwner (s : State) (o : Owner) (f : Frame) : Line → List Frame :=
  match o with
  | .office => on .ol [f]
  | .station n => (s.binding n).elim nothing (fun b => on (.kl b.kiosk) [f])

/-- R171, R172: every flag latched in `t` was latched in `s` or has its condition hold in `t`, and every flag
that was latched, or whose condition holds, is latched in `t`. -/
def Latches (s t : State) : Prop :=
  ∀ i, t.alarms.latched.get i = (s.alarms.latched.get i || t.condition i)

/-- The whole of what a command other than a reset or an acknowledgement does outside the pieces `bs`: it
sends the frames `sent`, alarm notices follow on OL, and alarms latch by their conditions. -/
structure Effect (bs : List Block) (sent : Line → List Frame) (s t : State) : Prop where
  only : Only (.lines :: .latched :: .choice :: bs) s t
  sends : ∀ l, Sends l (sent l) s t
  latches : Latches s t

-- ## Counters that pass over values in use

/-- A counter of 1 to `top` after so many advances from `c`, from `top` to 1. -/
def advanced (top c : Nat) : Nat → Nat
  | 0 => c
  | k + 1 => if advanced top c k = top then 1 else advanced top c k + 1

/-- R55, R127: `n` is the value of the counter `c`, or the first value after it, that is not held. -/
def FirstFrom (top c : Nat) (held : Nat → Prop) (n : Nat) : Prop :=
  ∃ k, n = advanced top c k ∧ ¬ held n ∧ ∀ i, i < k → held (advanced top c i)

/-- R127: the day number, the serial and the check digit, formed of the nine digits weighted 3, 1, 3, … -/
def voucherCode (day serial : Nat) : Nat :=
  let nine := day * 1000000 + serial
  let digit (i : Nat) := nine / 10 ^ i % 10
  let weighted := 3 * (digit 0 + digit 2 + digit 4 + digit 6 + digit 8) + digit 1 + digit 3 + digit 5 + digit 7
  nine * 10 + (10 - weighted % 10) % 10

/-- R127: the codes formed one after another from the serial on, each of the first serial whose code is not held, and
the serial after them. -/
def CodesFrom (day : Nat) (held : Nat → Prop) : Nat → List Nat → Nat → Prop
  | serial, [], last => last = serial
  | serial, code :: codes, last => ∃ n, FirstFrom 999999 serial (fun k => held (voucherCode day k)) n
    ∧ code = voucherCode day n ∧ CodesFrom day held (advanced 999999 n 1) codes last

-- ## Requests

/-- The link, tag and kind of a command that is a request the line interface hands to a block. -/
def requestOf : Instr → Option (Link × Byte × Byte)
  | .restart src tag => some (src, tag, 0x4C)
  | .loadPlan src tag _ => some (src, tag, 0x01)
  | .planRow src tag _ _ _ => some (src, tag, 0x02)
  | .loadScreening src tag _ => some (src, tag, 0x03)
  | .setScreening src tag _ _ => some (src, tag, 0x04)
  | .setKioskSales src tag _ _ => some (src, tag, 0x05)
  | .closeScreening src tag _ => some (src, tag, 0x06)
  | .archive src tag _ => some (src, tag, 0x07)
  | .queryScreening src tag _ => some (src, tag, 0x08)
  | .dayOpen src tag _ => some (src, tag, 0x0A)
  | .setTime src tag _ => some (src, tag, 0x0B)
  | .setSync src tag _ => some (src, tag, 0x0C)
  | .clearPulseCount src tag => some (src, tag, 0x0D)
  | .queryClock src tag => some (src, tag, 0x0E)
  | .seatRequestJoin src tag (.holdSeats _ _ _ _) => some (src, tag, 0x10)
  | .seatRequestJoin src tag (.holdBest _ _ _ _ _ _) => some (src, tag, 0x11)
  | .seatRequestJoin src tag (.releaseSeats _ _ _) => some (src, tag, 0x12)
  | .seatRequestJoin src tag (.setType _ _ _ _) => some (src, tag, 0x13)
  | .seatRequestJoin src tag (.queryMap _ _ _) => some (src, tag, 0x14)
  | .seatRequestJoin src tag (.blockSeats _ _) => some (src, tag, 0x15)
  | .seatRequestJoin src tag (.unblockSeats _ _) => some (src, tag, 0x16)
  | .setLevel src tag _ _ => some (src, tag, 0x17)
  | .openBasket src tag _ => some (src, tag, 0x18)
  | .addVoucher src tag _ _ _ _ => some (src, tag, 0x19)
  | .dropVoucher src tag _ _ _ _ => some (src, tag, 0x1A)
  | .tally src tag _ _ => some (src, tag, 0x1B)
  | .reopen src tag _ _ => some (src, tag, 0x1C)
  | .extend src tag _ _ => some (src, tag, 0x1D)
  | .cancel src tag _ _ => some (src, tag, 0x1E)
  | .pay src tag _ _ _ => some (src, tag, 0x1F)
  | .settle src tag _ _ _ => some (src, tag, 0x20)
  | .queryBasket src tag _ _ _ => some (src, tag, 0x21)
  | .stagePrices src tag _ _ => some (src, tag, 0x24)
  | .setApplyMode src tag _ _ => some (src, tag, 0x25)
  | .applyPrices src tag => some (src, tag, 0x26)
  | .clearStaged src tag => some (src, tag, 0x27)
  | .queryPrices src tag _ => some (src, tag, 0x28)
  | .resolve src tag _ _ _ _ => some (src, tag, 0x2A)
  | .refundQuote src tag _ => some (src, tag, 0x2C)
  | .refundCommit src tag _ _ => some (src, tag, 0x2D)
  | .refundCancel src tag _ => some (src, tag, 0x2E)
  | .reprint src tag _ _ _ _ => some (src, tag, 0x2F)
  | .restoreSale src tag _ => some (src, tag, 0x30)
  | .querySale src tag _ => some (src, tag, 0x31)
  | .redeem src tag _ => some (src, tag, 0x34)
  | .check src tag _ => some (src, tag, 0x35)
  | .setStock src tag _ _ _ _ => some (src, tag, 0x36)
  | .clearTaken src tag _ => some (src, tag, 0x37)
  | .queryVoucher src tag _ => some (src, tag, 0x38)
  | .queryStock src tag => some (src, tag, 0x39)
  | .powerOn src tag _ => some (src, tag, 0x3C)
  | .powerOff src tag _ => some (src, tag, 0x3D)
  | .stop src tag _ => some (src, tag, 0x3E)
  | .halt src tag _ => some (src, tag, 0x3F)
  | .resume src tag _ => some (src, tag, 0x40)
  | .clear src tag _ => some (src, tag, 0x41)
  | .bindStation src tag _ _ _ _ => some (src, tag, 0x44)
  | .unbind src tag _ => some (src, tag, 0x45)
  | .openStation src tag _ => some (src, tag, 0x46)
  | .closeStation src tag _ => some (src, tag, 0x47)
  | .openConcession src tag _ => some (src, tag, 0x48)
  | .closeConcession src tag _ => some (src, tag, 0x49)
  | .clearFrameCount src tag _ => some (src, tag, 0x4A)
  | .queryLine src tag _ => some (src, tag, 0x4B)
  | .setAlarmEnable src tag _ _ => some (src, tag, 0x4D)
  | .ackAlarms src tag _ => some (src, tag, 0x4E)
  | .setParam src tag _ _ _ _ => some (src, tag, 0x4F)
  | _ => none

/-- The requests that ask and change nothing (R29, R85, R131, R174, R175). -/
def asks : Instr → Bool
  | .queryScreening _ _ _ => true
  | .queryClock _ _ => true
  | .queryBasket _ _ _ _ _ => true
  | .queryPrices _ _ _ => true
  | .querySale _ _ _ => true
  | .check _ _ _ => true
  | .queryVoucher _ _ _ => true
  | .queryStock _ _ => true
  | .queryLine _ _ _ => true
  | _ => false

/-- A request is heard: nothing is due before it (DEDUCED, log entry 12), its body's length suits its kind, and the line interface
admits it from `who` (R162, R163); `r` says where its answer goes. -/
def Heard (i : Instr) (who : Requester) (r : Reply) (s : State) : Prop :=
  requestOf i = some (r.link, r.tag, r.kind) ∧ s.quiet = true ∧ i.wellFormed = true
    ∧ s.admission r.link r.tag r.kind true = .admitted who

/-- The requests outstanding in `t` are those of `s` with the request of `r` added (R162, R163). -/
def Outstands (r : Reply) (s t : State) : Prop :=
  Block.outstanding.same (s.outstand r.link ⟨r.kind, r.tag⟩) t

/-- A request runs to state `t`: it becomes outstanding, the frames `sent` become ready, and nothing but the
pieces in `bs` changes otherwise. -/
def Runs (i : Instr) (r : Reply) (bs : List Block) (sent : Line → List Frame) (s t : State) : Prop :=
  exec i s = .next t ∧ Effect (.outstanding :: bs) sent s t ∧ Outstands r s t

/-- A request runs to state `t` and its one answer, `result` with `fields`, becomes ready on its link. -/
def Answers (i : Instr) (r : Reply) (result : Result) (fields : List Byte) (bs : List Block) (s t : State) :
    Prop :=
  Runs i r bs (on r.link.line [answerFrame r result fields]) s t

-- ## Steps of the arbiter

/-- The arbiter takes the entry `x`: nothing is due, the engine is idle, and the choice of R34 falls on `x`,
leaving the engine `e`; the command of that entry then carries it out (DESIGN CHOICE, log entry 11). -/
def Takes (x : Entry) (e : Engine) (s : State) : Prop :=
  s.quiet = true ∧ s.engine.search = none ∧ s.engine.take = some (x, e)

/-- R33: the command that carries an entry out. -/
def Entry.command : Entry → Instr
  | .request _ _ (.holdSeats _ _ _ _) => .holdSeats
  | .request _ _ (.holdBest _ _ _ _ _ _) => .holdBest
  | .request _ _ (.releaseSeats _ _ _) => .releaseSeats
  | .request _ _ (.setType _ _ _ _) => .setType
  | .request _ _ (.queryMap _ _ _) => .queryMap
  | .request _ _ (.blockSeats _ _) => .blockSeats
  | .request _ _ (.unblockSeats _ _) => .unblockSeats
  | .restore _ _ => .restoreSeats
  | .releaseBasket _ _ _ => .releaseBasket
  | .sellBasket _ _ _ _ => .sellBasket
  | .freeSale _ _ => .freeSale

/-- R33: where the answer to an entry goes; an internal entry has none. -/
def Entry.reply : Entry → Option Reply
  | .request _ r _ => some r
  | .restore r _ => some r
  | _ => none

/-- The slot whose basket an internal entry ends. -/
def Entry.slot : Entry → Option (Fin 16)
  | .releaseBasket i _ _ => some i
  | .sellBasket i _ _ _ => some i
  | _ => none

/-- The sale whose seats an internal entry frees. -/
def Entry.freed : Entry → Option Nat
  | .freeSale _ n => some n
  | _ => none

/-- A step of the arbiter runs to state `t`, which differs from `s` outside the engine in the pieces `bs`
alone. -/
def Carries (i : Instr) (e : Engine) (bs : List Block) (sent : Line → List Frame) (s t : State) : Prop :=
  exec i s = .next t ∧ Effect (.engine :: bs) sent s t ∧ t.engine = e

-- ## Baskets and payments

/-- R58: the request names, by slot and ref, the live basket `b` of slot `i`, and comes from its owner. -/
def Owned (who : Requester) (slot : Byte) (ref : BitVec 16) (i : Fin 16) (b : Basket) (s : State) : Prop :=
  slot.toNat = i.val ∧ s.baskets.get i = some b ∧ b.ref = ref.toNat ∧ who.owner = some b.owner

/-- R68: a hold countdown runs. -/
def Hold.runs : Hold → Bool
  | .running _ => true
  | _ => false

/-- R72: a basket as it enters ENDING for a reason. -/
def Basket.ended (b : Basket) (reason : EndReason) : Basket :=
  { b with state := .ending, endReason := some reason, hold := .absent, reserved := false }

/-- R71: a basket as it returns to TALLIED from payment. -/
def Basket.returned (b : Basket) : Basket :=
  { b with state := .tallied, hold := .running (max b.hold.seconds 30), warningSent := false
           reserved := false, payRef := none }

/-- R113: the sale table with a basket's reservation released, where it holds one. -/
def released (b : Basket) (s : State) : SaleTable :=
  if b.reserved then { s.sales with
    reservedSales := s.sales.reservedSales - 1
    reservedVouchers := s.sales.reservedVouchers - (b.vouchers.map (·.quantity)).sum }
  else s.sales

/-- R99: the frame of a PAY_RESULT, with a place for every figure (DEDUCED, log entry 15; which figure stands where a
rule names none is a DESIGN CHOICE, log entry 35). -/
def resultFrame (slot : Fin 16) (b : Basket) (payRef : Nat) (o : PayOutcome) (reason made left countdown : Nat) :
    Frame :=
  noticeFrame 0xE4 (bytes1 slot.val ++ bytes2 b.ref ++ bytes2 payRef ++ [o.code] ++ bytes1 reason
    ++ bytes1 made ++ bytes1 left ++ bytes2 countdown)

/-- R94, R104: a pay line with no exchange in flight but, where a reversal waits, that of its head. -/
def PayLine.resumed (x : PayLine) (interval : Nat) : PayLine :=
  { x with exchange := x.queue.head?.map (fun q => ⟨.reversal, q.payRef, interval⟩) }

/-- R104: the REVERSE of the head of a queue, on its pay line. -/
def reverseOf (line : Fin 8) (queue : List Reversal) : Line → List Frame :=
  match queue with
  | [] => nothing
  | q :: _ => on (.pl line) [noticeFrame 0x52 (bytes2 q.payRef ++ amountBytes q.amount ++ approvalBytes q.code)]

/-- The state with a pay line's record replaced. -/
def State.withPayLine (i : Fin 8) (x : PayLine) (s : State) : State :=
  { s with pay := { s.pay with lines := s.pay.lines.set i x } }

/-- The state with a ticket line's record replaced. -/
def State.withTicketLine (i : Fin 8) (x : TicketLine) (s : State) : State :=
  { s with print := { s.print with lines := s.print.lines.set i x } }

/-- Of the screenings only the one with the id given changes, and of it only the array, the counts with it (R31). -/
def SeatsOnly (id : Nat) (s t : State) : Prop :=
  ∃ F : Grid → Grid, t.screenings = s.screenings.map (fun k => if k.id = id then k.withSeats (F k.seats) else k)

/-- R72, R76, R168: the basket `b` leaves its slot, a CLOSING owner is LOCKED, and the count of the bank of its
generation falls, a RETAINED bank brought to 0 emptying. The activation that waits for that has rules of its own
(R84). -/
def LeavesSlot (slot : Fin 16) (b : Basket) (s t : State) : Prop :=
  t.baskets = s.baskets.set slot none
    ∧ (∀ m, t.ifc.stations.get m =
        if b.owner = .station m ∧ (s.ifc.stations.get m).state = .closing
          then { s.ifc.stations.get m with state := .locked } else s.ifc.stations.get m)
    ∧ (∀ k, s.prices.active = some k → k.generation = b.generation →
        t.prices = { s.prices with active := some { k with count := k.count - 1 } })
    ∧ ∀ q, (∀ k, s.prices.active = some k → k.generation ≠ b.generation) → s.prices.retained = some q →
        q.generation = b.generation →
      (2 ≤ q.count → t.prices = { s.prices with retained := some { q with count := q.count - 1 } })
        ∧ (q.count ≤ 1 → s.prices.staged.waiting = false → t.prices = { s.prices with retained := none })

/-- R99, R104, R109: what a decline, a mismatch or a confirmed reversal does to the basket `b` of an attempt, and the
PAY_RESULT `told`: below the decline limit it returns to TALLIED while its station is OPEN, and else enters ENDING
with STATION_CLOSED; at the limit it enters ENDING with PAY_FAILED. -/
def Judged (slot : Fin 16) (b : Basket) (payRef : Nat) (o : PayOutcome) (reason : Nat) (told : Line → List Frame)
    (s t : State) : Prop :=
  let frame (left countdown : Nat) :=
    toOwner s b.owner (resultFrame slot b payRef o reason b.attempts left countdown)
  let ends (why : EndReason) : Prop := t.baskets = s.baskets.set slot (some (b.ended why))
    ∧ t.engine = { s.engine with queue := s.engine.queue ++ [.releaseBasket slot b.ref b.screening] }
  t.sales = released b s
    ∧ (b.attempts < s.params.declineLimit → s.ownerOpen b.owner = true →
        told = frame (s.params.declineLimit - b.attempts) (max b.hold.seconds 30)
        ∧ t.baskets = s.baskets.set slot (some b.returned) ∧ t.engine = s.engine)
    ∧ (b.attempts < s.params.declineLimit → s.ownerOpen b.owner = false →
        told = frame (s.params.declineLimit - b.attempts) 0 ∧ ends .stationClosed)
    ∧ (s.params.declineLimit ≤ b.attempts → told = frame 0 0 ∧ ends .payFailed)

/-- R107: the frame of a DOUBT_NOTICE of cause 1 LIMIT or 2 OVERFLOW, with the basket the reversal is tied to, if any,
and what becomes of it by the doubt policy. -/
def doubtFrame (line : Fin 8) (q : Reversal) (cause : Byte) (tied : Option (Fin 16 × Basket)) (s : State) : Frame :=
  noticeFrame 0xE9 (lineByte (.pl line) :: (bytes2 q.payRef ++ amountBytes q.amount ++ approvalBytes q.code ++ [cause]
    ++ tied.elim [0, 0, 0, 0, 0, 0] (fun x => 1 :: (bytes1 x.1.val ++ bytes2 x.2.ref ++ [ownerByte x.2.owner,
      if s.params.doubtPolicy = .keep then 1 else 2]))))

/-- R65, R105, R107: what becomes of the basket `b` of a reversal given up, by the doubt policy, and the PAY_RESULT
`told`: kept, it enters DOUBT with an entry in the doubt list; released, it enters ENDING with DOUBT_RELEASED. -/
def Disposed (line : Fin 8) (q : Reversal) (slot : Fin 16) (b : Basket) (told : Line → List Frame) (s t : State) :
    Prop :=
  t.sales = released b s
    ∧ (s.params.doubtPolicy = .keep →
        told = toOwner s b.owner (resultFrame slot b q.payRef .doubt 0 0 0 0)
        ∧ t.baskets = s.baskets.set slot
            (some { b with state := .doubt, hold := .absent, reserved := false, payRef := none })
        ∧ t.pay.doubts = s.pay.doubts ++ [⟨slot, b.ref, line, q.payRef, q.amount, q.code⟩] ∧ t.engine = s.engine
        ∧ ∀ m, t.ifc.stations.get m =
            if b.owner = .station m ∧ (s.ifc.stations.get m).state = .closing
              then { s.ifc.stations.get m with state := .locked } else s.ifc.stations.get m)
    ∧ (s.params.doubtPolicy = .release →
        told = nothing ∧ t.baskets = s.baskets.set slot (some (b.ended .doubtReleased))
        ∧ t.engine = { s.engine with queue := s.engine.queue ++ [.releaseBasket slot b.ref b.screening] }
        ∧ t.pay.doubts = s.pay.doubts ∧ t.ifc.stations = s.ifc.stations)

-- ## Prices

/-- R80, R81: an attempted activation of `set` takes the price book from `b` to `b'`, and the figures R81 names are
`fields`. -/
def Activated (set : PriceSet) (b b' : PriceBook) (fields : List Byte) : Prop :=
  let g := b.freshGeneration
  let entered (kept : Option Bank) : PriceBook :=
    ⟨some ⟨set, g, 0⟩, kept, ⟨none, none, none, none, false⟩, .manual, if g = 255 then 1 else g + 1⟩
  (b.active = none → b' = entered b.retained ∧ fields = bytes1 g ++ bankBytes b.retained ++ [0, 0])
    ∧ (∀ k, b.active = some k → k.count = 0 →
        b' = entered b.retained ∧ fields = bytes1 g ++ bankBytes b.retained ++ [1, BitVec.ofNat 8 k.generation])
    ∧ (∀ k, b.active = some k → k.count ≠ 0 → b.retained = none →
        b' = entered (some k) ∧ fields = bytes1 g ++ bankBytes (some k) ++ [0, 0])
    ∧ ∀ k q, b.active = some k → k.count ≠ 0 → b.retained = some q →
        b' = { b with staged := { b.staged with waiting := true } }
          ∧ fields = 0 :: bankBytes (some q) ++ [0, 0]

-- ## Minute checks

/-- R12: the frame of a SCREENING_CLOSED. -/
def closedFrame (c : Screening) : Frame :=
  noticeFrame 0xE7 (bytes2 c.id ++ bytes2 c.counts.free ++ bytes2 c.counts.held ++ bytes2 c.counts.sold
    ++ bytes2 c.counts.blocked)

/-- R82: what a minute check for `v` does at the price book, and the PRICES_ACTIVE it sends, if any. -/
def Timed (v : Nat) (act : List Frame) (s t : State) : Prop :=
  (∀ m set, s.prices.mode = .atMinute m → s.prices.staged.state = .complete → s.prices.staged.whole = some set →
      m * 60 ≤ v → ∃ fields, act = [noticeFrame 0xE8 (1 :: fields)] ∧ Activated set s.prices t.prices fields)
    ∧ ((∀ m, s.prices.mode = .atMinute m → s.prices.staged.state = .complete → v < m * 60) →
      act = [] ∧ t.prices = s.prices)

/-- R12, R24, R82, R133: from `s` to `t` a minute check for `v` ran where `due` says so, and sent the notices `told`:
every screening whose time has come is CLOSED and told of, every ISSUED voucher whose window has ended LAPSED, its
unit available, and a timed price set is activated, and no other changes; where none ran, neither the screenings
nor the vouchers nor the prices change. -/
def Checked (due : Prop) (v : Nat) (told : List Frame) (s t : State) : Prop :=
  (due → t.screenings = s.screenings.map (fun c =>
      if c.state ≠ .closed ∧ (c.start + c.late) * 60 ≤ v then { c with state := .closed } else c)
    ∧ t.vouchers.records = s.vouchers.records.map (fun u =>
      if u.state = .issued ∧ (s.startOf u.screening + s.params.windowAfter) * 60 ≤ v
        then { u with state := .lapsed } else u)
    ∧ t.vouchers.serial = s.vouchers.serial
    ∧ (∀ k, t.vouchers.stock.get k = Stock.move .outstanding .available
        (s.vouchers.records.countP (fun u => u.kind == k && u.state == .issued
          && decide ((s.startOf u.screening + s.params.windowAfter) * 60 ≤ v))) (s.vouchers.stock.get k))
    ∧ ∃ act, told.Perm ((s.screenings.filter (fun c =>
        c.state ≠ .closed ∧ (c.start + c.late) * 60 ≤ v)).map closedFrame ++ act) ∧ Timed v act s t)
  ∧ (¬ due → told = [] ∧ t.screenings = s.screenings ∧ t.vouchers = s.vouchers ∧ t.prices = s.prices)

-- ## Printing

/-- R147: the frame of the PRINT_ELEMENT of an element. -/
def elementFrame (e : Fin 256) (x : Element) : Frame :=
  noticeFrame 0x54 (bytes1 e.val ++ [x.kind.code] ++ bytes3 x.sale ++ bytes1 x.index
    ++ bytes1 (textBytes x.text).length ++ textBytes x.text)

/-- R148: the elements of a job in its order, with the result of the element `e` put in. -/
def Job.results (j : Job) (e : Fin 256) (result : ElementResult) (s : State) : List Element :=
  (j.chain s.print.pool).filterMap (fun k =>
    (s.print.pool.get k).map (fun x => if k = e then { x with result := result } else x))

/-- R139, R140, section 12.5: the elements of a job of the sale `k`: its tickets, in order, or those a reprint names;
for a first print a slip for each voucher, in order; and, where there is one, the receipt. Each has the text of its
record. -/
def Composed (s : State) (k : Sale) (makeUp : MakeUp) (plans : List ElementPlan) : Prop :=
  let ticket (i : Nat) (p : ElementPlan) : Prop := p.kind = .ticket ∧ p.index = i
    ∧ ∀ c h rows, s.screening k.screening = some c → s.plan c.plan = some (h, rows) → ∀ u ∈ k.tickets[i]?,
      p.text = [.name h.name, .start c.start c.cls, .seat u.row u.pos u.type, .price u.price, .saleTicket k.number i]
  match makeUp with
  | .reprint ts => plans.length = ts.length ∧ ∀ (a : Nat), ∀ i ∈ ts[a]?, ∀ p ∈ plans[a]?, ticket i p
  | .first tickets vouchers receipt =>
    plans.length = tickets + vouchers + (if receipt then 1 else 0)
    ∧ (∀ i, i < tickets → ∀ p ∈ plans[i]?, ticket i p)
    ∧ (∀ i, i < vouchers → ∀ p ∈ plans[tickets + i]?, p.kind = .voucherSlip ∧ p.index = i
        ∧ ∀ v ∈ k.vouchers[i]?, p.text = [.voucherCode v.code, .comboKind (v.kind.val + 1)])
    ∧ ∀ p ∈ plans[tickets + vouchers]?, p = ⟨.receipt, 0,
        [.figure 1 k.subtotal, .figure 2 k.discount, .figure 3 k.voucherTotal, .figure 4 k.total, .figure 5 k.tax,
          k.payment.elim .settled (fun x => .payment x.line.val x.payRef x.code)]⟩

/-- R141: whether a job of the make-up is a reprint. -/
def MakeUp.reprints : MakeUp → Bool
  | .first _ _ _ => false
  | .reprint _ => true

/-- R139, R141: a job's chain in the pool holds the elements `plans` of the sale numbered `number`, in order, each
PENDING and naming the next, the last with the last flag. -/
def Job.holds (j : Job) (number : Nat) (plans : List ElementPlan) (pool : Tab (Option Element) 256) : Prop :=
  (j.chain pool).length = plans.length
    ∧ ∀ (a : Nat), ∀ e ∈ (j.chain pool)[a]?, ∀ p ∈ plans[a]?, pool.get e
      = some ⟨p.kind, number, p.index, (j.chain pool)[a + 1]?, a + 1 == plans.length, .waiting, p.text⟩

/-- R143, R145, R147: the line `n`, which has a job and no grant in `u`, enters WAIT_POWER at the tail of the waiting
order; into an empty order, it is granted and prints when its draw fits the budget beside the grants held. `told`
is the PRINT_ELEMENT of its head job's next element, or nothing. -/
def Joins (n : Fin 8) (told : Line → List Frame) (u t : State) : Prop :=
  let l := u.ticketLine n
  let waits : Prop := told = nothing ∧ t.print = { u.print with
    lines := u.print.lines.set n { l with state := .waitPower }, order := u.print.order ++ [n] }
  (∀ m, m ≠ .tl n → told m = []) ∧ (u.print.order ≠ [] → waits)
    ∧ (u.print.order = [] → u.params.budget < u.grantedSum + u.params.draws.get n → waits)
    ∧ (u.print.order = [] → u.grantedSum + u.params.draws.get n ≤ u.params.budget →
      ∀ j later first x, l.queue = j :: later → j.next u.print.pool = some first → u.print.pool.get first = some x →
        told = on (.tl n) [elementFrame first x]
        ∧ t.print = { u.print with
            lines := u.print.lines.set n
              { l with state := .printing, queue := { j with started := true } :: later } })

/-- R139 to R141, R143: a job of the elements `plans` takes that many free elements, which ones being open (log entry
5), and joins the tail of line `i`'s queue; a line in IDLE waits for power with it. -/
def Queued (i : Fin 8) (k : Sale) (origin : Owner) (reprint : Bool) (plans : List ElementPlan)
    (told : Line → List Frame) (s t : State) : Prop :=
  ∃ (first : Fin 256) (pool : Tab (Option Element) 256),
    let job : Job := ⟨k.number, origin, first, plans.length, reprint, false⟩
    let l := s.ticketLine i
    let u := { s with print := { s.print with
      pool := pool, lines := s.print.lines.set i { l with queue := l.queue ++ [job] } } }
    job.holds k.number plans pool ∧ (job.chain pool).Nodup
      ∧ (∀ e ∈ job.chain pool, s.print.pool.get e = none)
      ∧ (∀ e, e ∉ job.chain pool → pool.get e = s.print.pool.get e)
      ∧ (l.state = .idle → Joins i told u t)
      ∧ (l.state ≠ .idle → told = nothing ∧ t.print = u.print)

/-- R140: a job request for the sale `k` on line `i`, and its outcome `o`: an empty waiting list and a job that fits,
QUEUED; a list that holds fewer than 16 entries, WAITING, an entry joining its tail; a full list, NOT_QUEUED. -/
def Requested (i : Fin 8) (k : Sale) (origin : Owner) (makeUp : MakeUp) (o : PrintOutcome)
    (told : Line → List Frame) (s t : State) : Prop :=
  let fits : Prop := makeUp.count ≤ (indices 256).countP (fun e => (s.print.pool.get e).isNone)
    ∧ (s.ticketLine i).queue.length < 6
  (o = .queued ↔ s.print.waiting = [] ∧ fits) ∧ (o = .notQueued ↔ 16 ≤ s.print.waiting.length)
    ∧ (o = .notQueued → told = nothing ∧ t.print = s.print)
    ∧ (o = .waiting → told = nothing ∧ t.print = { s.print with
        waiting := s.print.waiting ++ [⟨k.number, i, origin, makeUp, makeUp.count⟩] })
    ∧ (o = .queued → makeUp.count = 0 → told = nothing ∧ t.print = s.print)
    ∧ (o = .queued → makeUp.count ≠ 0 → ∃ plans, Composed s k makeUp plans ∧ plans.length = makeUp.count
        ∧ Queued i k origin makeUp.reprints plans told s t)

/-- R145: the line `n` stands as `l'` and holds no grant and no place in the waiting order; where it held a grant, or
stood at the head, the lines at the head are granted one by one while they fit, and each prints its head job's next
element (R147). -/
def Releases (n : Fin 8) (l' : TicketLine) (told : Line → List Frame) (s t : State) : Prop :=
  let judged : Prop := (s.ticketLine n).state = .printing ∨ s.print.order.head? = some n
  ∃ given : List (Fin 8), s.print.order.filter (fun k => k != n) = given ++ t.print.order
    ∧ (¬ judged → given = [])
    ∧ (judged → ∀ k, t.print.order.head? = some k → s.params.budget < t.grantedSum + s.params.draws.get k)
    ∧ (given ≠ [] → t.grantedSum ≤ s.params.budget)
    ∧ t.ticketLine n = l'
    ∧ (∀ k, k ≠ n → k ∉ given → t.ticketLine k = s.ticketLine k)
    ∧ (∀ m, told m ≠ [] → ∃ k ∈ given, m = .tl k)
    ∧ ∀ k ∈ given, (t.ticketLine k).state = .printing
      ∧ ∀ j later first x, (s.ticketLine k).queue = j :: later → j.next t.print.pool = some first →
        t.print.pool.get first = some x →
          told (.tl k) = [elementFrame first x]
          ∧ t.ticketLine k
            = { s.ticketLine k with state := .printing, queue := { j with started := true } :: later }

/-- R143, R145: the declared draws of the ticket lines that hold a grant never sum above the power budget; the waiting
order holds exactly the lines in WAIT_POWER, each once; and a line in IDLE has no job. -/
def PowerLaw (s : State) : Prop :=
  s.grantedSum ≤ s.params.budget ∧ s.print.order.Nodup
    ∧ (∀ n, n ∈ s.print.order ↔ (s.ticketLine n).state = .waitPower)
    ∧ ∀ n, (s.ticketLine n).state = .idle → (s.ticketLine n).queue = []

/-- R144: the line `n` is taken to OFF as by POWER_OFF: its element in flight is SPOILED, and what it held of the supply
is released. -/
def PoweredDown (n : Fin 8) (told : Line → List Frame) (s t : State) : Prop :=
  let l := s.ticketLine n
  let down := { l with
    state := .off, cause := none, stopPending := false, haltPending := false, rest := none, status := .none
    filter := none }
  (l.state = .off → told = nothing ∧ t.print = s.print)
    ∧ (l.state ≠ .off → t.ticketLine n = down ∧ t.print.waiting = s.print.waiting
      ∧ (∀ e, t.print.pool.get e = if s.inFlight n = some e
          then (s.print.pool.get e).map (fun x => { x with result := .spoiled }) else s.print.pool.get e)
      ∧ (PowerLaw s → Releases n down told s t))

/-- R147: what a step sends on the ticket lines: on each nothing, or the one PRINT_ELEMENT of the element that is then
in flight there; and nothing on other lines. -/
def Prints (told : Line → List Frame) (t : State) : Prop :=
  ∀ m, told m = [] ∨ ∃ k e x, m = .tl k ∧ t.inFlight k = some e ∧ t.print.pool.get e = some x
    ∧ told m = [elementFrame e x]

/-- R118: a sale's ticket `i` after the job of the elements given: its state follows its TICKET element, if the job
had one. -/
def Reported (elements : List Element) (i : Nat) (u u' : Ticket) : Prop :=
  (∀ x ∈ elements, x.kind = .ticket → x.index = i →
      u' = { u with state := if x.result = .spoiled then .spoiled else .printed })
    ∧ ((∀ x ∈ elements, ¬ (x.kind = .ticket ∧ x.index = i)) → u' = u)

-- ## Parameters

/-- R176: the numeric parameters with a plain range: place in the table, least and greatest value, and value. -/
def numericParameters : List (Nat × Nat × Nat × (Params → Nat)) :=
  [(1, 60, 600, Params.stationHold), (2, 60, 3600, Params.officeHold), (3, 30, 600, Params.extension),
    (4, 0, 120, Params.warningLead), (5, 1, 30, Params.acceptWait), (6, 30, 300, Params.authorizationWait),
    (7, 2, 60, Params.reversalInterval), (8, 1, 5, Params.declineLimit), (9, 0, 15, Params.reversalLimit),
    (11, 0, 240, Params.refundCutoff), (12, 30, 600, Params.quoteTime), (13, 0, 240, Params.windowBefore),
    (14, 0, 240, Params.windowAfter), (15, 0, 2000, Params.jitterWindow), (19, 0, 32, Params.restAfter),
    (20, 0, 10, Params.restTime)]

/-- R176: the parameters with that numeric parameter at a value. -/
def Params.put (p : Params) (place value : Nat) : Params :=
  match place with
  | 1 => { p with stationHold := value }
  | 2 => { p with officeHold := value }
  | 3 => { p with extension := value }
  | 4 => { p with warningLead := value }
  | 5 => { p with acceptWait := value }
  | 6 => { p with authorizationWait := value }
  | 7 => { p with reversalInterval := value }
  | 8 => { p with declineLimit := value }
  | 9 => { p with reversalLimit := value }
  | 11 => { p with refundCutoff := value }
  | 12 => { p with quoteTime := value }
  | 13 => { p with windowBefore := value }
  | 14 => { p with windowAfter := value }
  | 15 => { p with jitterWindow := value }
  | 19 => { p with restAfter := value }
  | 20 => { p with restTime := value }
  | _ => p

-- ## Alarms

/-- R172: the frame of the ALARM_NOTICE of a flag, as the flags and conditions stand. -/
def alarmFrame (i : Fin 10) (s : State) : Frame :=
  noticeFrame 0xEC (number1 i ++ flagSetBytes s.alarms.latched.list ++ flagSetBytes s.conditions)

/-- How many ALARM_NOTICEs of a flag stand on OL. -/
def State.noticesOf (s : State) (i : Fin 10) : Nat :=
  (s.line .ol).sending.countP (fun f => f.body.take 3 == [0xEC, 0, BitVec.ofNat 8 (i.val + 1)])

-- ## Laws that hold at every moment

/-- R19, R20: V is at most 172,799 and F at most 999, and F is 0 where the clock is stopped at its end. -/
def ClockLaw (s : State) : Prop :=
  s.clock.value ≤ 172799 ∧ s.clock.fraction ≤ 999 ∧ (s.clock.value = 172799 → s.clock.fraction = 0)

/-- R171: while a condition holds, its flag is latched. -/
def AlarmLaw (s : State) : Prop := ∀ i, s.condition i = true → s.alarms.latched.get i = true

/-- R135: for each combo kind, available + in_baskets + outstanding + taken equals the allotment. -/
def StockLaw (s : State) : Prop :=
  ∀ k, (s.vouchers.stock.get k).available + (s.vouchers.stock.get k).inBaskets
    + (s.vouchers.stock.get k).outstanding + (s.vouchers.stock.get k).taken
    = (s.vouchers.stock.get k).allotment

/-- How many of a list's cells are seats. -/
def seatCount (rows : List (List Cell)) : Nat := (rows.map seatsIn).sum

/-- R5, R30, R31: the plan of a live screening is READY, the screening's array has an entry for exactly the
plan's non-GAP cells, its four counts are the numbers of entries in each state, and they sum to the plan's
number of non-GAP cells. -/
def Screening.lawful (s : State) (c : Screening) : Prop :=
  ∃ h rows, s.plan c.plan = some (h, rows)
    ∧ c.seats.map (fun row => row.map Option.isSome) = rows.map (fun row => row.map (fun x => x != .gap))
    ∧ c.counts.free = (Grid.entries c.seats).countP SeatState.isFree
    ∧ c.counts.held = (Grid.entries c.seats).countP SeatState.isHeld
    ∧ c.counts.sold = (Grid.entries c.seats).countP SeatState.isSold
    ∧ c.counts.blocked = (Grid.entries c.seats).countP SeatState.isBlocked
    ∧ c.counts.free + c.counts.held + c.counts.sold + c.counts.blocked = seatCount rows

/-- R7: no two live screenings share an id; and every live screening is lawful. -/
def SeatLaw (s : State) : Prop := (s.screenings.map (·.id)).Nodup ∧ ∀ c ∈ s.screenings, c.lawful s

/-- A number lies in a range. -/
def within (lo hi n : Nat) : Prop := lo ≤ n ∧ n ≤ hi

/-- R146, R154, R176: every parameter lies in its range, and every declared draw fits the budget. -/
def ParamsLaw (s : State) : Prop :=
  let p := s.params
  within 60 600 p.stationHold ∧ within 60 3600 p.officeHold ∧ within 30 600 p.extension
    ∧ p.warningLead ≤ 120 ∧ within 1 30 p.acceptWait ∧ within 30 300 p.authorizationWait
    ∧ within 2 60 p.reversalInterval ∧ within 1 5 p.declineLimit ∧ p.reversalLimit ≤ 15
    ∧ p.refundCutoff ≤ 240 ∧ within 30 600 p.quoteTime ∧ p.windowBefore ≤ 240 ∧ p.windowAfter ≤ 240
    ∧ p.jitterWindow ≤ 2000 ∧ within 10 200 p.budget ∧ p.restAfter ≤ 32 ∧ p.restTime ≤ 10
    ∧ p.filterTime ∈ [50, 100, 200, 400]
    ∧ ∀ i, within 5 40 (p.draws.get i) ∧ p.draws.get i ≤ p.budget

/-- R165, R166: a station is bound unless it is UNBOUND; two stations share no kiosk link and no pay line; a
ticket line serves at most two stations. -/
def MapLaw (s : State) : Prop :=
  (∀ i, s.binding i = none ↔ (s.ifc.stations.get i).state = .unbound)
    ∧ (∀ i j b c, i ≠ j → s.binding i = some b → s.binding j = some c → b.kiosk ≠ c.kiosk ∧ b.pay ≠ c.pay)
    ∧ ∀ l, (s.stationsWith (fun b => b.ticket == l)).length ≤ 2

/-- R7, R103, R141, R142, R163: the tables and queues keep within their sizes. -/
def CapacityLaw (s : State) : Prop :=
  s.screenings.length ≤ 32 ∧ s.ifc.office.length ≤ 4 ∧ s.print.waiting.length ≤ 16
    ∧ (∀ i, (s.ticketLine i).queue.length ≤ 6) ∧ ∀ i, (s.payLine i).queue.length ≤ 4

/-- R55: the next-ref counter lies in 1–65,535, so does every live basket's ref, and no two live baskets share a
ref. -/
def RefLaw (s : State) : Prop :=
  within 1 65535 s.nextBasketRef
    ∧ (∀ i b, s.baskets.get i = some b → within 1 65535 b.ref)
    ∧ ∀ i j b c, s.baskets.get i = some b → s.baskets.get j = some c → b.ref = c.ref → i = j

/-- R74 to R76: the generations of ACTIVE and RETAINED differ, one of the two is that of every live basket, each
count is the number of live baskets of the bank's generation, and RETAINED's is not 0. -/
def BankLaw (s : State) : Prop :=
  let live (g : Nat) : Nat := s.liveBaskets.countP (fun x => x.2.generation == g)
  (∀ k ∈ s.prices.active, k.count = live k.generation)
    ∧ (∀ k ∈ s.prices.retained, k.count = live k.generation ∧ 0 < k.count)
    ∧ (∀ k ∈ s.prices.active, ∀ r ∈ s.prices.retained, k.generation ≠ r.generation)
    ∧ ∀ x ∈ s.liveBaskets, (s.prices.bank x.2.generation).isSome = true

/-- The elements of the jobs in the lines' queues, line by line and job by job (R141). -/
def State.elementsInUse (s : State) : List (Fin 256) :=
  (indices 8).flatMap (fun i => (s.ticketLine i).queue.flatMap (fun j => j.chain s.print.pool))

/-- R139, R141: an element that is not free belongs to one job of one queue, and to one place of it; so the free
elements and those of the jobs are 256 together. -/
def PoolLaw (s : State) : Prop :=
  s.elementsInUse.Nodup ∧ ∀ e, e ∈ s.elementsInUse ↔ (s.print.pool.get e).isSome = true

/-- R93, R94: a pay line keeps at most six records; one is in flight exactly while an authorization or an abort
with its pay ref is, the abort where the record is ABORTING. -/
def PayLaw (s : State) : Prop :=
  ∀ i, (s.payLine i).records.length ≤ 6
    ∧ (∀ r ∈ (s.payLine i).records, r.state.inFlight = true → ∃ e ∈ (s.payLine i).exchange,
        e.payRef = r.payRef ∧ e.kind = if r.state = .aborting then .abort else .authorization)
    ∧ ∀ e ∈ (s.payLine i).exchange, e.kind ≠ .reversal →
        ∃ r ∈ (s.payLine i).records, r.payRef = e.payRef ∧ r.state.inFlight = true

-- ## The books: the records of baskets, sales, vouchers and payments agree

/-- R14, R57, R61, R63, R64, R68, R72, R95: a live basket names a live screening; it is reserved exactly in PAYING, in
REVERSING and while it commits; its countdown runs in OPEN and TALLIED alone, and a request waits for it in
PAYING and ENDING alone; it has one voucher line a kind, no tally in OPEN, and one of its voucher lines from
TALLIED to the commit. -/
def BasketLaw (s : State) : Prop :=
  ∀ x ∈ s.liveBaskets, let b := x.2
    (s.screening b.screening).isSome = true
    ∧ (b.reserved = true ↔ b.state = .paying ∨ b.state = .reversing
        ∨ b.state = .ending ∧ b.endReason = some .committed)
    ∧ (b.state ≠ .opened → b.state ≠ .tallied → b.hold.runs = false)
    ∧ (b.waiter.isSome = true → b.state = .paying ∨ b.state = .ending
        ∧ (b.endReason = some .cancelled ∨ b.endReason = some .voided ∨ b.endReason = some .committed))
    ∧ (b.vouchers.map (·.kind)).Nodup
    ∧ (b.state = .opened → b.tally = none)
    ∧ ∀ t ∈ b.tally, t.charges.map (fun c => (c.kind, c.bundleUnits + c.comboUnits))
        = b.vouchers.map (fun l => (l.kind, l.quantity))
    ∧ (b.state = .tallied ∨ b.state = .doubt ∨ b.reserved = true → b.tally.isSome = true)

/-- R50 to R52, R72, R114, R120: every internal entry waits for what it names: RELEASE_BASKET and SELL_BASKET for a live
basket in ENDING, on its screening, at most one entry a slot, SELL_BASKET with its commit under way; and FREE_SALE
for a sale whose quote is taken, at most one a sale. Every commit under way has its SELL_BASKET, and a number of
its own that no live sale has. -/
def EntryLaw (s : State) : Prop :=
  (∀ e ∈ s.engine.queue, match e with
    | .releaseBasket i r scr => ∃ b ∈ s.basket i r, b.state = .ending ∧ b.reserved = false ∧ b.screening = scr
    | .sellBasket i r scr n => (∃ b ∈ s.basket i r, b.state = .ending ∧ b.reserved = true ∧ b.screening = scr)
        ∧ ∃ c ∈ s.sales.commits, c.slot = i ∧ c.ref = r ∧ c.number = n
    | .freeSale scr n => ∃ k ∈ s.sale n, k.screening = scr ∧ ∃ q ∈ k.quote, q.taken.isSome = true
    | _ => True)
    ∧ (s.engine.queue.filterMap Entry.slot).Nodup ∧ (s.engine.queue.filterMap Entry.freed).Nodup
    ∧ (s.sales.commits.map (·.number)).Nodup
    ∧ ∀ c ∈ s.sales.commits, s.sale c.number = none
        ∧ ∃ b ∈ s.basket c.slot c.ref, .sellBasket c.slot c.ref b.screening c.number ∈ s.engine.queue

/-- R14, R15, R110 to R112, R119: no two live sales share a number; each names a live screening, and has a quote
exactly in REFUND_PENDING. -/
def SaleLaw (s : State) : Prop :=
  (s.sales.records.map (·.number)).Nodup
    ∧ ∀ k ∈ s.sales.records, (s.screening k.screening).isSome = true
      ∧ (k.quote.isSome = true ↔ k.state = .refundPending)

/-- R125 to R127, R134, R135: no two live vouchers share a code; each is of a live sale, on its screening, and
SUSPENDED only while that sale is REFUND_PENDING; of each kind, in_baskets is the quantity on the voucher lines of
the live baskets, and outstanding the number of vouchers ISSUED and SUSPENDED. -/
def VoucherLaw (s : State) : Prop :=
  (s.vouchers.records.map (·.code)).Nodup
    ∧ (∀ v ∈ s.vouchers.records, ∃ k ∈ s.sale v.sale, k.screening = v.screening
        ∧ (v.state = .suspended → k.state = .refundPending))
    ∧ ∀ k, (s.vouchers.stock.get k).inBaskets
          = (s.liveBaskets.map (fun x =>
              ((x.2.vouchers.filter (fun l => l.kind == k)).map (·.quantity)).sum)).sum
        ∧ (s.vouchers.stock.get k).outstanding = s.vouchers.records.countP (fun v =>
            v.kind == k && (v.state == .issued || v.state == .suspended))

/-- R113: the reservation counts are those of the baskets that hold a reservation, and with the live records they
never exceed 2,048 sales and 4,096 vouchers. -/
def ReservationLaw (s : State) : Prop :=
  let held := s.liveBaskets.filter (fun x => x.2.reserved)
  s.sales.reservedSales = held.length
    ∧ s.sales.reservedVouchers = (held.map (fun x => (x.2.vouchers.map (·.quantity)).sum)).sum
    ∧ s.sales.records.length + s.sales.reservedSales ≤ 2048
    ∧ s.vouchers.records.length + s.sales.reservedVouchers ≤ 4096

/-- R92, R93, R103, R107: no two payment records share a pay ref; a record in flight is the attempt of a live basket
in PAYING, no request waiting but in an abort, and every basket in PAYING has one; a reversal tied to a basket is
tied to a live one in REVERSING, at most one a basket, and a doubt-list entry names a live basket in DOUBT, at most
one a basket. -/
def AttemptLaw (s : State) : Prop :=
  ((indices 8).flatMap (fun i => (s.payLine i).records.map (·.payRef))).Nodup
    ∧ (∀ i, ∀ r ∈ (s.payLine i).records, r.state.inFlight = true → ∃ b ∈ s.basket r.slot r.ref,
        b.state = .paying ∧ b.payRef = some r.payRef ∧ (r.state ≠ .aborting → b.waiter = none))
    ∧ (∀ x ∈ s.liveBaskets, x.2.state = .paying → ∃ i, ∃ r ∈ (s.payLine i).records,
        r.state.inFlight = true ∧ r.slot = x.1 ∧ r.ref = x.2.ref)
    ∧ (∀ i, ∀ q ∈ (s.payLine i).queue, ∀ x ∈ q.basket, ∃ b ∈ s.basket x.1 x.2, b.state = .reversing)
    ∧ ((indices 8).flatMap (fun i => (s.payLine i).queue.filterMap (fun q => q.basket.map (·.1)))).Nodup
    ∧ (s.pay.doubts.map (·.slot)).Nodup
    ∧ ∀ d ∈ s.pay.doubts, ∃ b ∈ s.basket d.slot d.ref, b.state = .doubt

/-- The answers still owed: to the requests in the seat request queue and in the search, to those that wait for a
basket, and to those that wait for a refund. -/
def State.owed (s : State) : List Reply :=
  s.engine.queue.filterMap Entry.reply ++ s.engine.search.toList.map (·.reply)
    ++ s.liveBaskets.filterMap (fun x => x.2.waiter)
    ++ s.sales.records.filterMap (fun k => k.quote.bind (·.taken))

/-- R162, R163: every outstanding request has one answer, owed or ready on its link, and every answer its outstanding
request; no two outstanding requests on OL share a tag. -/
def OwedLaw (s : State) : Prop :=
  (∀ n, s.owed.countP (fun r => r.link == .kiosk n) + (s.line (.kl n)).sending.countP (·.closes)
      = if (s.ifc.kiosk.get n).isSome then 1 else 0)
    ∧ (∀ n, s.owed.countP (fun r => r.link == .concession n) + (s.line (.cl n)).sending.countP (·.closes)
      = if (s.ifc.concession.get n).isSome then 1 else 0)
    ∧ (s.ifc.office.map (·.tag)).Nodup
    ∧ ∀ tag : Byte, s.owed.countP (fun r => r.link == .office && r.tag == tag)
        + (s.line .ol).sending.countP (fun f => f.closes && f.body[1]? == some tag)
      = s.ifc.office.countP (fun o => o.tag == tag)

/-- The records of baskets, entries, sales, vouchers, reservations, payments and requests agree with each other. -/
def BooksLaw (s : State) : Prop :=
  BasketLaw s ∧ EntryLaw s ∧ SaleLaw s ∧ VoucherLaw s ∧ ReservationLaw s ∧ PayLaw s ∧ AttemptLaw s ∧ OwedLaw s
    ∧ CapacityLaw s

/-- R7, R32: no two live screenings share an id; in the array of each, a seat is HELD by a basket exactly where that
live basket's lines on the screening hold it, once, and SOLD, with its place, exactly by a live sale of the
screening that is not REFUNDED and has it at that place of its ticket list. -/
def SeatBookLaw (s : State) : Prop :=
  (s.screenings.map (·.id)).Nodup
    ∧ (∀ x ∈ s.liveBaskets, (lineSeats x.2.lines).Nodup)
    ∧ ∀ c ∈ s.screenings, ∀ y,
        (∀ (i : Fin 16) ref, Grid.at c.seats y = some (.held i.val ref) ↔ ∃ b ∈ s.basket i ref,
          b.screening = c.id ∧ y ∈ lineSeats b.lines)
        ∧ (∀ i ref, 16 ≤ i → Grid.at c.seats y ≠ some (.held i ref))
        ∧ ∀ n j, Grid.at c.seats y = some (.sold n j) ↔ ∃ k ∈ s.sale n, k.state ≠ .refunded
          ∧ k.screening = c.id ∧ (k.tickets[j]?).map (fun t => (t.row, t.pos)) = some y

end Sys2Proof.Machine
end

