-- ==== Sys2Proof/Certificates/Slice0/Obligations.lean ====
section
/-! DEFINITION. The statements for the provers. A statement about a request takes the request as heard
(`Heard`), one about a step of the arbiter takes the entry as chosen (`Takes`), and each says the next state
that `exec` answers: its value where the rules give one, and nothing else changed beside it (`Answers`,
`Runs`, `Carries`, `Effect`, of Safety.lean). What these terms hold of the model's own is said there, and rests on
log entries 3 (messages handed on), 11 (steps of the arbiter), 12 (what is due comes first), 15 (layouts) and 27 (alarm
notices after a command's other frames on OL). Named values stand by the numbers of section 12.2 and, where it leaves
them to the order of a table or rule, by those of log entry 8. -/

open Sys2Proof Sys2Proof.Machine

-- ## The step

/-- A step takes the command at the front of the queue and carries it out with the queue's rest. -/
def Obligations.StepRunsFrontCommand : Prop :=
  ∀ (c : Instr) (q : List Instr) (s : State),
    step { s with pending := c :: q } = exec c { s with pending := q }

/-- Every command completes, whatever the state: a step answers a next state, and it leaves the commands behind
the front one waiting in their order; that they stay through a reset too is the model's choice (log entry 1). On an
empty queue, by the model's choice (log entry 14), a millisecond of the timebase passes, F rising to 999 at most
while the clock runs, and nothing else changes. -/
def Obligations.EveryStepCompletes : Prop :=
  (∀ (c : Instr) (q : List Instr) (s : State),
    ∃ t, step { s with pending := c :: q } = .next t ∧ t.pending = q)
  ∧ (∀ s : State, s.pending = [] → ∃ t, step s = .next t ∧ Only [.clock] s t
    ∧ t.clock = { s.clock with
        fraction := if s.clock.value < 172799 ∧ s.clock.fraction < 999 then s.clock.fraction + 1
          else s.clock.fraction })

-- ## Resets

/-- The values that the spec states for every reset: the clock (table after R29), plan slots and screenings (R1, R7),
the queue, levels and pointers of the seat engine (R33, R35), baskets and the ref counter (R54, R55), the banks (R74),
pay lines and pay refs (R91, R92, R107), sales (R110), vouchers and stock (R125, R127, R135), the printers (R139,
R142, R143, R145), the lines, stations, requests and counters (R159, R160, R165, R169, R170), the alarms (R171), the
parameters (R176); and the laws below hold of them. The level of a ticket line's fault input, which no rule gives, is
left open here (log entry 23). The START_NOTICE is not part of this state: each reset command sends it (DEDUCED, log
entry 2). -/
def Obligations.ResetStateValues : Prop :=
  State.reset.clock.value = 0 ∧ State.reset.clock.fraction = 0 ∧ State.reset.clock.isSet = false
    ∧ State.reset.clock.day = 0 ∧ State.reset.clock.sync = .off ∧ State.reset.clock.deviation = none
    ∧ State.reset.clock.pulses = 0 ∧ State.reset.clock.noPulse = .stopped
    ∧ (∀ i, State.reset.plans.get i = .empty) ∧ State.reset.screenings = []
    ∧ State.reset.engine.queue = [] ∧ State.reset.engine.search = none
    ∧ (∀ i, State.reset.engine.levels.get i = if i = 8 then .high else .low)
    ∧ State.reset.engine.highPointer = 8 ∧ State.reset.engine.lowPointer = 8
    ∧ (∀ i, State.reset.baskets.get i = none) ∧ State.reset.nextBasketRef = 1
    ∧ State.reset.prices.active = none ∧ State.reset.prices.retained = none
    ∧ State.reset.prices.staged.state = .empty ∧ State.reset.prices.mode = .manual
    ∧ State.reset.prices.nextGeneration = 1
    ∧ (∀ i, State.reset.payLine i = ⟨none, [], [], 0⟩) ∧ State.reset.pay.nextRef = 1
    ∧ State.reset.pay.doubts = []
    ∧ State.reset.sales.records = [] ∧ State.reset.sales.reservedSales = 0
    ∧ State.reset.sales.reservedVouchers = 0 ∧ State.reset.sales.next = 1
    ∧ (∀ i, State.reset.sales.last.get i = none)
    ∧ State.reset.vouchers.records = [] ∧ State.reset.vouchers.serial = 1
    ∧ (∀ k, State.reset.vouchers.stock.get k = ⟨0, 0, 0, 0, 0, 0⟩)
    ∧ State.reset.freeElements.length = 256
    ∧ (∀ i, ∃ asserted, State.reset.ticketLine i = {
        state := .off, cause := none, stopPending := false, haltPending := false, sinceRest := 0, rest := none
        status := .none, capture := none, queue := [], asserted := asserted, filter := none })
    ∧ State.reset.print.waiting = [] ∧ State.reset.print.order = []
    ∧ (∀ l, (State.reset.line l).receiver = .hunting ∧ (State.reset.line l).badFrames = 0
        ∧ (State.reset.line l).sending = [])
    ∧ (∀ i, State.reset.ifc.kiosk.get i = none) ∧ (∀ i, State.reset.ifc.concession.get i = none)
    ∧ State.reset.ifc.office = [] ∧ State.reset.ifc.restart = .none
    ∧ (∀ i, State.reset.ifc.stations.get i = ⟨none, .unbound⟩)
    ∧ (∀ i, State.reset.ifc.concessionOpen.get i = false)
    ∧ (∀ i, State.reset.alarms.latched.get i = false ∧ State.reset.alarms.enabled.get i = true)
    ∧ State.reset.params = {
        stationHold := 240, officeHold := 900, extension := 120, warningLead := 45, acceptWait := 5
        authorizationWait := 90, reversalInterval := 10, declineLimit := 3, reversalLimit := 3, doubtPolicy := .keep
        refundCutoff := 30, quoteTime := 120, windowBefore := 90, windowAfter := 150, jitterWindow := 250
        budget := 60, draws := Tab.replicate 8 20, supply := .individual, restAfter := 8, restTime := 2
        filterTime := 100 }
    ∧ ClockLaw State.reset ∧ AlarmLaw State.reset ∧ StockLaw State.reset ∧ SeatLaw State.reset
    ∧ PowerLaw State.reset ∧ ParamsLaw State.reset ∧ MapLaw State.reset ∧ CapacityLaw State.reset
    ∧ RefLaw State.reset ∧ BankLaw State.reset ∧ PoolLaw State.reset ∧ BooksLaw State.reset
    ∧ SeatBookLaw State.reset

/-- POWER_ON_RESET, RESET_PIN, and RESTART_RESET once RESTART's answer has been sent, leave the part as after any
reset, with one START_NOTICE of their cause ready on OL and no alarm latched (R170, R171); RESTART_RESET does nothing
where no restart is due (DEDUCED, log entry 12). The cause bytes 1 to 3 of power-on, pin and RESTART are the model's
reading (DEDUCED, log entry 2). That the commands still waiting, and the model's count of free choices, stay is the
model's choice (DESIGN CHOICE, log entries 1 and 5). -/
def Obligations.ResetCommandsLeaveReset : Prop :=
  ∀ s : State,
    exec .powerOnReset s
        = .next (send .ol (noticeFrame 0xE0 [1]) { State.reset with pending := s.pending, choice := s.choice })
      ∧ exec .resetPin s
        = .next (send .ol (noticeFrame 0xE0 [2]) { State.reset with pending := s.pending, choice := s.choice })
      ∧ (s.ifc.restart = .due → exec .restartReset s
        = .next (send .ol (noticeFrame 0xE0 [3]) { State.reset with pending := s.pending, choice := s.choice }))
      ∧ (s.ifc.restart ≠ .due → ∃ t, exec .restartReset s = .next t ∧ Effect [] nothing s t)

/-- RESTART is answered OK and waits (R170); FRAME_SENT takes the frame being sent off its line (R161), ends the
outstanding request whose answer it was (R162, R163) and makes the reset of RESTART due when the answer to RESTART has
been sent; it does nothing on a line with no frame. That the first of a line's frames is the one being sent, until
FRAME_SENT, is the model's choice (DESIGN CHOICE, log entry 31). -/
def Obligations.RestartWaitsForItsAnswer : Prop :=
  (∀ src tag who r s, Heard (.restart src tag) who r s →
    ∃ t, Answers (.restart src tag) r .ok [] [.restart] s t ∧ t.ifc.restart = .answering)
  ∧ (∀ (l : Line) (f : Frame) (rest : List Frame) (s : State), s.quiet = true →
      (s.line l).sending = f :: rest →
    ∃ t, exec (.frameSent l) s = .next t
      ∧ Effect [.outstanding, .restart] nothing (s.onLine l (fun x => { x with sending := rest })) t
      ∧ (∀ n, t.ifc.kiosk.get n = if l = .kl n ∧ f.closes = true then none else s.ifc.kiosk.get n)
      ∧ (∀ n, t.ifc.concession.get n = if l = .cl n ∧ f.closes = true then none else s.ifc.concession.get n)
      ∧ (∀ o, o ∈ t.ifc.office ↔ o ∈ s.ifc.office ∧ ¬ (l = .ol ∧ f.closes = true ∧ f.body[1]? = some o.tag))
      ∧ t.ifc.restart = if l = .ol ∧ f.closes = true ∧ s.ifc.restart = .answering
          ∧ f.body.head? = some 0xCC then .due else s.ifc.restart)
  ∧ (∀ (l : Line) (s : State), s.quiet = true → (s.line l).sending = [] →
    ∃ t, exec (.frameSent l) s = .next t ∧ Effect [] nothing s t)

-- ## Laws that every step keeps

/-- V stays within 0–172,799 and F within 0–999, F being 0 where the clock is stopped at its end (R19, R20); every
parameter stays in its range and every declared draw within the budget (R146, R154, R176); the tables and queues
keep within their sizes (R7, R103, R141, R142, R163). -/
def Obligations.RangesAndSizesKept : Prop :=
  (∀ s t : State, ClockLaw s → step s = .next t → ClockLaw t)
  ∧ (∀ s t : State, ParamsLaw s → step s = .next t → ParamsLaw t)
  ∧ (∀ s t : State, CapacityLaw s → step s = .next t → CapacityLaw t)

/-- R171: while a condition holds, its flag is latched. -/
def Obligations.AlarmLawKept : Prop := ∀ s t : State, AlarmLaw s → step s = .next t → AlarmLaw t

/-- R135: for each combo kind, available + in_baskets + outstanding + taken equals the allotment. -/
def Obligations.StockLawKept : Prop := ∀ s t : State, StockLaw s → step s = .next t → StockLaw t

/-- R5, R30, R31: every non-GAP seat cell of a live screening is in exactly one of the four states, and the
four counts are the numbers of them and sum to the plan's number of non-GAP cells. -/
def Obligations.SeatLawKept : Prop := ∀ s t : State, SeatLaw s → step s = .next t → SeatLaw t

/-- R143, R145: the declared draws of ticket lines holding a power grant never sum above the power budget, the waiting
order holds exactly the lines in WAIT_POWER, each once, and no line in IDLE has a job in its queue. -/
def Obligations.PowerLawKept : Prop := ∀ s t : State, PowerLaw s → step s = .next t → PowerLaw t

/-- R165: a station is bound unless it is UNBOUND, no two stations share a kiosk link or a pay line, and a
ticket line serves at most two stations. -/
def Obligations.MapLawKept : Prop := ∀ s t : State, MapLaw s → step s = .next t → MapLaw t

/-- R55: the refs of live baskets, and the counter, lie in 1–65,535, and no two live baskets share a ref. -/
def Obligations.RefLawKept : Prop := ∀ s t : State, RefLaw s → step s = .next t → RefLaw t

/-- R74 to R76: the count of each bank is the number of live baskets of its generation; R139, R141: an element that is
not free belongs to one job, so the free elements and those of the jobs are 256 together; R93, R94: a pay line keeps
at most six records, and its exchange is that of the record in flight. -/
def Obligations.BanksPoolAndPayLinesKept : Prop :=
  (∀ s t : State, BankLaw s → step s = .next t → BankLaw t)
  ∧ (∀ s t : State, PoolLaw s → step s = .next t → PoolLaw t)
  ∧ (∀ s t : State, PayLaw s → step s = .next t → PayLaw t)
  ∧ (∀ s : State, PoolLaw s → s.freeElements.length + s.elementsInUse.length = 256)

/-- The records of baskets, seat requests, sales, vouchers, stock, reservations, payments and outstanding requests
agree with each other (R57, R72, R92, R93, R95, R110 to R114, R125 to R127, R135, R162, R163): among them, sale
numbers and voucher codes are unique, of each kind in_baskets and outstanding are the units they stand for, and
records with reservations keep within 2,048 and 4,096; and where they do, the seat request queue has at most 32
entries (R33). -/
def Obligations.BooksLawKept : Prop :=
  (∀ s t : State, BooksLaw s → step s = .next t → BooksLaw t)
  ∧ (∀ s : State, BooksLaw s → s.engine.queue.length ≤ 32)

/-- R32: where the books agree, a step keeps each seat of a live screening HELD by a basket exactly where a line of
that live basket holds it, and SOLD by a sale exactly where that sale, COMMITTED or REFUND_PENDING, lists it. -/
def Obligations.SeatBookLawKept : Prop :=
  ∀ s t : State, BooksLaw s → SeatBookLaw s → step s = .next t → SeatBookLaw t

-- ## The line interface

/-- R162, R163, R177: the checks on a kiosk link, a concession link and OL, in their order, each refusal standing
where the checks before it pass; a request turned away changes nothing but that the refusal is sent on its link with
its kind plus 0x80; a body whose kind names no request is refused with 0xFF. That a body whose length does not suit
its kind is refused with the kind plus 0x80 is the model's reading (DEDUCED, log entry 16), and that no length suits a
STAGE_PRICES of an unknown part its choice (DESIGN CHOICE, log entry 38). -/
def Obligations.LinksRefuseInOrder : Prop :=
  (∀ (s : State) (n : Fin 8) (tag kind : Byte) (sized : Bool),
    s.admission (.kiosk n) tag kind sized
      = match s.stationAt n with
        | none => .refused .notReady tag
        | some st =>
          if (s.ifc.stations.get st).state ≠ .opened then .refused .notReady tag
          else if s.ifc.kiosk.get n ≠ none then .refused .busy tag
          else if sized = false then .refused .badRequest tag
          else if kind ∉ kioskKinds then .refused .notAllowed tag
          else .admitted (.station st))
  ∧ (∀ (s : State) (n : Fin 4) (tag kind : Byte) (sized : Bool),
    s.admission (.concession n) tag kind sized
      = if s.ifc.concessionOpen.get n = false then .refused .notReady tag
        else if s.ifc.concession.get n ≠ none then .refused .busy tag
        else if sized = false then .refused .badRequest tag
        else if kind ≠ 0x34 ∧ kind ≠ 0x35 then .refused .notAllowed tag
        else .admitted (.concession n))
  ∧ (∀ (s : State) (tag kind : Byte) (sized : Bool),
    s.admission .office tag kind sized
      = if tag = 0 then .refused .badRequest 0
        else if ∃ o ∈ s.ifc.office, o.tag = tag then .refused .badRequest tag
        else if 4 ≤ s.ifc.office.length then .refused .busy tag
        else if sized = false then .refused .badRequest tag
        else .admitted .office)
  ∧ (∀ (i : Instr) (src : Link) (tag kind : Byte) (s : State) (result : Result) (shown : Byte),
    requestOf i = some (src, tag, kind) → s.quiet = true →
    s.admission src tag kind i.wellFormed = .refused result shown →
    ∃ t, exec i s = .next t
      ∧ Effect [] (on src.line [⟨[kind + 0x80, shown, result.code], false⟩]) s t)
  ∧ (∀ (src : Link) (tag kind : Byte) (s : State), s.quiet = true →
    ∃ result shown t, s.admission src tag kind false = .refused result shown
      ∧ exec (.unrecognisedRequest src tag kind) s = .next t
      ∧ Effect [] (on src.line
          [⟨[if kind ∈ requestKinds then kind + 0x80 else 0xFF, shown, result.code], false⟩]) s t)

/-- Every refusal is an answer with a result code (section 4.5 of the scope file), and a refused request changes
nothing, as the rules say request by request (R14, R21, R36, R37, R41, R43, R44, R46 to R49, R53, R59, R61, R77,
R95, R108, R116, R119, R122, R124, R129, R165). One that is heard either is answered at once with a result that is
no OK, and then nothing else changes, or no such result is sent on its link; and so it is with an entry the arbiter
takes, but that the entry leaves the queue, and with the end of a search, which leaves the engine idle. -/
def Obligations.BlocksRefuseWithoutEffect : Prop :=
  (∀ i who r s, Heard i who r s → ∃ t, exec i s = .next t
    ∧ ((∃ result fields, 0x10 ≤ (Result.code result).toNat ∧ Answers i r result fields [] s t)
      ∨ ∃ fs, (t.line r.link.line).sending = (s.line r.link.line).sending ++ fs
        ∧ ∀ f ∈ fs, f.closes = true → ∀ c, f.body[2]? = some c → c.toNat < 0x10))
  ∧ (∀ (x : Entry) e r s, Takes x e s → x.reply = some r → ∃ t, exec x.command s = .next t
    ∧ ((∃ result fields, 0x10 ≤ (Result.code result).toNat
        ∧ Carries x.command e [] (on r.link.line [answerFrame r result fields]) s t)
      ∨ ∃ fs, (t.line r.link.line).sending = (s.line r.link.line).sending ++ fs
        ∧ ∀ f ∈ fs, f.closes = true → ∀ c, f.body[2]? = some c → c.toNat < 0x10))
  ∧ (∀ s q, s.quiet = true → s.engine.search = some q → ∃ t, exec .bestBlockSearchEnd s = .next t
    ∧ ((∃ result fields, 0x10 ≤ (Result.code result).toNat
        ∧ Carries .bestBlockSearchEnd { s.engine with search := none } []
          (on q.reply.link.line [answerFrame q.reply result fields]) s t)
      ∨ ∃ fs, (t.line q.reply.link.line).sending = (s.line q.reply.link.line).sending ++ fs
        ∧ ∀ f ∈ fs, f.closes = true → ∀ c, f.body[2]? = some c → c.toNat < 0x10))

/-- R159: the bytes of a frame, taken one by one by a hunting receiver, hand its body on as one message (where the
body spells a command of that line) and leave the receiver hunting and no bad frame counted. That the message waits in
the line's state is the model's choice (DESIGN CHOICE, log entry 3). -/
def Obligations.FramesAreReceivedWhole : Prop :=
  ∀ (l : Line) (body : List Byte) (x : LineState), 2 ≤ body.length → body.length ≤ 250 →
    x.receiver = .hunting →
    (frameBytes body).foldl (fun y b => receive l b y) x
      = { x with handedOn := if (decodeBody l body).isSome then x.handedOn ++ [body] else x.handedOn }

/-- R158 to R160: what FRAME_BYTE, BAD_FRAME and FRAME_GAP_TIMEOUT do. A byte on a watched line starts a frame, is
discarded while hunting, extends the frame being assembled, or ends it; a frame found bad, or broken by a gap above 50
ms, is discarded and counted, up to 65,535; otherwise nothing happens. The body of a good frame that spells a command
waits in the line's messages handed on (DESIGN CHOICE, log entry 3). A bad frame stands until BAD_FRAME, and a
BAD_FRAME that is not due changes nothing (DEDUCED, log entry 12). FRAME_GAP_TIMEOUT carries its gap, and changes
nothing at 50 ms or less or on a line not assembling (DESIGN CHOICE, log entry 23). On a line not watched a frame
partly assembled stays (DEDUCED, log entry 24). -/
def Obligations.ReceiverFollowsBytes : Prop :=
  (∀ (l : Line) (b : Byte) (s : State), s.quiet = true → s.watched l = true →
    ∃ t x, exec (.frameByte l b) s = .next t ∧ Effect [] nothing (s.onLine l (fun _ => x)) t
      ∧ x.sending = (s.line l).sending ∧ x.badFrames = (s.line l).badFrames
      ∧ match (s.line l).receiver with
        | .hunting => x.handedOn = (s.line l).handedOn
            ∧ x.receiver = if b = 0xA5 then .assembling [] else .hunting
        | .assembling bytes =>
          match frameStatus (bytes ++ [b]) with
          | .good body => x.receiver = .hunting ∧ x.handedOn
              = if (decodeBody l body).isSome then (s.line l).handedOn ++ [body] else (s.line l).handedOn
          | _ => x.receiver = .assembling (bytes ++ [b]) ∧ x.handedOn = (s.line l).handedOn)
  ∧ (∀ (l : Line) (b : Byte) (s : State), s.quiet = true → s.watched l = false →
    ∃ t, exec (.frameByte l b) s = .next t ∧ Effect [] nothing s t)
  ∧ (∀ (l : Line) (bytes : List Byte) (s : State), (s.line l).receiver = .assembling bytes →
      frameStatus bytes = .bad →
    ∃ t, exec (.badFrame l) s = .next t ∧ Effect [] nothing (s.onLine l (fun x => { x with
      receiver := .hunting, badFrames := min (x.badFrames + 1) 65535 })) t)
  ∧ (∀ (l : Line) (s : State), (s.line l).isBad = false →
    ∃ t, exec (.badFrame l) s = .next t ∧ Effect [] nothing s t)
  ∧ (∀ (l : Line) (gap : Nat) (bytes : List Byte) (s : State), s.quiet = true → s.watched l = true →
      50 < gap → (s.line l).receiver = .assembling bytes →
    ∃ t, exec (.frameGapTimeout l gap) s = .next t ∧ Effect [] nothing (s.onLine l (fun x => { x with
      receiver := .hunting, badFrames := min (x.badFrames + 1) 65535 })) t)
  ∧ (∀ (l : Line) (gap : Nat) (s : State), s.quiet = true →
      gap ≤ 50 ∨ (s.line l).receiver = .hunting ∨ s.watched l = false →
    ∃ t, exec (.frameGapTimeout l gap) s = .next t ∧ Effect [] nothing s t)

-- ## Plans and screenings

/-- R3, R4: an accepted LOAD_PLAN makes its slot LOADING with the header carried; an accepted PLAN_ROW adds its
row, and the last one makes the plan READY and is answered so. That a space inside a name is a character of the
name, and the spaces at its end padding, is the model's reading of R177 (DEDUCED, log entry 9). -/
def Obligations.PlansLoadRowByRow : Prop :=
  (∀ src tag f who r s (i : Fin 12), Heard (.loadPlan src tag f) who r s →
      f.plan.toNat = i.val + 1 → (∀ b ∈ f.name, 0x20 ≤ b.toNat ∧ b.toNat ≤ 0x7E) →
      (∃ b ∈ f.name, b ≠ 0x20) → f.orphan.toNat ≤ 1 → f.wheelchair.toNat ≤ 1 →
      within 1 26 f.rows.toNat → within 1 40 f.positions.toNat → within 1 f.rows.toNat f.bestRow.toNat →
      within 2 (2 * f.positions.toNat) f.bestCentre.toNat → (∀ c ∈ s.screenings, c.plan ≠ f.plan.toNat) →
    ∃ t, Answers (.loadPlan src tag f) r .ok [] [.plans] s t
      ∧ t.plans = s.plans.set i (.loading ⟨planName f.name, f.rows.toNat, f.positions.toNat, f.bestRow.toNat,
          f.bestCentre.toNat, f.orphan == 1, f.wheelchair == 1⟩ [] 1 0))
  ∧ (∀ src tag plan row cells who r s (i : Fin 12) h rows next seats given,
      Heard (.planRow src tag plan row cells) who r s → plan.toNat = i.val + 1 →
      s.plans.get i = .loading h rows next seats → row.toNat = next → readAll readCell cells = some given →
      given.length = h.positions → (∀ c ∈ given, c.kind = none → c.aisle = false) →
      (∀ c, given.getLast? = some c → c.aisle = false) →
      seats + seatsIn (given.map CellFields.cell) ≤ 640 →
    ∃ t, Answers (.planRow src tag plan row cells) r (if next = h.rows then .okReady else .ok) [] [.plans] s t
      ∧ t.plans = s.plans.set i (if next = h.rows then .ready h (rows ++ [given.map CellFields.cell])
          else .loading h (rows ++ [given.map CellFields.cell]) (next + 1)
            (seats + seatsIn (given.map CellFields.cell))))

/-- R8, R10, R11, R13: an accepted LOAD_SCREENING creates a record in LOADED with every seat of its plan FREE, a late
window not carried being 15; SET_SCREENING goes to the state asked for but from LOADED to PAUSED; SET_KIOSK_SALES sets
the flag; CLOSE_SCREENING closes, and answers the four counts, for a screening already CLOSED too (DEDUCED, log entry
15); of the record's other fields, and of the other records, none changes. The late window is 1 byte (DESIGN CHOICE,
log entry 37), which behind a flag that is off is not judged (DESIGN CHOICE, log entry 39). -/
def Obligations.ScreeningsLoadAndChangeState : Prop :=
  (∀ src tag f who r s h rows cls, Heard (.loadScreening src tag f) who r s →
      s.clock.isSet = true → readClass f.cls = some cls → f.matinee.toNat ≤ 1 → f.kioskSales.toNat ≤ 1 →
      f.latePresent.toNat ≤ 1 → f.id ≠ 0 → f.start.toNat ≤ 2879 →
      (f.latePresent = 1 → f.late.toNat ≤ 30) → s.screening f.id.toNat = none →
      s.plan f.plan.toNat = some (h, rows) → s.screenings.length < 32 →
      let late := if f.latePresent = 1 then f.late.toNat else 15
      s.clock.value < (f.start.toNat + late) * 60 →
      ∃ t g, Answers (.loadScreening src tag f) r .ok [] [.screenings] s t
        ∧ t.screenings = s.screenings ++ [⟨f.id.toNat, f.plan.toNat, f.start.toNat, cls, f.matinee == 1, late,
            f.kioskSales == 1, .loaded, ⟨seatCount rows, 0, 0, 0⟩, g⟩]
        ∧ (∀ x, Grid.at g x = (kindAt rows x).map (fun _ => .free)))
  ∧ (∀ src tag id target who r s c st, Heard (.setScreening src tag id target) who r s →
      s.screening id.toNat = some c → c.state ≠ .closed →
      (target = 1 ∧ st = .onSale ∨ target = 2 ∧ st = .paused ∧ c.state ≠ .loaded) →
    ∃ t, Answers (.setScreening src tag id target) r .ok [] [.screenings] s t
      ∧ t.screenings = s.screenings.map (fun k => if k.id = id.toNat then { k with state := st } else k))
  ∧ (∀ src tag id value who r s c, Heard (.setKioskSales src tag id value) who r s →
      s.screening id.toNat = some c → c.state ≠ .closed → value.toNat ≤ 1 →
    ∃ t, Answers (.setKioskSales src tag id value) r .ok [] [.screenings] s t
      ∧ t.screenings = s.screenings.map (fun k =>
          if k.id = id.toNat then { k with kioskSales := value == 1 } else k))
  ∧ (∀ src tag id who r s c, Heard (.closeScreening src tag id) who r s → s.screening id.toNat = some c →
    ∃ t, Answers (.closeScreening src tag id) r .ok (bytes2 c.counts.free ++ bytes2 c.counts.held
        ++ bytes2 c.counts.sold ++ bytes2 c.counts.blocked) [.screenings] s t
      ∧ t.screenings = s.screenings.map (fun k =>
          if k.id = id.toNat then { k with state := .closed } else k))

/-- R14, R15: ARCHIVE of a CLOSED screening with no live basket and no refund pending removes its record, its
sales and its vouchers and answers how many of each; the units behind its ISSUED vouchers are available
again, no other stock moving. -/
def Obligations.ArchiveRemovesRecords : Prop :=
  ∀ src tag id who r s c, Heard (.archive src tag id) who r s → s.screening id.toNat = some c →
    c.state = .closed → (∀ i b, s.baskets.get i = some b → b.screening ≠ id.toNat) →
    (∀ k ∈ s.sales.records, k.screening = id.toNat → k.state ≠ .refundPending) →
    ∃ t, Answers (.archive src tag id) r .ok
        (bytes2 (s.sales.records.countP (fun k => k.screening == id.toNat))
          ++ bytes2 (s.vouchers.records.countP (fun v => v.screening == id.toNat)))
        [.screenings, .sales, .vouchers] s t
      ∧ t.screenings = s.screenings.filter (fun k => k.id != id.toNat)
      ∧ t.sales = { s.sales with records := s.sales.records.filter (fun k => k.screening != id.toNat) }
      ∧ t.vouchers.records = s.vouchers.records.filter (fun v => v.screening != id.toNat)
      ∧ t.vouchers.serial = s.vouchers.serial
      ∧ ∀ k, t.vouchers.stock.get k = Stock.move .outstanding .available
          (s.vouchers.records.countP (fun v =>
            v.screening == id.toNat && v.state == .issued && v.kind == k)) (s.vouchers.stock.get k)

-- ## Queries

/-- R29, R85, R131, R174, R175: a query changes nothing, whatever it is answered; and what the answers carry when the
queries find what they name: QUERY_SCREENING the record, its plan's name, the four counts, the live baskets and the
sales by state; QUERY_BASKET, without a ref or with the basket's own, every field of R54, a ref that does not match or
that names a free slot being refused with NO_SUCH; QUERY_LINE of OL the tags outstanding, its own last. The flag and
zeros of a free slot, and the presence flags and zeros of the absent parts of QUERY_CLOCK, QUERY_BASKET and
QUERY_LINE, are the model's reading of R179 (DEDUCED, log entry 15); a grant and a place in the waiting order as two
bytes, a voucher serial of 3 bytes, a late window of 1 byte, and a day number and a fraction F of 2 bytes each, are
the model's choice (log entry 37), and so is that a ref behind a flag that is off is not judged (log entry 39); an
answer to QUERY_LINE longer than a body is sent as it is (UNVERIFIED, log entry 25). -/
def Obligations.QueriesReportAndChangeNothing : Prop :=
  (∀ i who r s, asks i = true → Heard i who r s → ∃ result fields t, Answers i r result fields [] s t)
  ∧ (∀ src tag who r s, Heard (.queryClock src tag) who r s →
    ∃ t, Answers (.queryClock src tag) r .ok (bytes3 s.clock.value ++ bytes2 s.clock.fraction
      ++ [if s.clock.isSet then 2 else 1] ++ [if s.clock.value < 172799 then 1 else 2] ++ bytes2 s.clock.day
      ++ [s.clock.sync.code] ++ deviationBytes s.clock.deviation ++ bytes2 s.clock.pulses
      ++ s.clock.noPulse.bytes) [] s t)
  ∧ (∀ src tag id who r s c, Heard (.queryScreening src tag id) who r s → s.screening id.toNat = some c →
    let name := (s.plan c.plan).elim [] (fun p => p.1.name)
    let baskets := (indices 16).countP (fun i => (s.baskets.get i).any (fun b => b.screening == c.id))
    let sales (state : SaleState) := s.sales.records.countP (fun k => k.screening == c.id && k.state == state)
    ∃ t, Answers (.queryScreening src tag id) r .ok (bytes2 c.id ++ bytes1 c.plan ++ bytes2 c.start
      ++ [c.cls.code] ++ flagByte c.matinee ++ bytes1 c.late ++ flagByte c.kioskSales ++ [c.state.code]
      ++ (name ++ List.replicate 16 0x20).take 16 ++ bytes2 c.counts.free ++ bytes2 c.counts.held
      ++ bytes2 c.counts.sold ++ bytes2 c.counts.blocked ++ bytes1 baskets ++ bytes2 (sales .committed)
      ++ bytes2 (sales .refundPending) ++ bytes2 (sales .refunded)) [] s t)
  ∧ (∀ src tag slot present ref who r s (i : Fin 16), Heard (.queryBasket src tag slot present ref) who r s →
      slot.toNat = i.val → present.toNat ≤ 1 →
    ((present = 0 ∨ ∃ b, s.baskets.get i = some b ∧ b.ref = ref.toNat) →
      ∃ t, Answers (.queryBasket src tag slot present ref) r .ok
        ((s.baskets.get i).elim (List.replicate 47 0) (fun b => 1 :: b.bytes i)) [] s t)
    ∧ (present = 1 → (∀ b, s.baskets.get i = some b → b.ref ≠ ref.toNat) →
      ∃ t, Answers (.queryBasket src tag slot present ref) r .noSuch [] [] s t))
  ∧ (∀ src tag n who r s k, Heard (.querySale src tag n) who r s → s.sale n.toNat = some k →
    ∃ t, Answers (.querySale src tag n) r .ok k.bytes [] s t)
  ∧ (∀ src tag code who r s c v, Heard (.queryVoucher src tag code) who r s → readCode code = some c →
      checkAgrees c = true → s.voucher c = some v →
    ∃ t, Answers (.queryVoucher src tag code) r .ok (voucherBytes v s) [] s t)
  ∧ (∀ src tag code who r s c v, Heard (.check src tag code) who r s → readCode code = some c →
      checkAgrees c = true → s.voucher c = some v →
    ∃ t, Answers (.check src tag code) r .ok (voucherBytes v s ++ [if v.state = .issued
      ∧ (s.startOf v.screening - s.params.windowBefore) * 60 ≤ s.clock.value then 1 else 0]) [] s t)
  ∧ (∀ src tag who r s, Heard (.queryStock src tag) who r s →
    ∃ t, Answers (.queryStock src tag) r .ok (s.vouchers.stock.list.flatMap Stock.bytes
      ++ bytes2 s.clock.day ++ bytes3 s.vouchers.serial) [] s t)
  ∧ (∀ src tag line l who r s, Heard (.queryLine src tag line) who r s → readLine line = some (.line l) →
      l ≠ .ol →
    ∃ t, Answers (.queryLine src tag line) r .ok (s.lineBytes l) [] s t)
  ∧ (∀ src tag who r s, Heard (.queryLine src tag 0x40) who r s →
    ∃ t, Answers (.queryLine src tag 0x40) r .ok ([0x40, if (s.line .ol).receiver = .hunting then 1 else 2]
      ++ bytes2 (s.line .ol).badFrames ++ bytes1 (s.ifc.office.length + 1)
      ++ (s.ifc.office.map (fun o => o.tag) ++ [r.tag])) [] s t)
  ∧ (∀ src tag (bank : Byte) who r s, Heard (.queryPrices src tag bank) who r s → within 1 3 bank.toNat →
    ∃ t, Answers (.queryPrices src tag bank) r .ok
      (bank :: (bytes1 s.prices.nextGeneration ++ s.prices.bankFields bank.toNat)) [] s t)

-- ## The show clock

/-- R21 to R23, R28, R29: DAY_OPEN over an empty screening table sets V, the day number, SET, and the two counters,
and runs no minute check; SET_TIME to the same minute or an earlier one sets V and runs none; a V of 172,799 stops the
clock with F 0; SET_SYNC changes the mode and starts, keeps or stops the no-pulse countdown; CLEAR_PULSE_COUNT answers
the count and clears it. That the day number has 2 bytes and the voucher serial 3, and that a start behind a flag that
is off is not judged, is the model's choice (log entries 37 and 39). -/
def Obligations.ClockRequestsSetTheClock : Prop :=
  (∀ src tag f who r s, Heard (.dayOpen src tag f) who r s → within 1 366 f.day.toNat →
      f.clock.toNat ≤ 172799 → f.salePresent.toNat ≤ 1 → f.serialPresent.toNat ≤ 1 → s.screenings = [] →
      (f.salePresent = 1 → within 1 999999 f.saleStart.toNat) →
      (f.serialPresent = 1 → within 1 999999 f.serialStart.toNat) →
    let sale := if f.salePresent = 1 then f.saleStart.toNat else 1
    let serial := if f.serialPresent = 1 then f.serialStart.toNat else 1
    ∃ t, Answers (.dayOpen src tag f) r .ok
        (bytes2 f.day.toNat ++ bytes3 f.clock.toNat ++ bytes3 sale ++ bytes3 serial)
        [.clock, .sales, .vouchers] s t
      ∧ t.clock = { s.clock with
          value := f.clock.toNat, day := f.day.toNat, isSet := true
          fraction := if f.clock.toNat = 172799 then 0 else s.clock.fraction }
      ∧ t.sales = { s.sales with next := sale } ∧ t.vouchers = { s.vouchers with serial := serial })
  ∧ (∀ src tag v who r s, Heard (.setTime src tag v) who r s → s.clock.isSet = true → v.toNat ≤ 172799 →
      v.toNat / 60 ≤ s.clock.value / 60 →
    ∃ t, Answers (.setTime src tag v) r .ok (bytes3 s.clock.value ++ bytes3 v.toNat) [.clock] s t
      ∧ t.clock = { s.clock with
          value := v.toNat, fraction := if v.toNat = 172799 then 0 else s.clock.fraction })
  ∧ (∀ src tag mode who r s m, Heard (.setSync src tag mode) who r s → readSync mode = some m →
    ∃ t, Answers (.setSync src tag mode) r .ok [] [.clock] s t
      ∧ t.clock = { s.clock with
          sync := m
          noPulse := if m = .off then .stopped else if s.clock.sync = .off then .running 150
            else s.clock.noPulse })
  ∧ (∀ src tag who r s, Heard (.clearPulseCount src tag) who r s →
    ∃ t, Answers (.clearPulseCount src tag) r .ok (bytes2 s.clock.pulses) [.clock] s t
      ∧ t.clock = { s.clock with pulses := 0 })

/-- R12, R19, R20, R23, R24, R82, R133: a clock second advances V by one and F to 0, and none comes at the end of the
day; a clock second or a forward SET_TIME that reaches a later minute while the clock is SET closes every screening
whose time has come, with a SCREENING_CLOSED for each, lapses every ISSUED voucher whose window has ended, its unit
available again, and activates a timed price set, with its PRICES_ACTIVE; otherwise none of these changes. The
notices come in an order left open (log entry 5), before SET_TIME's answer (DESIGN CHOICE, log entry 27). In a
PRICES_ACTIVE the flags of what is absent are the model's reading (DEDUCED, log entry 15), and the byte 0 that stands
for PENDING is its choice (log entry 37). -/
def Obligations.MinuteChecksFollowTheClock : Prop :=
  (∀ s : State, s.quiet = true → s.clock.value < 172799 →
    ∃ t told, exec .clockSecond s = .next t
      ∧ Effect [.clock, .screenings, .vouchers, .prices] (on .ol told) s t
      ∧ t.clock = { s.clock with value := s.clock.value + 1, fraction := 0 }
      ∧ Checked (s.clock.isSet = true ∧ s.clock.value / 60 < (s.clock.value + 1) / 60) (s.clock.value + 1) told s t)
  ∧ (∀ s : State, s.quiet = true → s.clock.value = 172799 →
    ∃ t, exec .clockSecond s = .next t ∧ Effect [] nothing s t)
  ∧ (∀ src tag v who r s, Heard (.setTime src tag v) who r s → s.clock.isSet = true → v.toNat ≤ 172799 →
      s.clock.value / 60 < v.toNat / 60 →
    ∃ t told, Runs (.setTime src tag v) r [.clock, .screenings, .vouchers, .prices]
        (after (on .ol told) (on r.link.line [answerFrame r .ok (bytes3 s.clock.value ++ bytes3 v.toNat)])) s t
      ∧ t.clock = { s.clock with
          value := v.toNat, fraction := if v.toNat = 172799 then 0 else s.clock.fraction }
      ∧ Checked True v.toNat told s t)

/-- R25 to R28: a pulse in OFF has no effect; otherwise it is counted, restarts the no-pulse countdown at 150 s, and
is measured against the nearest whole minute while the clock runs; in TRACK within the jitter window, and in ONCE, the
clock is set onto that minute, but for the end of the day, and ONCE becomes WATCH; the alignment runs the minute check
of that minute when it goes forward into it while the clock is SET, and none when it goes back. NO_PULSE_EXPIRY leaves
the countdown expired and the last deviation NONE, and does nothing when it is not due (DEDUCED, log entry 12). The
notices of a minute check come in an order left open (log entry 5); in its PRICES_ACTIVE the flags of what is absent
are the model's reading (DEDUCED, log entry 15), and the byte 0 that stands for PENDING is its
choice (log entry 37). -/
def Obligations.PulsesMeasureAndAlign : Prop :=
  (∀ s : State, s.quiet = true → s.clock.sync = .off →
    ∃ t, exec .minutePulse s = .next t ∧ Effect [] nothing s t)
  ∧ (∀ s : State, s.quiet = true → s.clock.sync ≠ .off → s.clock.value = 172799 →
    ∃ t, exec .minutePulse s = .next t ∧ Effect [.clock] nothing s t
      ∧ t.clock = { s.clock with
          pulses := min (s.clock.pulses + 1) 65535, noPulse := .running 150, deviation := none })
  ∧ (∀ s : State, s.quiet = true → s.clock.sync ≠ .off → s.clock.value < 172799 → s.clock.fraction ≤ 999 →
    ∃ (t : State) (d : Int) (n : Nat) (told : List Frame), exec .minutePulse s = .next t
      ∧ Effect [.clock, .screenings, .vouchers, .prices] (on .ol told) s t
      ∧ ((1000 * s.clock.value + s.clock.fraction : Nat) : Int) - d = 60000 * n ∧ -30000 ≤ d ∧ d < 30000
      ∧ t.clock.pulses = min (s.clock.pulses + 1) 65535 ∧ t.clock.noPulse = .running 150
      ∧ t.clock.deviation = some d ∧ t.clock.isSet = s.clock.isSet ∧ t.clock.day = s.clock.day
      ∧ t.clock.sync = (if s.clock.sync = .once then .watch else s.clock.sync)
      ∧ ((s.clock.sync = .watch ∨ (s.clock.sync = .track ∧ s.params.jitterWindow < d.natAbs) ∨ n = 2880) →
        t.clock.value = s.clock.value ∧ t.clock.fraction = s.clock.fraction ∧ t.screenings = s.screenings
          ∧ t.vouchers = s.vouchers ∧ t.prices = s.prices ∧ told = [])
      ∧ ((s.clock.sync = .once ∨ (s.clock.sync = .track ∧ d.natAbs ≤ s.params.jitterWindow)) → n ≠ 2880 →
        t.clock.value = 60 * n ∧ t.clock.fraction = 0
          ∧ Checked (s.clock.isSet = true ∧ s.clock.value / 60 < n) (60 * n) told s t))
  ∧ (∀ s : State, s.clock.noPulse = .running 0 →
    ∃ t, exec .noPulseExpiry s = .next t ∧ Effect [.clock] nothing s t
      ∧ t.clock = { s.clock with noPulse := .expired, deviation := none })
  ∧ (∀ s : State, s.clock.noPulse ≠ .running 0 →
    ∃ t, exec .noPulseExpiry s = .next t ∧ Effect [] nothing s t)

/-- R17, R18, R69: a second tick takes one second off every countdown that runs, off no other, and marks as warned
the baskets whose countdown it brings to the warning lead or below and above 0; the owner of each that was not
warned before is sent a HOLD_WARNING, those of one line in an order left open (log entry 5). -/
def Obligations.SecondTickReachesEveryCountdown : Prop :=
  ∀ s : State, s.quiet = true →
    ∃ (t : State) (warned : List (Fin 16 × Basket)), exec .secondTick s = .next t
      ∧ Effect [.clock, .baskets, .pay, .sales, .print]
          (fun l => warned.flatMap (fun x => toOwner s x.2.owner (noticeFrame 0xE2
            (bytes1 x.1.val ++ bytes2 x.2.ref ++ bytes2 (x.2.hold.seconds - 1)
              ++ [if x.2.extensionUsed then 0 else 1])) l)) s t
      ∧ warned.Perm (s.liveBaskets.filter (fun x => match x.2.hold with
          | .running n => decide (n - 1 ≤ s.params.warningLead ∧ 0 < n - 1) && !x.2.warningSent
          | _ => false))
      ∧ t.clock = { s.clock with noPulse := match s.clock.noPulse with
          | .running n => .running (n - 1)
          | other => other }
      ∧ (∀ i, t.baskets.get i = (s.baskets.get i).map (fun b => match b.hold with
          | .running n => { b with
              hold := .running (n - 1)
              warningSent := b.warningSent || decide (n - 1 ≤ s.params.warningLead ∧ 0 < n - 1) }
          | _ => b))
      ∧ (∀ i, t.payLine i = { s.payLine i with
          exchange := (s.payLine i).exchange.map (fun e => { e with seconds := e.seconds - 1 }) })
      ∧ t.pay.nextRef = s.pay.nextRef ∧ t.pay.doubts = s.pay.doubts
      ∧ t.sales.records = s.sales.records.map (fun k => { k with quote := k.quote.map (fun q =>
          if q.taken = none then { q with seconds := q.seconds - 1 } else q) })
      ∧ (∀ i, t.sales.last.get i = (s.sales.last.get i).map (fun l => { l with seconds := l.seconds - 1 }))
      ∧ t.sales = { s.sales with records := t.sales.records, last := t.sales.last }
      ∧ (∀ i, t.ticketLine i = { s.ticketLine i with
          rest := (s.ticketLine i).rest.map (fun n => n - 1) })
      ∧ t.print.pool = s.print.pool ∧ t.print.waiting = s.print.waiting ∧ t.print.order = s.print.order

-- ## The seat engine

/-- R33, R53: a seat request, and a RESTORE_SALE as its RESTORE_SEATS, joins the tail of the queue, and nothing is
answered yet. That a malformed one joins too, unanswered, and is judged when it is taken, is the model's reading
(DEDUCED, log entry 17). -/
def Obligations.SeatRequestsJoinTheQueue : Prop :=
  (∀ src tag q who r s o, Heard (.seatRequestJoin src tag q) who r s → who.owner = some o →
    ∃ t, Runs (.seatRequestJoin src tag q) r [.engine] nothing s t
      ∧ t.engine = { s.engine with queue := s.engine.queue ++ [.request o r q] })
  ∧ (∀ src tag f who r s, Heard (.restoreSale src tag f) who r s →
    ∃ t, Runs (.restoreSale src tag f) r [.engine] nothing s t
      ∧ t.engine = { s.engine with queue := s.engine.queue ++ [.restore r f] })

/-- R34, R35: what the arbiter takes: the oldest internal entry; where there is none, the oldest entry of the
first HIGH requester with one waiting, going round the ring from the one after the pointer; and where no HIGH
requester has one, of the first LOW requester likewise. The pointer of that level moves to the requester, the
entry leaves the queue and the others keep their order; nothing is taken from an empty queue alone. -/
def Obligations.ArbiterTakesByLevelAndRing : Prop :=
  (∀ (e e' : Engine) (x : Entry), e.take = some (x, e') →
    ∃ older newer, e.queue = older ++ x :: newer
      ∧ (∀ y ∈ older, y.requester ≠ x.requester)
      ∧ (match x.requester with
        | none => e' = { e with queue := older ++ newer }
        | some q => (∀ y ∈ e.queue, y.requester ≠ none)
          ∧ (e.levels.get q = .high →
              e' = { e with queue := older ++ newer, highPointer := q }
              ∧ ∀ y ∈ e.queue, ∀ p, y.requester = some p → e.levels.get p = .high →
                (q - (e.highPointer + 1)).val ≤ (p - (e.highPointer + 1)).val)
          ∧ (e.levels.get q = .low →
              e' = { e with queue := older ++ newer, lowPointer := q }
              ∧ ∀ y ∈ e.queue, ∀ p, y.requester = some p → e.levels.get p = .low
                ∧ (q - (e.lowPointer + 1)).val ≤ (p - (e.lowPointer + 1)).val)))
  ∧ (∀ e : Engine, e.take = none ↔ e.queue = [])

/-- R36 to R40: HOLD_SEATS is refused for the first check that fails, the form first, and one that passes every check
holds its seats, all and no other, for the basket and appends its lines in the order listed, the answer carrying the
number of seat lines. R41 to R43: a HOLD_BEST is refused by form or by checks 1 and 2 of R37 likewise; one that passes
starts the search and is not answered yet; the search ends with NO_SUCH or WRONG_STATE where the basket is gone or no
longer OPEN, else with the candidate of lowest score held, the lower row and then the lower first position winning a
tie, the k-th seat taking the k-th type, and with no candidate with NO_BLOCK and the longest run. R47, R48:
BLOCK_SEATS makes the FREE seats listed BLOCKED and UNBLOCK_SEATS the BLOCKED ones FREE, a listed seat already there
staying so; the answer carries the four counts after; a list outside the form, or a GAP or no cell in it, is answered
BAD_REQUEST, an unknown screening NO_SUCH, and a listed seat HELD or SOLD TAKEN. No other seat changes, and of the
screenings none but the one named, and of it nothing but its seats and counts. The model's readings here: a malformed
field is judged when the entry is taken (DEDUCED, log entry 17), the end of a search reads the basket before it looks
for a candidate (DEDUCED, log entry 26), a station's basket in LOADED is answered CLOSED and a screening whose plan is
gone NO_SUCH (DEDUCED, log entry 32). -/
def Obligations.SeatRequestsChangeTheSeats : Prop :=
  (∀ who r slot ref wishes override e s (xs : List (Seat × TicketType)) o x,
    Takes (.request who r (.holdSeats slot ref wishes override)) e s →
    readAll (fun w => (readTicketType w.type).map (fun t => (seatOf w.seat, t))) wishes = some xs →
    readFlag override = some o → within 1 10 xs.length → (xs.map Prod.fst).Nodup →
    s.reach who slot ref = some x → x.basket.state = .opened → x.screening.holdsFor who = true →
    x.basket.lines.length + xs.length ≤ 10 →
    (∀ y ∈ xs, Grid.at x.screening.seats y.1 = some .free ∧ kindAt x.rows y.1 ≠ none
      ∧ (kindAt x.rows y.1 = some .wheelchair → x.header.kioskWheelchair = true ∨ who = .office)
      ∧ (y.2 = .companion → kindAt x.rows y.1 = some .companionSeat
        ∧ ∃ z, (z ∈ xs.map Prod.fst ∨ z ∈ lineSeats x.basket.lines)
          ∧ kindAt x.rows z = some .wheelchair)) →
    (orphanApplies x.header who o = false
      ∨ orphaned x.rows x.screening.seats (xs.map Prod.fst) = false) →
    ∃ t c, Carries .holdSeats e [.screenings, .baskets]
        (on r.link.line [answerFrame r .ok (bytes1 (x.basket.lines.length + xs.length))]) s t
      ∧ t.baskets = s.baskets.set x.slot (some { x.basket with
          lines := x.basket.lines ++ xs.map (fun y => ⟨y.1.1, y.1.2, y.2, none⟩) })
      ∧ SeatsOnly x.screening.id s t ∧ t.screening x.screening.id = some c
      ∧ (∀ y, Grid.at c.seats y = if y ∈ xs.map Prod.fst then some (.held x.slot.val x.basket.ref)
          else Grid.at x.screening.seats y))
  ∧ (∀ who r slot ref wishes override e s, Takes (.request who r (.holdSeats slot ref wishes override)) e s →
    let refused (result : Result) (fields : List Byte) : Prop :=
      ∃ t, Carries .holdSeats e [] (on r.link.line [answerFrame r result fields]) s t
    ((¬ within 1 10 wishes.length ∨ (∃ w ∈ wishes, ¬ within 1 4 w.type.toNat) ∨ 1 < override.toNat
        ∨ ¬ (wishes.map (fun w => seatOf w.seat)).Nodup) → refused .badRequest [])
    ∧ ∀ (xs : List (Seat × TicketType)) o,
      readAll (fun w => (readTicketType w.type).map (fun t => (seatOf w.seat, t))) wishes = some xs →
      readFlag override = some o → within 1 10 xs.length → (xs.map Prod.fst).Nodup →
      (s.reach who slot ref = none → refused .noSuch [])
      ∧ ∀ x, s.reach who slot ref = some x →
        if x.basket.state ≠ .opened then refused .wrongState []
        else if x.screening.holdsFor who = false then refused .closed []
        else if 10 < x.basket.lines.length + xs.length then refused .limit []
        else if ∃ y ∈ xs, kindAt x.rows y.1 = none then refused .badRequest []
        else match xs.find? (fun y => Grid.at x.screening.seats y.1 != some .free) with
          | some y => refused .taken [BitVec.ofNat 8 y.1.1, BitVec.ofNat 8 y.1.2]
          | none =>
            let wheelchair := ∃ y ∈ xs, kindAt x.rows y.1 = some .wheelchair
              ∧ x.header.kioskWheelchair = false ∧ who ≠ .office
            let companion := ∃ y ∈ xs, y.2 = .companion ∧ (kindAt x.rows y.1 ≠ some .companionSeat
              ∨ ∀ z, z ∈ xs.map Prod.fst ∨ z ∈ lineSeats x.basket.lines → kindAt x.rows z ≠ some .wheelchair)
            (wheelchair ∨ companion → refused .notAllowed [])
            ∧ (¬ wheelchair → ¬ companion → orphanApplies x.header who o = true →
                orphaned x.rows x.screening.seats (xs.map Prod.fst) = true → refused .orphan []))
  ∧ (∀ who r slot ref count filter types override e s z ts o x,
      Takes (.request who r (.holdBest slot ref count filter types override)) e s →
      readZoneFilter filter = some z → readAll readTicketType types = some ts → readFlag override = some o →
      within 1 10 count.toNat → ts.length = count.toNat → TicketType.companion ∉ ts →
      s.reach who slot ref = some x → x.basket.state = .opened → x.screening.holdsFor who = true →
      x.basket.lines.length + count.toNat ≤ 10 →
      ∃ t, exec .holdBest s = .next t ∧ Effect [.engine] nothing s t
        ∧ t.engine = { e with search := some ⟨who, r, x.slot, ref.toNat, count.toNat, z, ts, o⟩ })
  ∧ (∀ who r slot ref count filter types override e s,
      Takes (.request who r (.holdBest slot ref count filter types override)) e s →
    let refused (result : Result) : Prop :=
      ∃ t, Carries .holdBest e [] (on r.link.line [answerFrame r result []]) s t
    let formed := within 1 10 count.toNat ∧ within 1 5 filter.toNat ∧ types.length = count.toNat
      ∧ (∀ y ∈ types, within 1 3 y.toNat) ∧ override.toNat ≤ 1
    (¬ formed → refused .badRequest)
    ∧ (formed → s.reach who slot ref = none → refused .noSuch)
    ∧ (formed → ∀ x, s.reach who slot ref = some x →
      (x.basket.state ≠ .opened → refused .wrongState)
      ∧ (x.basket.state = .opened → x.screening.holdsFor who = false → refused .closed)
      ∧ (x.basket.state = .opened → x.screening.holdsFor who = true →
          10 < x.basket.lines.length + count.toNat → refused .limit)))
  ∧ (∀ s q, s.quiet = true → s.engine.search = some q →
    let ends (result : Result) : Prop := ∃ t, Carries .bestBlockSearchEnd { s.engine with search := none } []
      (on q.reply.link.line [answerFrame q.reply result []]) s t
    let found := s.reach q.who (BitVec.ofNat 8 q.slot.val) (BitVec.ofNat 16 q.ref)
    (found = none → ends .noSuch) ∧ ∀ x, found = some x → x.basket.state ≠ .opened → ends .wrongState)
  ∧ (∀ s q x, s.quiet = true → s.engine.search = some q →
      s.reach q.who (BitVec.ofNat 8 q.slot.val) (BitVec.ofNat 16 q.ref) = some x → x.basket.state = .opened →
      let found := candidates x.rows x.screening.seats q.zone (orphanApplies x.header q.who q.override) q.count
      (found = [] → ∃ t, Carries .bestBlockSearchEnd { s.engine with search := none } []
          (on q.reply.link.line [answerFrame q.reply .noBlock
            (bytes1 (longestRun x.rows x.screening.seats q.zone))]) s t)
      ∧ (found ≠ [] → ∃ t c row first, (row, first) ∈ found
          ∧ (∀ y ∈ found, score x.header q.count (row, first) < score x.header q.count y
            ∨ score x.header q.count (row, first) = score x.header q.count y
              ∧ (row < y.1 ∨ row = y.1 ∧ first ≤ y.2))
          ∧ Carries .bestBlockSearchEnd { s.engine with search := none } [.screenings, .baskets]
            (on q.reply.link.line [answerFrame q.reply .ok ([BitVec.ofNat 8 row, BitVec.ofNat 8 first]
              ++ bytes1 q.count ++ bytes1 (x.basket.lines.length + min q.count q.types.length))]) s t
          ∧ t.baskets = s.baskets.set x.slot (some { x.basket with
              lines := x.basket.lines ++ q.types.zipIdx.filterMap (fun y =>
                if y.2 < q.count then some ⟨row, first + y.2, y.1, none⟩ else none) })
          ∧ SeatsOnly x.screening.id s t ∧ t.screening x.screening.id = some c
          ∧ (∀ y, Grid.at c.seats y
              = if y.1 = row ∧ first ≤ y.2 ∧ y.2 < first + min q.count q.types.length
                then some (.held x.slot.val x.basket.ref) else Grid.at x.screening.seats y)))
  ∧ (∀ who r id refs e s (block : Bool),
    Takes (.request who r (if block then .blockSeats id refs else .unblockSeats id refs)) e s →
    let does := if block then Instr.blockSeats else Instr.unblockSeats
    let refused (result : Result) (fields : List Byte) : Prop :=
      ∃ t, Carries does e [] (on r.link.line [answerFrame r result fields]) s t
    (¬ within 1 40 refs.length ∨ ¬ (refs.map seatOf).Nodup → refused .badRequest [])
    ∧ (within 1 40 refs.length → (refs.map seatOf).Nodup →
      ((∀ c, s.screening id.toNat = some c → s.plan c.plan = none) → refused .noSuch [])
      ∧ ∀ c h rows, s.screening id.toNat = some c → s.plan c.plan = some (h, rows) →
        let fits (y : SeatRef) := Grid.at c.seats (seatOf y) = some .free ∨ Grid.at c.seats (seatOf y) = some .blocked
        ((∃ y ∈ refs, kindAt rows (seatOf y) = none) → refused .badRequest [])
        ∧ ((∀ y ∈ refs, kindAt rows (seatOf y) ≠ none ∧ fits y) →
          ∃ t c', Carries does e [.screenings]
              (on r.link.line [answerFrame r .ok (bytes2 c'.counts.free ++ bytes2 c'.counts.held
                ++ bytes2 c'.counts.sold ++ bytes2 c'.counts.blocked)]) s t
            ∧ SeatsOnly id.toNat s t ∧ t.screening id.toNat = some c'
            ∧ (∀ y, Grid.at c'.seats y = if y ∈ refs.map seatOf then some (if block then .blocked else .free)
                else Grid.at c.seats y))
        ∧ ((∀ y ∈ refs, kindAt rows (seatOf y) ≠ none) → ∀ before y later, refs = before ++ y :: later →
          (∀ z ∈ before, fits z) → ¬ fits y → refused .taken [y.row, y.pos])))

/-- R36, R44 to R46, R49: RELEASE_SEATS frees the seats listed, no other, and drops their lines; SET_TYPE changes one
line's type; QUERY_MAP answers the rows asked for and changes nothing; and each is refused for the first check that
fails: RELEASE_SEATS for a list outside the form, for a basket not reached or not OPEN, for a seat that no line holds,
named in the NO_SUCH, and with DEPENDENT where a COMPANION line would lose the last WHEELCHAIR line; SET_TYPE for
another type, for the basket likewise, for the seat, and with NOT_ALLOWED by the companion conditions; QUERY_MAP for
an unknown screening, for a range outside the plan and for more than 16 rows. That a malformed field is judged when
the entry is taken, and a screening whose plan is gone answered NO_SUCH, is the model's reading (DEDUCED, log entries
17 and 32). -/
def Obligations.ReleaseTypeAndMapAreCarriedOut : Prop :=
  (∀ who r slot ref refs e s x left, Takes (.request who r (.releaseSeats slot ref refs)) e s →
      within 1 10 refs.length → (refs.map seatOf).Nodup → s.reach who slot ref = some x →
      x.basket.state = .opened → (∀ y ∈ refs, seatOf y ∈ lineSeats x.basket.lines) →
      left = x.basket.lines.filter (fun l => (l.row, l.pos) ∉ refs.map seatOf) →
      ((∃ y ∈ lineSeats left, kindAt x.rows y = some .wheelchair) ∨ (∀ l ∈ left, l.type ≠ .companion)
        ∨ (∀ y ∈ lineSeats x.basket.lines, kindAt x.rows y ≠ some .wheelchair)) →
    ∃ t c, Carries .releaseSeats e [.screenings, .baskets]
        (on r.link.line [answerFrame r .ok (bytes1 left.length)]) s t
      ∧ t.baskets = s.baskets.set x.slot (some { x.basket with lines := left })
      ∧ SeatsOnly x.screening.id s t ∧ t.screening x.screening.id = some c
      ∧ (∀ y, Grid.at c.seats y = if y ∈ refs.map seatOf then (Grid.at x.screening.seats y).map (fun _ => .free)
          else Grid.at x.screening.seats y))
  ∧ (∀ who r slot ref refs e s, Takes (.request who r (.releaseSeats slot ref refs)) e s →
      let refused (result : Result) (fields : List Byte) : Prop :=
        ∃ t, Carries .releaseSeats e [] (on r.link.line [answerFrame r result fields]) s t
      (¬ within 1 10 refs.length ∨ ¬ (refs.map seatOf).Nodup → refused .badRequest [])
      ∧ (within 1 10 refs.length → (refs.map seatOf).Nodup →
        (s.reach who slot ref = none → refused .noSuch [])
        ∧ ∀ x, s.reach who slot ref = some x →
          let left := x.basket.lines.filter (fun l => (l.row, l.pos) ∉ refs.map seatOf)
          (x.basket.state ≠ .opened → refused .wrongState [])
          ∧ (x.basket.state = .opened → ∀ before y later, refs = before ++ y :: later →
              (∀ z ∈ before, seatOf z ∈ lineSeats x.basket.lines) → seatOf y ∉ lineSeats x.basket.lines →
              refused .noSuch [y.row, y.pos])
          ∧ (x.basket.state = .opened → (∀ y ∈ refs, seatOf y ∈ lineSeats x.basket.lines) →
              (∃ y ∈ lineSeats x.basket.lines, kindAt x.rows y = some .wheelchair) →
              (∀ y ∈ lineSeats left, kindAt x.rows y ≠ some .wheelchair) → (∃ l ∈ left, l.type = .companion) →
              refused .dependent [])))
  ∧ (∀ who r slot ref seat type e s x ty, Takes (.request who r (.setType slot ref seat type)) e s →
      readTicketType type = some ty → s.reach who slot ref = some x → x.basket.state = .opened →
      seatOf seat ∈ lineSeats x.basket.lines →
      (ty = .companion → kindAt x.rows (seatOf seat) = some .companionSeat
        ∧ ∃ y ∈ lineSeats x.basket.lines, kindAt x.rows y = some .wheelchair) →
    ∃ t, Carries .setType e [.baskets] (on r.link.line [answerFrame r .ok []]) s t
      ∧ t.baskets = s.baskets.set x.slot (some { x.basket with
          lines := x.basket.lines.map (fun l => if (l.row, l.pos) = seatOf seat then { l with type := ty }
            else l) }))
  ∧ (∀ who r slot ref seat type e s, Takes (.request who r (.setType slot ref seat type)) e s →
      let refused (result : Result) : Prop :=
        ∃ t, Carries .setType e [] (on r.link.line [answerFrame r result []]) s t
      (¬ within 1 4 type.toNat → refused .badRequest)
      ∧ (within 1 4 type.toNat → s.reach who slot ref = none → refused .noSuch)
      ∧ (within 1 4 type.toNat → ∀ x, s.reach who slot ref = some x →
        (x.basket.state ≠ .opened → refused .wrongState)
        ∧ (x.basket.state = .opened → seatOf seat ∉ lineSeats x.basket.lines → refused .noSuch)
        ∧ (x.basket.state = .opened → seatOf seat ∈ lineSeats x.basket.lines → type = 4 →
            kindAt x.rows (seatOf seat) ≠ some .companionSeat
              ∨ (∀ y ∈ lineSeats x.basket.lines, kindAt x.rows y ≠ some .wheelchair) →
            refused .notAllowed)))
  ∧ (∀ who r id first last e s c h rows, Takes (.request who r (.queryMap id first last)) e s →
      s.screening id.toNat = some c → s.plan c.plan = some (h, rows) → 1 ≤ first.toNat →
      first.toNat ≤ last.toNat → last.toNat ≤ h.rows → last.toNat + 1 - first.toNat ≤ 16 →
    ∃ t, Carries .queryMap e [] (on r.link.line [answerFrame r .ok
        (mapBytes (who == .office) h c.seats first.toNat last.toNat)]) s t)
  ∧ (∀ who r id first last e s, Takes (.request who r (.queryMap id first last)) e s →
      let refused (result : Result) : Prop :=
        ∃ t, Carries .queryMap e [] (on r.link.line [answerFrame r result []]) s t
      ((∀ c, s.screening id.toNat = some c → s.plan c.plan = none) → refused .noSuch)
      ∧ ∀ c h rows, s.screening id.toNat = some c → s.plan c.plan = some (h, rows) →
        (first = 0 ∨ h.rows < last.toNat ∨ last.toNat < first.toNat → refused .badRequest)
        ∧ (1 ≤ first.toNat → last.toNat ≤ h.rows → first.toNat + 16 ≤ last.toNat → refused .limit))

/-- R50, R72, R76, R168: RELEASE_BASKET carried out frees every seat the basket holds, and only those; the basket
leaves its slot, the count of its generation falls, a CLOSING station is LOCKED, and the stock of its voucher lines is
available again; and what waited for it is answered or told: a CANCEL with the seats freed, a RESOLVE VOID likewise
after a BASKET_ENDED, and the owner with BASKET_ENDED for every other reason but COMMITTED. A PRICES_ACTIVE, of an
activation that waited for the slot, goes before (DESIGN CHOICE, log entry 27). R52, R120, R134: FREE_SALE carried out
frees the seats sold with the number, and only those; the sale becomes REFUNDED, its SUSPENDED vouchers VOID and no
other, their units available again; the REFUND_COMMIT that waits is answered OK with the amount, and REFUND_NOTICE
tells the office. -/
def Obligations.InternalEntriesFreeSeats : Prop :=
  (∀ slot ref scr e s b c, Takes (.releaseBasket slot ref scr) e s → s.basket slot ref = some b →
    s.screening scr = some c → (b.vouchers.map (·.kind)).Nodup →
    (∀ v ∈ b.vouchers, v.quantity ≤ (s.vouchers.stock.get v.kind).inBaskets) →
    let n := Grid.heldBy c.seats slot.val ref
    ∃ t c' first told, exec .releaseBasket s = .next t ∧ t.engine = e
      ∧ Effect [.engine, .screenings, .baskets, .prices, .vouchers, .stations] (after first told) s t
      ∧ (first = nothing ∨ ∃ fields, first = on .ol [noticeFrame 0xE8 (2 :: fields)]
          ∧ s.prices.staged.waiting = true)
      ∧ (∀ reason, b.endReason = some reason →
          let ended := toOwner s b.owner
            (noticeFrame 0xE6 (bytes1 slot.val ++ bytes2 b.ref ++ [reason.code] ++ bytes1 n))
          let answered := b.waiter.elim nothing (fun w => on w.link.line [answerFrame w .ok (bytes1 n)])
          told = match reason with
            | .committed => nothing
            | .cancelled => answered
            | .voided => after ended answered
            | _ => ended)
      ∧ LeavesSlot slot b s t
      ∧ SeatsOnly scr s t ∧ t.screening scr = some c'
      ∧ (∀ y, Grid.at c'.seats y = if Grid.at c.seats y = some (.held slot.val ref) then some .free
          else Grid.at c.seats y)
      ∧ t.vouchers.records = s.vouchers.records ∧ t.vouchers.serial = s.vouchers.serial
      ∧ (∀ v ∈ b.vouchers, t.vouchers.stock.get v.kind = { s.vouchers.stock.get v.kind with
          inBaskets := (s.vouchers.stock.get v.kind).inBaskets - v.quantity
          available := (s.vouchers.stock.get v.kind).available + v.quantity })
      ∧ (∀ k, k ∉ b.vouchers.map (·.kind) → t.vouchers.stock.get k = s.vouchers.stock.get k))
  ∧ (∀ scr n e s k q c, Takes (.freeSale scr n) e s → s.sale n = some k → k.quote = some q →
    s.screening scr = some c →
    let of (state : VoucherState) := s.vouchers.records.countP (fun v => v.sale == n && v.state == state)
    ∃ t c', Carries .freeSale e [.screenings, .sales, .vouchers]
        (after (q.taken.elim nothing (fun w => on w.link.line [answerFrame w .ok (amountBytes q.amount)]))
          (on .ol [noticeFrame 0xEB ([1] ++ bytes3 n ++ bytes2 k.screening ++ [ownerByte k.origin]
            ++ paymentBytes k.payment ++ amountBytes q.amount ++ bytes1 (of .suspended) ++ bytes1 (of .redeemed))]))
        s t
      ∧ SeatsOnly scr s t ∧ t.screening scr = some c'
      ∧ (∀ y, Grid.at c'.seats y = match Grid.at c.seats y with
          | some (.sold m i) => if m = n then some .free else some (.sold m i)
          | other => other)
      ∧ t.sale n = some { k with state := .refunded, quote := none }
      ∧ t.sales = { s.sales with records := s.sales.records.map (fun x =>
          if x.number = n then { x with state := .refunded, quote := none } else x) }
      ∧ t.vouchers.records = s.vouchers.records.map (fun v =>
          if v.sale = n ∧ v.state = .suspended then { v with state := .void } else v)
      ∧ t.vouchers.serial = s.vouchers.serial
      ∧ ∀ kind, t.vouchers.stock.get kind = Stock.move .outstanding .available
          (s.vouchers.records.countP (fun v => v.sale == n && v.state == .suspended && v.kind == kind))
          (s.vouchers.stock.get kind))

/-- R51, R115, R117, R140: SELL_BASKET carried out makes the seats of the basket's lines SOLD, each with its place,
and no other; the basket leaves its slot, and the sale stands COMMITTED with its tickets UNPRINTED, the figures of its
tally, its payment and its vouchers, each a record ISSUED, its unit going from in_baskets to outstanding. The sale's
job is asked for; SALE_NOTICE carries the record to the office, and the owner is told: a station with SALE_DONE, the
sale being its last, and a SETTLE or RESOLVE that waits with its answer. R87, R127: the vouchers take their charges in
order, bundle-priced units first, and their codes from the serial on. R139 to R143: the job is made of the tickets,
the slips and, for a station, the receipt, or waits, or is not queued; a PRICES_ACTIVE comes first, before the
SALE_NOTICE on OL (DESIGN CHOICE, log entry 27), where an activation was deferred until this basket left. Which free
elements the job takes is open (log entry 5), and the lines of the receipt are the model's choice where section 12.5
leaves them (log entry 6). -/
def Obligations.CommitsRecordTheSale : Prop :=
  ∀ slot ref scr n e s b k c g, Takes (.sellBasket slot ref scr n) e s → s.basket slot ref = some b →
    s.sales.commits.find? (fun k => k.number == n) = some k → s.sale n = none → b.tally = some g →
    s.screening scr = some c → (lineSeats b.lines).Nodup →
    (∀ y ∈ lineSeats b.lines, Grid.at c.seats y ≠ none) →
    ∃ t r c' o prices job told, exec .sellBasket s = .next t ∧ t.engine = e
      ∧ Effect [.engine, .screenings, .baskets, .prices, .vouchers, .stations, .sales, .print]
          (after prices (after job (after (on .ol [noticeFrame 0xEA r.bytes]) told))) s t
      ∧ (prices = nothing
        ∨ s.prices.staged.waiting = true ∧ ∃ fields, prices = on .ol [noticeFrame 0xE8 (2 :: fields)])
      ∧ (let codes := listBytes (fun (v : SaleVoucher) => codeBytes v.code) r.vouchers
        let answered (fields : List Byte) :=
          b.waiter.elim nothing (fun w => on w.link.line [answerFrame w .ok fields])
        told = match b.owner with
          | .station _ => after
              (toOwner s b.owner (noticeFrame 0xE5 (bytes1 slot.val ++ bytes2 b.ref ++ bytes3 n
                ++ amountBytes r.total ++ amountBytes r.tax ++ bytes1 r.tickets.length ++ codes
                ++ [PrintOutcome.code o])))
              (answered (bytes3 n ++ [PrintOutcome.code o]))
          | .office => answered (bytes3 n ++ amountBytes r.total ++ amountBytes r.tax ++ codes
              ++ [PrintOutcome.code o]))
      ∧ (let line : Option (Fin 8) := match b.owner with
          | .station st => (s.binding st).map (·.ticket)
          | .office => k.line
        match line with
        | none => o = PrintOutcome.notQueued ∧ job = nothing ∧ t.print = s.print
        | some i => Requested i r b.owner (.first r.tickets.length r.vouchers.length (b.owner != .office)) o
            job s t)
      ∧ LeavesSlot slot b s t
      ∧ SeatsOnly scr s t ∧ t.screening scr = some c'
      ∧ (∀ y, y ∉ lineSeats b.lines → Grid.at c'.seats y = Grid.at c.seats y)
      ∧ (∀ i, ∀ h : i < b.lines.length,
          Grid.at c'.seats (b.lines[i].row, b.lines[i].pos) = some (.sold n i))
      ∧ t.sale n = some r ∧ r.screening = b.screening ∧ r.origin = b.owner ∧ r.state = .committed
      ∧ r.generation = g.generation ∧ r.subtotal = g.subtotal ∧ r.discount = g.discount
      ∧ r.voucherTotal = g.voucherTotal ∧ r.total = g.total ∧ r.tax = g.tax ∧ r.payment = k.payment
      ∧ r.quote = none ∧ (r.jobLive = true ↔ o ≠ .notQueued)
      ∧ r.tickets = b.lines.map (fun l => ⟨l.row, l.pos, l.type, l.price.getD 0, .unprinted, 0⟩)
      ∧ r.vouchers.map (fun v => (v.kind, v.price)) = g.charges.flatMap (fun u =>
          List.replicate u.bundleUnits (u.kind, u.bundlePrice) ++ List.replicate u.comboUnits (u.kind, u.comboPrice))
      ∧ (s.vouchers.records.length ≤ 4096 → CodesFrom s.clock.day (fun x => ∃ v ∈ s.vouchers.records, v.code = x)
          s.vouchers.serial (r.vouchers.map (·.code)) t.vouchers.serial)
      ∧ t.sales = { released b s with
          records := s.sales.records ++ [r]
          commits := s.sales.commits.filter (fun x => x.number != n)
          last := t.sales.last }
      ∧ (∀ st, t.sales.last.get st = if b.owner = .station st then some ⟨n, 600⟩ else s.sales.last.get st)
      ∧ t.vouchers.records = s.vouchers.records ++ r.vouchers.map (fun v =>
          ⟨v.code, v.kind, n, b.screening, v.price, .issued, none⟩)
      ∧ (∀ kind, r.vouchers.countP (fun v => v.kind == kind)
            = ((g.charges.filter (fun u => u.kind == kind)).map (fun u => u.bundleUnits + u.comboUnits)).sum
          ∧ t.vouchers.stock.get kind = Stock.move .inBaskets .outstanding
            (r.vouchers.countP (fun v => v.kind == kind)) (s.vouchers.stock.get kind))

/-- R53, R124, R134: RESTORE_SEATS is refused for the first check that fails; one that passes every check makes the
sale's seats SOLD in its order, and no other, and adds the sale and its vouchers to their tables, the units of those
ISSUED and REDEEMED leaving available; the RESTORE_SALE is answered OK. What check 1 holds out of range beyond the
words of R124 (a seat or a code named twice, a code whose day or serial digits R127 does not form, a figure above its
bound of R88) is the model's reading (DEDUCED, log entry 18), as is when it is judged (log entry 17); that the bytes
behind a payment's flag that is off are not judged is its choice (log entry 39). -/
def Obligations.RestoresAddTheSale : Prop :=
  (∀ r f e s sale vs c, Takes (.restore r f) e s → readRestored f = some (sale, vs) →
    s.screening sale.screening = some c → s.holdsNumber sale.number = false →
    (∀ v ∈ vs, s.voucher v.code = none) → s.hasRoom vs.length = true →
    (∀ y ∈ sale.tickets, Grid.at c.seats (y.row, y.pos) = some .free) → s.stockFor vs = true →
    ∃ t c', Carries .restoreSeats e [.screenings, .sales, .vouchers] (on r.link.line [answerFrame r .ok []]) s t
      ∧ t.sales = { s.sales with records := s.sales.records ++ [sale] }
      ∧ t.vouchers.records = s.vouchers.records ++ vs ∧ t.vouchers.serial = s.vouchers.serial
      ∧ (∀ k, t.vouchers.stock.get k = { s.vouchers.stock.get k with
          available := (s.vouchers.stock.get k).available
            - vs.countP (fun v => v.kind == k && (v.state == .issued || v.state == .redeemed))
          outstanding := (s.vouchers.stock.get k).outstanding
            + vs.countP (fun v => v.kind == k && v.state == .issued)
          taken := (s.vouchers.stock.get k).taken + vs.countP (fun v => v.kind == k && v.state == .redeemed) })
      ∧ SeatsOnly sale.screening s t ∧ t.screening sale.screening = some c'
      ∧ (∀ y, y ∉ sale.tickets.map (fun k => (k.row, k.pos)) → Grid.at c'.seats y = Grid.at c.seats y)
      ∧ (∀ i, ∀ h : i < sale.tickets.length,
          Grid.at c'.seats (sale.tickets[i].row, sale.tickets[i].pos) = some (.sold sale.number i)))
  ∧ (∀ r f e s, Takes (.restore r f) e s →
    let refused (result : Result) (fields : List Byte) : Prop :=
      ∃ t, Carries .restoreSeats e [] (on r.link.line [answerFrame r result fields]) s t
    (readRestored f = none → refused .badRequest [])
    ∧ ∀ sale vs, readRestored f = some (sale, vs) →
      match s.screening sale.screening with
      | none => refused .noSuch []
      | some c =>
        let place (y : Ticket) := Grid.at c.seats (y.row, y.pos)
        if s.holdsNumber sale.number = true ∨ ∃ v ∈ vs, s.voucher v.code ≠ none then refused .taken []
        else if s.hasRoom vs.length = false then refused .tableFull []
        else if ∃ y ∈ sale.tickets, place y = none then refused .badRequest []
        else match sale.tickets.find? (fun y => place y != some .free) with
          | some y => refused .taken [BitVec.ofNat 8 y.row, BitVec.ofNat 8 y.pos]
          | none => s.stockFor vs = false → refused .noStock [])

-- ## Baskets

/-- R9, R55, R56, R59, R68, R76: an accepted OPEN_BASKET takes the lowest free slot, gives the basket as its ref the
value of the next-ref counter, or the first value after it that no live basket holds, the ACTIVE generation, whose
count rises, and the hold time of its owner's kind. -/
def Obligations.OpenBasketCreatesABasket : Prop :=
  ∀ src tag id who r s o c k (i : Fin 16), Heard (.openBasket src tag id) who r s → who.owner = some o →
    id ≠ 0 → s.screening id.toNat = some c →
    (c.state = .onSale ∧ (o = .office ∨ c.kioskSales = true) ∨ c.state = .loaded ∧ o = .office) →
    (o ≠ .office → ∀ j b, s.baskets.get j = some b → b.owner ≠ o) →
    (o = .office → ((indices 16).filter (fun j =>
      (s.baskets.get j).any (fun b => b.owner == .office))).length < 8) →
    s.prices.active = some k → s.baskets.get i = none → (∀ j, j < i → s.baskets.get j ≠ none) →
    let hold := if o = .office then s.params.officeHold else s.params.stationHold
    ∃ t ref, Answers (.openBasket src tag id) r .ok
        (bytes1 i.val ++ bytes2 ref ++ bytes1 k.generation ++ bytes2 hold) [.baskets, .prices, .nextRef] s t
      ∧ FirstFrom 65535 s.nextBasketRef (fun n => ∃ j b, s.baskets.get j = some b ∧ b.ref = n) ref
      ∧ t.baskets = s.baskets.set i (some {
          ref := ref, owner := o, screening := id.toNat, lines := [], vouchers := [], generation := k.generation
          tally := none, state := .opened, endReason := none, hold := .running hold, extensionUsed := false
          warningSent := false, attempts := 0, reserved := false, payRef := none, waiter := none })
      ∧ t.prices = { s.prices with active := some { k with count := k.count + 1 } }
      ∧ t.nextBasketRef = (if ref = 65535 then 1 else ref + 1)

/-- R61, R62, R135: ADD_VOUCHER moves the quantity from available to in_baskets and adds it to the kind's line,
which it makes where there is none; DROP_VOUCHER moves it back, a line brought to 0 going. -/
def Obligations.VoucherLinesMoveStock : Prop :=
  (∀ src tag slot ref kind quantity who r s i b (k : Fin 8) g,
      Heard (.addVoucher src tag slot ref kind quantity) who r s → Owned who slot ref i b s →
      b.state = .opened → kind.toNat = k.val + 1 → within 1 8 quantity.toNat →
      s.prices.bank b.generation = some g → (g.set.combos.get k).offered = true →
      (b.vouchers.map (·.quantity)).sum + quantity.toNat ≤ 8 →
      (b.vouchers.length < 4 ∨ ∃ l ∈ b.vouchers, l.kind = k) →
      quantity.toNat ≤ (s.vouchers.stock.get k).available →
    ∃ t lines, Answers (.addVoucher src tag slot ref kind quantity) r .ok
        (listBytes (fun l => [BitVec.ofNat 8 (l.kind.val + 1), BitVec.ofNat 8 l.quantity]) lines)
        [.baskets, .vouchers] s t
      ∧ lines = (if ∃ l ∈ b.vouchers, l.kind = k then b.vouchers.map (fun l =>
            if l.kind = k then { l with quantity := l.quantity + quantity.toNat } else l)
          else b.vouchers ++ [⟨k, quantity.toNat⟩])
      ∧ t.baskets = s.baskets.set i (some { b with vouchers := lines })
      ∧ t.vouchers = { s.vouchers with stock := s.vouchers.stock.set k { s.vouchers.stock.get k with
          available := (s.vouchers.stock.get k).available - quantity.toNat
          inBaskets := (s.vouchers.stock.get k).inBaskets + quantity.toNat } })
  ∧ (∀ src tag slot ref kind quantity who r s i b (k : Fin 8) l,
      Heard (.dropVoucher src tag slot ref kind quantity) who r s → Owned who slot ref i b s →
      b.state = .opened → kind.toNat = k.val + 1 → within 1 8 quantity.toNat →
      b.vouchers.find? (fun l => l.kind == k) = some l → quantity.toNat ≤ l.quantity →
      quantity.toNat ≤ (s.vouchers.stock.get k).inBaskets →
    ∃ t lines, Answers (.dropVoucher src tag slot ref kind quantity) r .ok
        (listBytes (fun l => [BitVec.ofNat 8 (l.kind.val + 1), BitVec.ofNat 8 l.quantity]) lines)
        [.baskets, .vouchers] s t
      ∧ lines = (b.vouchers.map (fun l =>
          if l.kind = k then { l with quantity := l.quantity - quantity.toNat } else l)).filter
            (fun l => l.quantity != 0)
      ∧ t.baskets = s.baskets.set i (some { b with vouchers := lines })
      ∧ t.vouchers = { s.vouchers with stock := s.vouchers.stock.set k { s.vouchers.stock.get k with
          available := (s.vouchers.stock.get k).available + quantity.toNat
          inBaskets := (s.vouchers.stock.get k).inBaskets - quantity.toNat } })

/-- R63, R86, R89: TALLY in OPEN stores the tally of the basket's lines, by its generation's prices, writes the line
prices and makes the basket TALLIED; in TALLIED it answers the stored tally and changes nothing. -/
def Obligations.TallyStoresTheTally : Prop :=
  (∀ src tag slot ref who r s i b k c h rows g, Heard (.tally src tag slot ref) who r s →
      Owned who slot ref i b s → b.state = .opened → b.lines ≠ [] → s.prices.bank b.generation = some k →
      s.screening b.screening = some c → s.plan c.plan = some (h, rows) →
      g = computeTally b.generation k.set rows c.cls c.matinee b.lines b.vouchers →
    ∃ t, Answers (.tally src tag slot ref) r .ok g.bytes [.baskets] s t
      ∧ t.baskets = s.baskets.set i (some { b with
          tally := some g, state := .tallied
          lines := (b.lines.zip g.prices).map (fun x => { x.1 with price := some x.2 }) })
      ∧ g.prices.length = b.lines.length)
  ∧ (∀ src tag slot ref who r s i b g, Heard (.tally src tag slot ref) who r s →
      Owned who slot ref i b s → b.state = .tallied → b.tally = some g →
    ∃ t, Answers (.tally src tag slot ref) r .ok g.bytes [] s t)

/-- R86 to R88: for a price set and basket lines within their ranges, every figure of a tally is within its bound,
the discount never exceeds the subtotal, the total is T − D + V, and X is the total times r over 1000 + r,
rounded half-up. -/
def Obligations.TallyFiguresWithinBounds : Prop :=
  ∀ (g : Nat) (p : PriceSet) (rows : List (List Cell)) (cls : Sys2Proof.Machine.Class) (matinee : Bool) (lines : List SeatLine)
    (vouchers : List VoucherLine),
    (∀ i, p.base.get i ≤ 49999) → (∀ i, p.surcharges.classes.get i ≤ 9999) → p.surcharges.matinee ≤ 50 →
    (∀ i, (p.combos.get i).combo ≤ 9999 ∧ (p.combos.get i).bundle ≤ (p.combos.get i).combo) →
    p.rates.percent ≤ 30 → p.rates.tax ≤ 250 → lines.length ≤ 10 → (vouchers.map (·.quantity)).sum ≤ 8 →
    let t := computeTally g p rows cls matinee lines vouchers
    (∀ n ∈ t.prices, n ≤ 59998) ∧ t.subtotal = t.prices.sum ∧ t.subtotal ≤ 599980
      ∧ t.discount ≤ (30 * t.subtotal + 50) / 100 ∧ t.discount ≤ 179994 ∧ t.discount ≤ t.subtotal
      ∧ t.voucherTotal ≤ 79992
      ∧ t.total + t.discount = t.subtotal + t.voucherTotal ∧ t.total ≤ 679972
      ∧ t.tax = (2 * t.total * p.rates.tax + 1000 + p.rates.tax) / (2 * (1000 + p.rates.tax))
      ∧ 2 * t.tax * (1000 + p.rates.tax) ≤ 2 * t.total * p.rates.tax + (1000 + p.rates.tax)
      ∧ 2 * t.total * p.rates.tax < 2 * t.tax * (1000 + p.rates.tax) + (1000 + p.rates.tax)
      ∧ t.tax ≤ 135994

/-- R64: REOPEN of a basket by its owner: OK and nothing changed in OPEN; WRONG_STATE and nothing changed in
PAYING, REVERSING and DOUBT; in TALLIED the tally and the line prices go, the state is OPEN, all else of the
basket stays, and the answer is OK. -/
def Obligations.ReopenByState : Prop :=
  ∀ src tag slot ref who r s i b, Heard (.reopen src tag slot ref) who r s → Owned who slot ref i b s →
    (b.state = .opened → ∃ t, Answers (.reopen src tag slot ref) r .ok [] [] s t)
    ∧ (b.state = .paying ∨ b.state = .reversing ∨ b.state = .doubt →
      ∃ t, Answers (.reopen src tag slot ref) r .wrongState [] [] s t)
    ∧ (b.state = .tallied → ∃ t, Answers (.reopen src tag slot ref) r .ok [] [.baskets] s t
      ∧ t.baskets = s.baskets.set i (some { b with
          tally := none, state := .opened, lines := b.lines.map (fun l => { l with price := none }) }))
    ∧ (b.state = .ending → ∃ t, Answers (.reopen src tag slot ref) r .noSuch [] [] s t)

/-- R66: EXTEND of a basket by its owner: in OPEN or TALLIED with the flag off the countdown rises by the extension
time to at most 900 or 3,600 s, the flag is set, and the warning-sent flag cleared where the countdown then
stands above the lead; a second tick that comes after takes one second off the new value; with the flag on LIMIT, in
PAYING, REVERSING and DOUBT WRONG_STATE, in ENDING NO_SUCH, and nothing changed. -/
def Obligations.ExtendByStateAndFlag : Prop :=
  ∀ src tag slot ref who r s i b, Heard (.extend src tag slot ref) who r s → Owned who slot ref i b s →
    (b.state = .opened ∨ b.state = .tallied → b.extensionUsed = false →
      ∃ t n, n = min (b.hold.seconds + s.params.extension) (if b.owner = .office then 3600 else 900)
        ∧ Answers (.extend src tag slot ref) r .ok (bytes2 n) [.baskets] s t
        ∧ t.baskets = s.baskets.set i (some { b with
            hold := .running n, extensionUsed := true
            warningSent := if s.params.warningLead < n then false else b.warningSent })
        ∧ (t.quiet = true → ∃ u, exec .secondTick t = .next u
          ∧ (u.baskets.get i).map (·.hold) = some (.running (n - 1))))
    ∧ (b.state = .opened ∨ b.state = .tallied → b.extensionUsed = true →
      ∃ t, Answers (.extend src tag slot ref) r .limit [] [] s t)
    ∧ (b.state = .paying ∨ b.state = .reversing ∨ b.state = .doubt →
      ∃ t, Answers (.extend src tag slot ref) r .wrongState [] [] s t)
    ∧ (b.state = .ending → ∃ t, Answers (.extend src tag slot ref) r .noSuch [] [] s t)

/-- R67, R70, R72, R101: CANCEL in OPEN or TALLIED, and the expiry of a running hold countdown, send the basket to
ENDING and place its RELEASE_BASKET, the CANCEL's answer waiting; CANCEL of an attempt in flight sends ABORT and
waits; an expiry that is not due does nothing (DEDUCED, log entry 12). -/
def Obligations.BasketsEndByCancelOrExpiry : Prop :=
  (∀ src tag slot ref who r s i b, Heard (.cancel src tag slot ref) who r s → Owned who slot ref i b s →
      b.state = .opened ∨ b.state = .tallied →
    ∃ t, Runs (.cancel src tag slot ref) r [.baskets, .engine, .sales] nothing s t
      ∧ t.baskets = s.baskets.set i (some { b.ended .cancelled with waiter := some r })
      ∧ t.engine = { s.engine with queue := s.engine.queue ++ [.releaseBasket i b.ref b.screening] }
      ∧ t.sales = released b s)
  ∧ (∀ src tag slot ref who r s i b line rec, Heard (.cancel src tag slot ref) who r s →
      Owned who slot ref i b s → b.state = .paying → s.attemptLine b = some (line, rec) →
      rec.state = .sent ∨ rec.state = .accepted →
    ∃ t, Runs (.cancel src tag slot ref) r [.baskets, .pay]
        (on (.pl line) [noticeFrame 0x51 (bytes2 rec.payRef)]) s t
      ∧ t.baskets = s.baskets.set i (some { b with waiter := some r })
      ∧ t.pay = { s.pay with
          lines := s.pay.lines.set line
            { (s.payLine line).onRecord rec.payRef (fun x => { x with state := .aborting }) with
            exchange := some ⟨.abort, rec.payRef, s.params.acceptWait⟩ } })
  ∧ (∀ s i b, s.baskets.get i = some b → b.hold = .running 0 →
    ∃ t, exec (.holdCountdownExpiry i) s = .next t ∧ Effect [.baskets, .engine, .sales] nothing s t
      ∧ t.baskets = s.baskets.set i (some (b.ended .expired))
      ∧ t.engine = { s.engine with queue := s.engine.queue ++ [.releaseBasket i b.ref b.screening] }
      ∧ t.sales = released b s)
  ∧ (∀ s i, (∀ b, s.baskets.get i = some b → b.hold ≠ .running 0) →
    ∃ t, exec (.holdCountdownExpiry i) s = .next t ∧ Effect [] nothing s t)

/-- R92 to R96, R113: an accepted PAY reserves room, makes the basket PAYING with its countdown suspended and one
attempt more, makes the attempt's record, sends AUTHORIZE and starts the accept wait; its answer goes first. -/
def Obligations.PayStartsAnAttempt : Prop :=
  ∀ src tag slot ref amount who r s i b n k g, Heard (.pay src tag slot ref amount) who r s →
    Owned who slot ref i b s → b.owner = .station n → b.state = .tallied →
    b.attempts < s.params.declineLimit → b.tally = some g → readAmount amount = some g.total →
    s.binding n = some k → (s.payLine k.pay).exchange = none → (s.payLine k.pay).queue = [] →
    s.hasRoom (b.vouchers.map (·.quantity)).sum = true →
    ∃ t p, Runs (.pay src tag slot ref amount) r [.baskets, .pay, .sales]
        (after (on r.link.line [answerFrame r .ok (bytes2 p ++ bytes1 (b.attempts + 1))])
          (on (.pl k.pay) [noticeFrame 0x50 (bytes2 p ++ amountBytes g.total)])) s t
      ∧ p = s.freePayRef
      ∧ t.baskets = s.baskets.set i (some { b with
          state := .paying, hold := .suspended b.hold.seconds, attempts := b.attempts + 1, reserved := true
          payRef := some p })
      ∧ t.sales = { s.sales with
          reservedSales := s.sales.reservedSales + 1
          reservedVouchers := s.sales.reservedVouchers + (b.vouchers.map (·.quantity)).sum }
      ∧ t.pay = { s.pay with
          nextRef := if p = 65535 then 1 else p + 1
          lines := s.pay.lines.set k.pay { s.payLine k.pay with
            records := addRecord ⟨p, i, b.ref, g.total, .sent, .none, none, none⟩ (s.payLine k.pay).records
            exchange := some ⟨.authorization, p, s.params.acceptWait⟩ } }

/-- R108, R112 to R114, R116: SETTLE of a TALLIED basket, and RESOLVE SOLD of a basket in DOUBT, take the next sale
number and place SELL_BASKET, the answer waiting; RESOLVE VOID places RELEASE_BASKET; a RESOLVE takes the
basket's entry off the doubt list. That the approval code of a RESOLVE is judged for SOLD alone, so that VOID takes
any, is the model's reading of R177 (DEDUCED, log entry 29). -/
def Obligations.SettleAndResolveEndTheBasket : Prop :=
  (∀ src tag slot ref line l who r s i b, Heard (.settle src tag slot ref line) who r s →
      Owned who slot ref i b s → b.state = .tallied →
      (line = 0xFF ∧ l = none ∨ ∃ k : Fin 8, line.toNat = 0x20 + k.val ∧ l = some k) →
      s.hasRoom (b.vouchers.map (·.quantity)).sum = true →
    ∃ t n, Runs (.settle src tag slot ref line) r [.baskets, .sales, .engine] nothing s t
      ∧ n = s.freeNumber
      ∧ t.baskets = s.baskets.set i (some { b with
          state := .ending, endReason := some .committed, hold := .absent, reserved := true
          waiter := some r })
      ∧ t.sales = { s.sales with
          reservedSales := s.sales.reservedSales + 1
          reservedVouchers := s.sales.reservedVouchers + (b.vouchers.map (·.quantity)).sum
          next := if n = 999999 then 1 else n + 1
          commits := s.sales.commits ++ [⟨i, b.ref, n, none, l⟩] }
      ∧ t.engine = { s.engine with queue := s.engine.queue ++ [.sellBasket i b.ref b.screening n] })
  ∧ (∀ src tag slot ref code who r s i b d, Heard (.resolve src tag slot ref 1 code) who r s →
      slot.toNat = i.val → s.basket i ref.toNat = some b → b.state = .doubt →
      (∀ x ∈ code, 0x20 ≤ x.toNat ∧ x.toNat ≤ 0x7E) → s.doubtOf i b.ref = some d →
      (s.payLine d.line).reversal d.payRef = none → s.hasRoom (b.vouchers.map (·.quantity)).sum = true →
    ∃ t n, Runs (.resolve src tag slot ref 1 code) r [.baskets, .sales, .engine, .pay] nothing s t
      ∧ n = s.freeNumber
      ∧ t.baskets = s.baskets.set i (some { b with
          state := .ending, endReason := some .committed, hold := .absent, reserved := true
          waiter := some r })
      ∧ t.sales = { s.sales with
          reservedSales := s.sales.reservedSales + 1
          reservedVouchers := s.sales.reservedVouchers + (b.vouchers.map (·.quantity)).sum
          next := if n = 999999 then 1 else n + 1
          commits := s.sales.commits ++ [⟨i, b.ref, n, some ⟨d.line, d.payRef, code⟩, none⟩] }
      ∧ t.engine = { s.engine with queue := s.engine.queue ++ [.sellBasket i b.ref b.screening n] }
      ∧ t.pay = { s.pay with doubts := s.pay.doubts.filter (fun x => ¬ (x.slot = i ∧ x.ref = b.ref)) })
  ∧ (∀ src tag slot ref code who r s i b, Heard (.resolve src tag slot ref 2 code) who r s →
      slot.toNat = i.val → s.basket i ref.toNat = some b → b.state = .doubt →
    ∃ t, Runs (.resolve src tag slot ref 2 code) r [.baskets, .sales, .engine, .pay] nothing s t
      ∧ t.baskets = s.baskets.set i (some { b.ended .voided with waiter := some r })
      ∧ t.sales = released b s
      ∧ t.engine = { s.engine with queue := s.engine.queue ++ [.releaseBasket i b.ref b.screening] }
      ∧ t.pay = { s.pay with doubts := s.pay.doubts.filter (fun x => ¬ (x.slot = i ∧ x.ref = b.ref)) })

-- ## Card payment

/-- R91, R97, R178: ACCEPTED in SENT starts the authorization wait and sends PAY_STATUS; PROGRESS in ACCEPTED sets
the stage and sends PAY_STATUS, and in SENT is an ACCEPTED first; ACCEPTED in ACCEPTED, either for a record in a
final state or ABORTING, and either for a pay ref that only a queued reversal holds, is discarded; one that names a
pay ref the line does not know, a PROGRESS of no stage, and a STRAY_MESSAGE, is counted. The stage bytes of a
PAY_STATUS are the model's reading (DEDUCED, log entry 10). -/
def Obligations.AttemptsReportTheirProgress : Prop :=
  (∀ line (p : BitVec 16) s rec b, s.quiet = true → (s.payLine line).record p.toNat = some rec →
      rec.state = .sent → s.basket rec.slot rec.ref = some b →
    ∃ t, exec (.accepted line p) s = .next t
      ∧ Effect [] (toOwner s b.owner (noticeFrame 0xE3
          (bytes1 rec.slot.val ++ bytes2 b.ref ++ bytes2 p.toNat ++ [1])))
        (s.withPayLine line { (s.payLine line).onRecord p.toNat (fun x => { x with state := .accepted }) with
          exchange := some ⟨.authorization, p.toNat, s.params.authorizationWait⟩ }) t)
  ∧ (∀ line (p : BitVec 16) (k : Byte) stage s rec b, s.quiet = true →
      (s.payLine line).record p.toNat = some rec → rec.state = .accepted →
      s.basket rec.slot rec.ref = some b →
      (k = 1 ∧ stage = .cardWait ∨ k = 2 ∧ stage = .pinWait ∨ k = 3 ∧ stage = .online) →
    ∃ t, exec (.progress line p k) s = .next t
      ∧ Effect [] (toOwner s b.owner (noticeFrame 0xE3
          (bytes1 rec.slot.val ++ bytes2 b.ref ++ bytes2 p.toNat ++ [k + 1])))
        (s.withPayLine line ((s.payLine line).onRecord p.toNat (fun x => { x with stage := stage }))) t)
  ∧ (∀ line (p : BitVec 16) (k : Byte) stage s rec b, s.quiet = true →
      (s.payLine line).record p.toNat = some rec → rec.state = .sent → s.basket rec.slot rec.ref = some b →
      (k = 1 ∧ stage = .cardWait ∨ k = 2 ∧ stage = .pinWait ∨ k = 3 ∧ stage = .online) →
    ∃ t, exec (.progress line p k) s = .next t
      ∧ Effect [] (after
          (toOwner s b.owner (noticeFrame 0xE3 (bytes1 rec.slot.val ++ bytes2 b.ref ++ bytes2 p.toNat ++ [1])))
          (toOwner s b.owner
            (noticeFrame 0xE3 (bytes1 rec.slot.val ++ bytes2 b.ref ++ bytes2 p.toNat ++ [k + 1]))))
        (s.withPayLine line { (s.payLine line).onRecord p.toNat (fun x => { x with
            state := .accepted, stage := stage }) with
          exchange := some ⟨.authorization, p.toNat, s.params.authorizationWait⟩ }) t)
  ∧ (∀ line (p : BitVec 16) (k : Byte) s rec, s.quiet = true →
      (s.payLine line).record p.toNat = some rec → rec.state ≠ .sent → rec.state ≠ .accepted →
      within 1 3 k.toNat →
    (∃ t, exec (.accepted line p) s = .next t ∧ Effect [] nothing s t)
      ∧ ∃ t, exec (.progress line p k) s = .next t ∧ Effect [] nothing s t)
  ∧ (∀ line i (p : BitVec 16) (k : Byte) body s, s.quiet = true → within 1 3 k.toNat →
      ((i = .accepted line p ∨ i = .progress line p k)
        ∧ (s.payLine line).record p.toNat = none ∧ (s.payLine line).reversal p.toNat = none
        ∨ i = .strayMessage line body) →
    ∃ t, exec i s = .next t ∧ Effect [] nothing (s.withPayLine line { s.payLine line with
      stray := min ((s.payLine line).stray + 1) 65535 }) t)
  ∧ (∀ line (p : BitVec 16) s rec, s.quiet = true → (s.payLine line).record p.toNat = some rec →
      rec.state = .accepted → ∃ t, exec (.accepted line p) s = .next t ∧ Effect [] nothing s t)
  ∧ (∀ line (p : BitVec 16) (k : Byte) s q, s.quiet = true → (s.payLine line).record p.toNat = none →
      (s.payLine line).reversal p.toNat = some q → within 1 3 k.toNat →
    (∃ t, exec (.accepted line p) s = .next t ∧ Effect [] nothing s t)
      ∧ ∃ t, exec (.progress line p k) s = .next t ∧ Effect [] nothing s t)
  ∧ (∀ line (p : BitVec 16) (k : Byte) s, s.quiet = true → ¬ within 1 3 k.toNat →
    ∃ t, exec (.progress line p k) s = .next t ∧ Effect [] nothing (s.withPayLine line { s.payLine line with
      stray := min ((s.payLine line).stray + 1) 65535 }) t)

/-- R94, R98, R114: an APPROVED of the right amount for an attempt in SENT or ACCEPTED begins the commit of its
basket, and the line sends the next reversal if one waits; one of another amount makes the record DECLINED with reason
0 and is reversed, and its basket is judged as for a decline (R99), the reversal that finds its queue full (R106)
being given up with a DOUBT_NOTICE. R101: in ABORTING the record becomes ABORTED, the approval is reversed, or given
up with a DOUBT_NOTICE where the queue is full (R106), and the basket cancelled. R102: a late APPROVED commits
nothing: its code is stored, and a queued reversal takes code and amount or a new one is queued; one that says again
what the record says does nothing. R91: an APPROVED that names a pay ref the line does not know, or whose amount or
code is malformed, is counted as stray. Figures of a PAY_RESULT that are not called for are zero by the model's choice
(DESIGN CHOICE, log entry 35), and the layouts of the two notices and of REVERSE are its reading (DEDUCED, log entry
15, the approval code's presence flag a DESIGN CHOICE). -/
def Obligations.ApprovalsCommitOrReverse : Prop :=
  (∀ line (p : BitVec 16) code amount s rec b n, s.quiet = true →
      (s.payLine line).record p.toNat = some rec → rec.state = .sent ∨ rec.state = .accepted →
      code.length = 6 → (∀ x ∈ code, 0x20 ≤ x.toNat ∧ x.toNat ≤ 0x7E) → readAmount amount = some rec.amount →
      s.basket rec.slot rec.ref = some b → n = s.freeNumber →
    ∃ t, exec (.approved line p code amount) s = .next t
      ∧ Effect [.baskets, .sales, .engine, .pay]
        (after (toOwner s b.owner (resultFrame rec.slot b p.toNat .approved 0 0 0 0))
          (reverseOf line (s.payLine line).queue)) s t
      ∧ t.pay = { s.pay with
          lines := s.pay.lines.set line
            (((s.payLine line).onRecord p.toNat (fun x => { x with state := .approved, code := some code })).resumed
            s.params.reversalInterval) }
      ∧ t.baskets = s.baskets.set rec.slot (some { b with
          state := .ending, endReason := some .committed, hold := .absent })
      ∧ t.sales = { s.sales with
          next := if n = 999999 then 1 else n + 1
          commits := s.sales.commits ++ [⟨rec.slot, b.ref, n, some ⟨line, p.toNat, code⟩, none⟩] }
      ∧ t.engine = { s.engine with queue := s.engine.queue ++ [.sellBasket rec.slot b.ref b.screening n] })
  ∧ (∀ line (p : BitVec 16) code amount (a : Nat) s rec, s.quiet = true →
      (s.payLine line).record p.toNat = some rec → rec.state = .sent ∨ rec.state = .accepted →
      code.length = 6 → (∀ x ∈ code, 0x20 ≤ x.toNat ∧ x.toNat ≤ 0x7E) → readAmount amount = some a →
      a ≠ rec.amount → (s.payLine line).queue.length < 4 → (s.payLine line).reversal p.toNat = none →
    ∃ t, exec (.approved line p code amount) s = .next t
      ∧ Only [.lines, .latched, .choice, .baskets, .sales, .engine, .pay, .stations] s t
      ∧ t.payLine line = PayLine.resumed { (s.payLine line).onRecord p.toNat (fun x => { x with
            state := .declined, reason := some 0, code := some code }) with
          queue := (s.payLine line).queue ++ [⟨p.toNat, a, some code, 0, none⟩] } s.params.reversalInterval)
  ∧ (∀ line (p : BitVec 16) code amount (a : Nat) s rec b (q : Reversal) queue doubt, s.quiet = true →
      (s.payLine line).record p.toNat = some rec → rec.state = .sent ∨ rec.state = .accepted →
      code.length = 6 → (∀ x ∈ code, 0x20 ≤ x.toNat ∧ x.toNat ≤ 0x7E) → readAmount amount = some a →
      a ≠ rec.amount → (s.payLine line).reversal p.toNat = none → s.basket rec.slot rec.ref = some b →
      q = ⟨p.toNat, a, some code, 0, none⟩ →
      ((s.payLine line).queue.length < 4 ∧ queue = (s.payLine line).queue ++ [q] ∧ doubt = nothing
        ∨ 4 ≤ (s.payLine line).queue.length ∧ queue = (s.payLine line).queue
          ∧ doubt = on .ol [doubtFrame line q 2 none s]) →
    ∃ t told, exec (.approved line p code amount) s = .next t
      ∧ Effect [.baskets, .sales, .engine, .pay] (after doubt (after told (reverseOf line queue))) s t
      ∧ Judged rec.slot b p.toNat .declined 0 told s t
      ∧ t.pay = { s.pay with
          lines := s.pay.lines.set line
            (PayLine.resumed { (s.payLine line).onRecord p.toNat (fun x => { x with
            state := .declined, reason := some 0, code := some code }) with queue := queue }
            s.params.reversalInterval) })
  ∧ (∀ line (p : BitVec 16) code amount (a : Nat) s rec b (q : Reversal) queue doubt, s.quiet = true →
      (s.payLine line).record p.toNat = some rec → rec.state = .aborting →
      code.length = 6 → (∀ x ∈ code, 0x20 ≤ x.toNat ∧ x.toNat ≤ 0x7E) → readAmount amount = some a →
      (s.payLine line).reversal p.toNat = none → s.basket rec.slot rec.ref = some b →
      q = ⟨p.toNat, a, some code, 0, none⟩ →
      ((s.payLine line).queue.length < 4 ∧ queue = (s.payLine line).queue ++ [q] ∧ doubt = nothing
        ∨ 4 ≤ (s.payLine line).queue.length ∧ queue = (s.payLine line).queue
          ∧ doubt = on .ol [doubtFrame line q 2 none s]) →
    ∃ t, exec (.approved line p code amount) s = .next t
      ∧ Effect [.baskets, .sales, .engine, .pay] (after doubt (reverseOf line queue)) s t
      ∧ t.baskets = s.baskets.set rec.slot (some (b.ended .cancelled)) ∧ t.sales = released b s
      ∧ t.engine = { s.engine with queue := s.engine.queue ++ [.releaseBasket rec.slot b.ref b.screening] }
      ∧ t.pay = { s.pay with
          lines := s.pay.lines.set line
            (PayLine.resumed { (s.payLine line).onRecord p.toNat (fun x => { x with
            state := .aborted, code := some code }) with queue := queue } s.params.reversalInterval) })
  ∧ (∀ line (p : BitVec 16) code amount (a : Nat) s (q : Reversal) queue doubt x, s.quiet = true →
      code.length = 6 → (∀ x ∈ code, 0x20 ≤ x.toNat ∧ x.toNat ≤ 0x7E) → readAmount amount = some a →
      ((∃ rec, (s.payLine line).record p.toNat = some rec ∧ (rec.state = .timedOut ∨ rec.state = .aborted
          ∨ rec.state = .declined ∨ rec.state = .approved ∧ a ≠ rec.amount))
        ∨ (s.payLine line).record p.toNat = none ∧ (s.payLine line).reversal p.toNat ≠ none) →
      q = ⟨p.toNat, a, some code, 0, none⟩ →
      ((s.payLine line).reversal p.toNat ≠ none ∧ doubt = nothing
          ∧ queue = (s.payLine line).queue.map (fun y => if y.payRef = p.toNat then
              { y with code := some code, amount := a } else y)
        ∨ (s.payLine line).reversal p.toNat = none ∧ (s.payLine line).queue.length < 4
          ∧ queue = (s.payLine line).queue ++ [q] ∧ doubt = nothing
        ∨ (s.payLine line).reversal p.toNat = none ∧ 4 ≤ (s.payLine line).queue.length
          ∧ queue = (s.payLine line).queue ∧ doubt = on .ol [doubtFrame line q 2 none s]) →
      x = { (s.payLine line).onRecord p.toNat (fun y => { y with code := some (y.code.getD code) }) with
        queue := queue } →
    ∃ t, exec (.approved line p code amount) s = .next t
      ∧ Effect [.pay] (after doubt (if (s.payLine line).exchange = none then reverseOf line queue else nothing)) s t
      ∧ t.pay = { s.pay with
          lines := s.pay.lines.set line
            (if (s.payLine line).exchange = none then PayLine.resumed x s.params.reversalInterval else x)
          doubts := s.pay.doubts.map (fun d => if d.payRef = p.toNat then { d with code := some code } else d) })
  ∧ (∀ line (p : BitVec 16) code amount s rec, s.quiet = true → (s.payLine line).record p.toNat = some rec →
      rec.state = .approved → code.length = 6 → (∀ x ∈ code, 0x20 ≤ x.toNat ∧ x.toNat ≤ 0x7E) →
      readAmount amount = some rec.amount →
    ∃ t, exec (.approved line p code amount) s = .next t ∧ Effect [] nothing s t)
  ∧ (∀ line (p : BitVec 16) code amount s, s.quiet = true →
      (readAmount amount = none ∨ code.length ≠ 6 ∨ (∃ x ∈ code, ¬ within 0x20 0x7E x.toNat)
        ∨ (s.payLine line).record p.toNat = none ∧ (s.payLine line).reversal p.toNat = none) →
    ∃ t, exec (.approved line p code amount) s = .next t
      ∧ Effect [] nothing (s.withPayLine line { s.payLine line with
          stray := min ((s.payLine line).stray + 1) 65535 }) t)

/-- R99, R109: a DECLINED, or an ABORTED not asked for, for an attempt in SENT or ACCEPTED makes the record DECLINED
with the reason; below the decline limit the basket of an open station returns to TALLIED, that of a station not open
enters ENDING with STATION_CLOSED, at the limit it enters ENDING with PAY_FAILED, and the kiosk is told. R101: in
ABORTING either cancels the basket; R102: in a final state, or where only a queued reversal holds the pay ref, either
is discarded. R91: one that names a pay ref the line does not know is counted as stray, as is a DECLINED of a reason
outside 1–15 (DEDUCED, log entry 13). The figures of the PAY_RESULT, the attempts made in every case and the countdown
0 for a station not open, are the model's choice (DESIGN CHOICE, log entry 35), and the layouts of it and of REVERSE
its reading (DEDUCED, log entry 15, the approval code's presence flag a DESIGN CHOICE). -/
def Obligations.DeclinesJudgeTheBasket : Prop :=
  (∀ line (p : BitVec 16) (k : Byte) (reason : Nat) i s rec b st, s.quiet = true →
    (i = .declined line p k ∧ reason = k.toNat ∧ within 1 15 k.toNat ∨ i = .aborted line p ∧ reason = 0) →
    (s.payLine line).record p.toNat = some rec → rec.state = .sent ∨ rec.state = .accepted →
    s.basket rec.slot rec.ref = some b → b.owner = .station st →
    let pay := { s.pay with
      lines := s.pay.lines.set line
        (((s.payLine line).onRecord p.toNat (fun x => { x with
        state := .declined, reason := some reason })).resumed s.params.reversalInterval) }
    (b.attempts < s.params.declineLimit → (s.ifc.stations.get st).state = .opened →
      ∃ t, exec i s = .next t ∧ Effect [.baskets, .sales, .pay]
          (after (toOwner s b.owner (resultFrame rec.slot b p.toNat .declined reason b.attempts
            (s.params.declineLimit - b.attempts) (max b.hold.seconds 30)))
            (reverseOf line (s.payLine line).queue)) s t
        ∧ t.pay = pay ∧ t.baskets = s.baskets.set rec.slot (some b.returned) ∧ t.sales = released b s)
    ∧ (b.attempts < s.params.declineLimit → (s.ifc.stations.get st).state ≠ .opened →
      ∃ t, exec i s = .next t ∧ Effect [.baskets, .sales, .pay, .engine]
          (after (toOwner s b.owner (resultFrame rec.slot b p.toNat .declined reason b.attempts
            (s.params.declineLimit - b.attempts) 0)) (reverseOf line (s.payLine line).queue)) s t
        ∧ t.pay = pay ∧ t.baskets = s.baskets.set rec.slot (some (b.ended .stationClosed))
        ∧ t.sales = released b s
        ∧ t.engine = { s.engine with queue := s.engine.queue ++ [.releaseBasket rec.slot b.ref b.screening] })
    ∧ (s.params.declineLimit ≤ b.attempts →
      ∃ t, exec i s = .next t ∧ Effect [.baskets, .sales, .pay, .engine]
          (after (toOwner s b.owner (resultFrame rec.slot b p.toNat .declined reason b.attempts 0 0))
            (reverseOf line (s.payLine line).queue)) s t
        ∧ t.pay = pay ∧ t.baskets = s.baskets.set rec.slot (some (b.ended .payFailed))
        ∧ t.sales = released b s
        ∧ t.engine = { s.engine with queue := s.engine.queue ++ [.releaseBasket rec.slot b.ref b.screening] }))
  ∧ (∀ line (p : BitVec 16) (k : Byte) i (f : PayRecord → PayRecord) s rec b, s.quiet = true →
      (i = .declined line p k ∧ within 1 15 k.toNat
          ∧ f = (fun x => { x with state := .declined, reason := some k.toNat })
        ∨ i = .aborted line p ∧ f = (fun x => { x with state := .aborted })) →
      (s.payLine line).record p.toNat = some rec → rec.state = .aborting →
      s.basket rec.slot rec.ref = some b →
    ∃ t, exec i s = .next t
      ∧ Effect [.baskets, .sales, .pay, .engine] (reverseOf line (s.payLine line).queue) s t
      ∧ t.pay = { s.pay with
          lines := s.pay.lines.set line
            (((s.payLine line).onRecord p.toNat f).resumed s.params.reversalInterval) }
      ∧ t.baskets = s.baskets.set rec.slot (some (b.ended .cancelled)) ∧ t.sales = released b s
      ∧ t.engine = { s.engine with queue := s.engine.queue ++ [.releaseBasket rec.slot b.ref b.screening] })
  ∧ (∀ line (p : BitVec 16) (k : Byte) i s rec, s.quiet = true →
      (i = .declined line p k ∧ within 1 15 k.toNat ∨ i = .aborted line p) →
      (s.payLine line).record p.toNat = some rec →
      (rec.state = .approved ∨ rec.state = .declined ∨ rec.state = .aborted ∨ rec.state = .timedOut) →
    ∃ t, exec i s = .next t ∧ Effect [] nothing s t)
  ∧ (∀ line (p : BitVec 16) (k : Byte) i s q, s.quiet = true →
      (i = .declined line p k ∧ within 1 15 k.toNat ∨ i = .aborted line p) →
      (s.payLine line).record p.toNat = none → (s.payLine line).reversal p.toNat = some q →
    ∃ t, exec i s = .next t ∧ Effect [] nothing s t)
  ∧ (∀ line (p : BitVec 16) (k : Byte) i s, s.quiet = true →
      (i = .declined line p k ∧ ¬ within 1 15 k.toNat
        ∨ (i = .declined line p k ∨ i = .aborted line p)
          ∧ (s.payLine line).record p.toNat = none ∧ (s.payLine line).reversal p.toNat = none) →
    ∃ t, exec i s = .next t ∧ Effect [] nothing (s.withPayLine line { s.payLine line with
      stray := min ((s.payLine line).stray + 1) 65535 }) t)

/-- R100, R101, R103: an accept wait or authorization wait that stands at 0 makes the record TIMED_OUT, the basket
waits in REVERSING, and a reversal tied to it joins the queue; for an ABORT unanswered the CANCEL is answered OK
REVERSING. R106, R107: where the queue is full, a DOUBT_NOTICE of OVERFLOW is sent and the basket disposed of by the
doubt policy. A wait that is not over does nothing (DEDUCED, log entry 12). The zero figures of PAY_RESULT TIMED_OUT
and DOUBT are the model's choice (DESIGN CHOICE, log entry 35), and the layouts of both notices and of REVERSE its
reading (DEDUCED, log entry 15, the approval code's presence flag a DESIGN CHOICE). -/
def Obligations.WaitsThatExpireAreReversed : Prop :=
  (∀ line p kind s rec b w i, (s.payLine line).exchange = some ⟨kind, p, 0⟩ →
      (s.payLine line).record p = some rec → s.basket rec.slot rec.ref = some b →
      (i = .acceptWaitExpiry line ∧ kind = .authorization ∧ rec.state ≠ .accepted
          ∧ w = toOwner s b.owner (resultFrame rec.slot b p .timedOut 0 0 0 0)
        ∨ i = .authorizationWaitExpiry line ∧ kind ≠ .reversal ∧ rec.state = .accepted
          ∧ w = toOwner s b.owner (resultFrame rec.slot b p .timedOut 0 0 0 0)
        ∨ i = .acceptWaitExpiry line ∧ kind = .abort ∧ rec.state ≠ .accepted
          ∧ w = b.waiter.elim nothing (fun r => on r.link.line [answerFrame r .okReversing []])) →
      (s.payLine line).queue.length < 4 → (s.payLine line).reversal p = none →
    ∃ t queue, queue = (s.payLine line).queue ++ [⟨p, rec.amount, none, 0, some (rec.slot, rec.ref)⟩]
      ∧ exec i s = .next t ∧ Effect [.baskets, .pay] (after w (reverseOf line queue)) s t
      ∧ t.baskets = s.baskets.set rec.slot (some { b with state := .reversing, waiter := none })
      ∧ t.pay = { s.pay with lines := s.pay.lines.set line (PayLine.resumed
          { (s.payLine line).onRecord p (fun x => { x with state := .timedOut }) with queue := queue }
          s.params.reversalInterval) })
  ∧ (∀ line p kind s rec b w i (q : Reversal) b', (s.payLine line).exchange = some ⟨kind, p, 0⟩ →
      (s.payLine line).record p = some rec → s.basket rec.slot rec.ref = some b →
      (i = .acceptWaitExpiry line ∧ kind = .authorization ∧ rec.state ≠ .accepted
          ∧ w = toOwner s b.owner (resultFrame rec.slot b p .timedOut 0 0 0 0)
        ∨ i = .authorizationWaitExpiry line ∧ kind ≠ .reversal ∧ rec.state = .accepted
          ∧ w = toOwner s b.owner (resultFrame rec.slot b p .timedOut 0 0 0 0)
        ∨ i = .acceptWaitExpiry line ∧ kind = .abort ∧ rec.state ≠ .accepted
          ∧ w = b.waiter.elim nothing (fun r => on r.link.line [answerFrame r .okReversing []])) →
      4 ≤ (s.payLine line).queue.length → (s.payLine line).reversal p = none →
      q = ⟨p, rec.amount, none, 0, some (rec.slot, rec.ref)⟩ →
      b' = { b with state := .reversing, waiter := none } →
    ∃ t told, exec i s = .next t
      ∧ Effect [.baskets, .sales, .engine, .pay, .stations]
          (after w (after (on .ol [doubtFrame line q 2 (some (rec.slot, b')) s])
            (after told (reverseOf line (s.payLine line).queue)))) s t
      ∧ Disposed line q rec.slot b' told s t
      ∧ t.pay.nextRef = s.pay.nextRef
      ∧ t.pay.lines = s.pay.lines.set line (PayLine.resumed
          ((s.payLine line).onRecord p (fun x => { x with state := .timedOut })) s.params.reversalInterval))
  ∧ (∀ line s, (∀ e, (s.payLine line).exchange = some e → e.seconds ≠ 0) →
    (∃ t, exec (.acceptWaitExpiry line) s = .next t ∧ Effect [] nothing s t)
      ∧ (∃ t, exec (.authorizationWaitExpiry line) s = .next t ∧ Effect [] nothing s t)
      ∧ ∃ t, exec (.reversalIntervalExpiry line) s = .next t ∧ Effect [] nothing s t)

/-- R104, R105: a REVERSED of a queued reversal takes it off the queue, and the exchange that was its own ends, while
another goes on; a basket tied to it is judged as for a decline (R99). An interval that stands at 0 counts an attempt,
and below the limit the REVERSE is sent again, while at the limit the reversal is abandoned with a DOUBT_NOTICE and a
basket tied to it disposed of by the doubt policy, with a DOUBT entry where it is kept (R107), and the line goes on
with the next. A REVERSED whose pay ref only a record holds is discarded, and any other counted. The layout of the
notices and of REVERSE, with the flag off and zeros of what is absent, is the model's reading (DEDUCED, log entry 15,
the approval code's presence flag a DESIGN CHOICE), and the attempts made in a REVERSED, with the countdown 0 for a
station not OPEN, and the zero figures of a DOUBT, its choice (DESIGN CHOICE, log entry 35). -/
def Obligations.ReversalsAreConfirmedOrRetried : Prop :=
  (∀ line (p : BitVec 16) s q, s.quiet = true → (s.payLine line).reversal p.toNat = some q →
      q.basket = none → (∀ e, (s.payLine line).exchange = some e → e.kind = .reversal ∧ e.payRef = p.toNat) →
    ∃ t queue, queue = (s.payLine line).queue.filter (fun x => x.payRef != p.toNat)
      ∧ exec (.reversed line p) s = .next t
      ∧ Effect [] (reverseOf line queue) (s.withPayLine line
          (PayLine.resumed { s.payLine line with queue := queue } s.params.reversalInterval)) t)
  ∧ (∀ line (p : BitVec 16) s q slot ref b queue x (resumes : Bool), s.quiet = true →
      (s.payLine line).reversal p.toNat = some q → q.basket = some (slot, ref) → s.basket slot ref = some b →
      queue = (s.payLine line).queue.filter (fun x => x.payRef != p.toNat) →
      x = { s.payLine line with queue := queue } →
      (resumes = true ↔ ∀ e, (s.payLine line).exchange = some e → e.kind = .reversal ∧ e.payRef = p.toNat) →
    ∃ t told, exec (.reversed line p) s = .next t
      ∧ Effect [.baskets, .sales, .engine, .pay]
          (after told (if resumes then reverseOf line queue else nothing)) s t
      ∧ Judged slot b p.toNat .reversed 0 told s t
      ∧ t.pay = { s.pay with
          lines := s.pay.lines.set line
            (if resumes then PayLine.resumed x s.params.reversalInterval else x) })
  ∧ (∀ line (p : BitVec 16) s q e, s.quiet = true → (s.payLine line).reversal p.toNat = some q →
      q.basket = none → (s.payLine line).exchange = some e → ¬ (e.kind = .reversal ∧ e.payRef = p.toNat) →
    ∃ t, exec (.reversed line p) s = .next t
      ∧ Effect [] nothing (s.withPayLine line { s.payLine line with
          queue := (s.payLine line).queue.filter (fun x => x.payRef != p.toNat) }) t)
  ∧ (∀ line s p q rest n, (s.payLine line).exchange = some ⟨.reversal, p, 0⟩ →
      (s.payLine line).queue = q :: rest → n = min (q.attempts + 1) 65535 →
      (s.params.reversalLimit = 0 ∨ n < 2 * s.params.reversalLimit) →
    ∃ t, exec (.reversalIntervalExpiry line) s = .next t
      ∧ Effect [] (reverseOf line ({ q with attempts := n } :: rest)) (s.withPayLine line
          (PayLine.resumed { s.payLine line with queue := { q with attempts := n } :: rest }
            s.params.reversalInterval)) t)
  ∧ (∀ line s p q rest n, (s.payLine line).exchange = some ⟨.reversal, p, 0⟩ →
      (s.payLine line).queue = q :: rest → n = min (q.attempts + 1) 65535 → q.basket = none →
      s.params.reversalLimit ≠ 0 → 2 * s.params.reversalLimit ≤ n →
    ∃ t, exec (.reversalIntervalExpiry line) s = .next t
      ∧ Effect [] (after (on .ol [noticeFrame 0xE9 (lineByte (.pl line) :: (bytes2 q.payRef
          ++ amountBytes q.amount ++ approvalBytes q.code ++ [1] ++ [0, 0, 0, 0, 0, 0]))])
          (reverseOf line rest)) (s.withPayLine line
          (PayLine.resumed { s.payLine line with queue := rest } s.params.reversalInterval)) t)
  ∧ (∀ line s p q rest n slot ref b, (s.payLine line).exchange = some ⟨.reversal, p, 0⟩ →
      (s.payLine line).queue = q :: rest → n = min (q.attempts + 1) 65535 → q.basket = some (slot, ref) →
      s.basket slot ref = some b → s.params.reversalLimit ≠ 0 → 2 * s.params.reversalLimit ≤ n →
    ∃ t told, exec (.reversalIntervalExpiry line) s = .next t
      ∧ Effect [.baskets, .sales, .engine, .pay, .stations]
          (after (on .ol [doubtFrame line q 1 (some (slot, b)) s]) (after told (reverseOf line rest))) s t
      ∧ Disposed line q slot b told s t
      ∧ t.pay.nextRef = s.pay.nextRef
      ∧ t.pay.lines = s.pay.lines.set line
          (PayLine.resumed { s.payLine line with queue := rest } s.params.reversalInterval))
  ∧ (∀ line (p : BitVec 16) s, s.quiet = true → (s.payLine line).reversal p.toNat = none →
    ∃ t, exec (.reversed line p) s = .next t
      ∧ Effect [] nothing (if (s.payLine line).record p.toNat = none then s.withPayLine line { s.payLine line with
          stray := min ((s.payLine line).stray + 1) 65535 } else s) t)

-- ## Prices

/-- R77 to R79, R83: an accepted STAGE_PRICES stores its part, SET_APPLY_MODE its mode, and neither activates
anything but a set that is whole under ON_LAST_PART: the part that completes it, and the ON_LAST_PART that finds it
COMPLETE, attempt its activation and answer the outcome (R80, R81). CLEAR_STAGED empties STAGED, makes the mode MANUAL
and answers the staged state it found. The outcome's flag, with seven zero bytes where there is none, is the model's
reading (DEDUCED, log entry 15), the byte 0 that stands for PENDING its choice (log entry 37), and a minute outside
AT_MINUTE is not judged (DEDUCED, log entry 29). That a COMBOS part goes kind by kind is its choice (log entry 41). -/
def Obligations.StagedPricesAreKept : Prop :=
  (∀ src tag part fields who r s p, Heard (.stagePrices src tag part fields) who r s →
      readPart part fields = some p → p.inRange = true → s.prices.staged.waiting = false →
      s.prices.mode ≠ .onLastPart ∨ s.prices.staged.state = .complete
        ∨ (s.prices.staged.store p).state ≠ .complete →
    ∃ t, Answers (.stagePrices src tag part fields) r .ok
        ((s.prices.staged.store p).marks.map (fun m => if m then 1 else 0) ++ [0, 0, 0, 0, 0, 0, 0]) [.prices] s t
      ∧ t.prices = { s.prices with staged := s.prices.staged.store p })
  ∧ (∀ src tag part fields who r s p set, Heard (.stagePrices src tag part fields) who r s →
      readPart part fields = some p → p.inRange = true → s.prices.staged.waiting = false →
      s.prices.mode = .onLastPart → s.prices.staged.state ≠ .complete →
      (s.prices.staged.store p).state = .complete → (s.prices.staged.store p).whole = some set →
    ∃ t figures, Answers (.stagePrices src tag part fields) r .ok
        (t.prices.staged.marks.map (fun m => if m then 1 else 0) ++ 1 :: figures) [.prices] s t
      ∧ Activated set { s.prices with staged := s.prices.staged.store p } t.prices figures)
  ∧ (∀ src tag (minute : BitVec 16) who r s set, Heard (.setApplyMode src tag 3 minute) who r s →
      s.prices.staged.state = .complete → s.prices.staged.whole = some set →
    ∃ t figures, Answers (.setApplyMode src tag 3 minute) r .ok (1 :: figures) [.prices] s t
      ∧ Activated set { s.prices with mode := .onLastPart } t.prices figures)
  ∧ (∀ src tag (mode : Byte) minute who r s m, Heard (.setApplyMode src tag mode minute) who r s →
      (mode = 1 ∧ m = .manual ∨ mode = 2 ∧ minute.toNat ≤ 2879 ∧ m = .atMinute minute.toNat
        ∨ mode = 3 ∧ m = .onLastPart ∧ s.prices.staged.state ≠ .complete) →
      s.prices.staged.waiting = false →
    ∃ t, Answers (.setApplyMode src tag mode minute) r .ok [0, 0, 0, 0, 0, 0, 0] [.prices] s t
      ∧ t.prices = { s.prices with mode := m })
  ∧ (∀ src tag who r s, Heard (.clearStaged src tag) who r s →
    ∃ t, Answers (.clearStaged src tag) r .ok [match s.prices.staged.state with
        | .empty => 1
        | .part => 2
        | .complete => 3
        | .waiting => 4] [.prices] s t
      ∧ t.prices = { s.prices with staged := ⟨none, none, none, none, false⟩, mode := .manual })

/-- R75, R80, R81: APPLY_PRICES of a COMPLETE set gives it a generation no bank holds and count 0 in ACTIVE, empties
STAGED and makes the mode MANUAL; the old ACTIVE set is discarded at count 0, else it moves to RETAINED, and where
RETAINED is not empty the activation is deferred. A set not whole is answered INCOMPLETE with the marks, and in
PENDING the answer is OK PENDING again and nothing changes. R84: the RELEASE_BASKET that brings the RETAINED count to
0 completes a deferred activation, with its PRICES_ACTIVE first on OL, before what the same RELEASE_BASKET answers or
tells there (DESIGN CHOICE, log entry 27); the one place for a discarded generation names the ACTIVE one where that is
discarded, else the RETAINED one (DESIGN CHOICE, log entry 34). The presence flags of the RETAINED and discarded
parts, and the fields of OK PENDING, are the model's reading (DEDUCED, log entry 15), and the byte 0 that stands for
PENDING in an outcome is its choice (log entry 37). -/
def Obligations.AppliedPricesComeIntoForce : Prop :=
  (∀ src tag who r s set, Heard (.applyPrices src tag) who r s → s.prices.staged.whole = some set →
      s.prices.staged.waiting = false →
    let g := s.prices.freshGeneration
    let entered (kept : Option Bank) : PriceBook :=
      ⟨some ⟨set, g, 0⟩, kept, ⟨none, none, none, none, false⟩, .manual, if g = 255 then 1 else g + 1⟩
    (∀ k, s.prices.active = some k ∨ s.prices.retained = some k → k.generation ≠ g)
    ∧ (s.prices.active = none → ∃ t, Answers (.applyPrices src tag) r .ok
          (bytes1 g ++ bankBytes s.prices.retained ++ [0, 0]) [.prices] s t
        ∧ t.prices = entered s.prices.retained)
    ∧ (∀ k, s.prices.active = some k → k.count = 0 → ∃ t, Answers (.applyPrices src tag) r .ok
          (bytes1 g ++ bankBytes s.prices.retained ++ [1, BitVec.ofNat 8 k.generation]) [.prices] s t
        ∧ t.prices = entered s.prices.retained)
    ∧ (∀ k, s.prices.active = some k → k.count ≠ 0 → s.prices.retained = none →
        ∃ t, Answers (.applyPrices src tag) r .ok (bytes1 g ++ bankBytes (some k) ++ [0, 0]) [.prices] s t
        ∧ t.prices = entered (some k))
    ∧ (∀ k q, s.prices.active = some k → k.count ≠ 0 → s.prices.retained = some q →
        ∃ t, Answers (.applyPrices src tag) r .okPending (bytes1 q.generation ++ bytes1 q.count) [.prices] s t
        ∧ t.prices = { s.prices with staged := { s.prices.staged with waiting := true } }))
  ∧ (∀ src tag who r s, Heard (.applyPrices src tag) who r s → s.prices.staged.whole = none →
      s.prices.staged.waiting = false →
    ∃ t, Answers (.applyPrices src tag) r .incomplete
      (s.prices.staged.marks.map (fun m => if m then 1 else 0)) [] s t)
  ∧ (∀ src tag who r s q, Heard (.applyPrices src tag) who r s → s.prices.staged.waiting = true →
      s.prices.retained = some q →
    ∃ t, Answers (.applyPrices src tag) r .okPending (bytes1 q.generation ++ bytes1 q.count) [] s t)
  ∧ (∀ slot ref scr e s b q set, Takes (.releaseBasket slot ref scr) e s → s.basket slot ref = some b →
      s.prices.retained = some q → q.generation = b.generation →
      (∀ k, s.prices.active = some k → k.generation ≠ b.generation) → q.count ≤ 1 →
      s.prices.staged.waiting = true → s.prices.staged.whole = some set →
    let g := PriceBook.freshGeneration { s.prices with retained := none }
    let entered (kept : Option Bank) : PriceBook :=
      ⟨some ⟨set, g, 0⟩, kept, ⟨none, none, none, none, false⟩, .manual, if g = 255 then 1 else g + 1⟩
    ∃ t figures rest, exec .releaseBasket s = .next t
      ∧ (t.line .ol).sending = (s.line .ol).sending ++ noticeFrame 0xE8 (2 :: figures) :: rest
      ∧ (s.prices.active = none →
          t.prices = entered none ∧ figures = bytes1 g ++ bankBytes none ++ [1, BitVec.ofNat 8 q.generation])
      ∧ (∀ k, s.prices.active = some k → k.count = 0 →
          t.prices = entered none ∧ figures = bytes1 g ++ bankBytes none ++ [1, BitVec.ofNat 8 k.generation])
      ∧ (∀ k, s.prices.active = some k → k.count ≠ 0 →
          t.prices = entered (some k)
            ∧ figures = bytes1 g ++ bankBytes (some k) ++ [1, BitVec.ofNat 8 q.generation]))

-- ## Sales

/-- R90, R119 to R121, R134: REFUND_QUOTE of a COMMITTED sale in time makes it REFUND_PENDING with the total less its
redeemed vouchers as amount, its ISSUED vouchers SUSPENDED; REFUND_COMMIT of that amount places FREE_SALE and waits;
REFUND_CANCEL and the expiry of the quote make it COMMITTED again, its SUSPENDED vouchers ISSUED, or LAPSED where
their window has ended, their units available again; an expiry not due does nothing (DEDUCED, log entry 12). That a
restored sale whose redeemed vouchers exceed its total is quoted 0 is the model's choice (DESIGN CHOICE, log entry
42). The zeros of REFUND_NOTICE EXPIRED are the model's reading of R179 (DEDUCED, log entry 15). -/
def Obligations.RefundQuotesRun : Prop :=
  (∀ src tag (n : BitVec 24) who r s k, Heard (.refundQuote src tag n) who r s → s.sale n.toNat = some k →
      k.state = .committed → k.jobLive = false →
      s.clock.value < (s.startOf k.screening - s.params.refundCutoff) * 60 →
    let redeemed := s.vouchers.records.filter (fun u => u.sale == n.toNat && u.state == .redeemed)
    let amount := k.total - (redeemed.map (·.price)).sum
    ∃ t, Answers (.refundQuote src tag n) r .ok (amountBytes amount ++ amountBytes k.total
        ++ bytes1 (s.vouchers.records.countP (fun u => u.sale == n.toNat && u.state == .issued))
        ++ bytes1 redeemed.length ++ bytes2 s.params.quoteTime) [.sales, .vouchers] s t
      ∧ t.sales = { s.sales with
          records := s.sales.records.map (fun x => if x.number = n.toNat then { x with
            state := .refundPending, quote := some ⟨amount, s.params.quoteTime, none⟩ } else x) }
      ∧ t.vouchers = { s.vouchers with
          records := s.vouchers.records.map (fun u =>
            if u.sale = n.toNat ∧ u.state = .issued then { u with state := .suspended } else u) })
  ∧ (∀ src tag (n : BitVec 24) amount who r s k q, Heard (.refundCommit src tag n amount) who r s →
      s.sale n.toNat = some k → k.state = .refundPending → k.quote = some q → q.taken = none →
      readAmount amount = some q.amount →
    ∃ t, Runs (.refundCommit src tag n amount) r [.sales, .engine] nothing s t
      ∧ t.engine = { s.engine with queue := s.engine.queue ++ [.freeSale k.screening n.toNat] }
      ∧ t.sale n.toNat = some { k with quote := some ⟨q.amount, 0, some r⟩ }
      ∧ t.sales = { s.sales with records := s.sales.records.map (fun x =>
          if x.number = n.toNat then { x with quote := some ⟨q.amount, 0, some r⟩ } else x) })
  ∧ (∀ (n : Nat) s k q i, s.sale n = some k → k.quote = some q → q.taken = none →
      let back := s.vouchers.records.map (fun u =>
        if u.sale = n ∧ u.state = .suspended then
          { u with state := if (s.startOf u.screening + s.params.windowAfter) * 60 ≤ s.clock.value then .lapsed
            else .issued }
        else u)
      let sales := { s.sales with
        records := s.sales.records.map (fun x =>
          if x.number = n then { x with state := .committed, quote := none } else x) }
      let returned (t : State) : Prop := t.vouchers.serial = s.vouchers.serial
        ∧ ∀ kind, t.vouchers.stock.get kind = Stock.move .outstanding .available
          (s.vouchers.records.countP (fun u => u.sale == n && u.state == .suspended && u.kind == kind
            && decide ((s.startOf u.screening + s.params.windowAfter) * 60 ≤ s.clock.value)))
          (s.vouchers.stock.get kind)
    (∀ src tag (m : BitVec 24) who r, i = .refundCancel src tag m → m.toNat = n → Heard i who r s →
        k.state = .refundPending →
      ∃ t, Answers i r .ok [] [.sales, .vouchers] s t ∧ t.vouchers.records = back ∧ t.sales = sales ∧ returned t)
    ∧ (i = .refundQuoteExpiry n → q.seconds = 0 →
      ∃ t, exec i s = .next t ∧ Effect [.sales, .vouchers]
          (on .ol [noticeFrame 0xEB ([2] ++ bytes3 n ++ List.replicate 19 0)]) s t
        ∧ t.vouchers.records = back ∧ t.sales = sales ∧ returned t)
    ∧ (i = .refundQuoteExpiry n → q.seconds ≠ 0 → ∃ t, exec i s = .next t ∧ Effect [] nothing s t))

/-- R110, R118, R122, R123, R139 to R143: an accepted REPRINT asks for a job of the tickets named, whose elements are
composed, chained and PENDING as it is queued, or which waits, and is answered with the outcome; a line in IDLE waits
for power with the job, and granted at once prints its first element (R145, R147); unless that is NOT_QUEUED the
sale's print-job-live flag is set and each named ticket that was PRINTED has one reprint more used. The expiry of a
reprint window removes the last sale, and does nothing where it is not due (DEDUCED, log entry 12). Which free
elements the job takes is open (log entry 5), and its text is the model's where section 12.5 leaves it (log entry 6);
that the origin of the job is the requester is the model's choice (log entry 36). -/
def Obligations.ReprintsAskForAJob : Prop :=
  (∀ src tag (n : BitVec 24) set line override who r s k line' given,
      Heard (.reprint src tag n set line override) who r s → override.toNat ≤ 1 → readLine line ≠ none →
      (set = 0xFE ∧ given = List.range k.tickets.length ∨ set.toNat ≤ 9 ∧ given = [set.toNat]) →
      s.sale n.toNat = some k →
      ((∃ st b, who = .station st ∧ (s.sales.last.get st).map (·.number) = some n.toNat
          ∧ s.binding st = some b ∧ line' = b.ticket)
        ∨ who = .office ∧ line.toNat = 0x20 + line'.val) →
      k.state = .committed → k.jobLive = false → (∀ i ∈ given, i < k.tickets.length) →
      (∀ i ∈ given, ∀ u, k.tickets[i]? = some u → u.state = .printed →
        who = .office ∧ override = 1 ∧ u.used ≠ 2) →
    ∃ t o told, Runs (.reprint src tag n set line override) r [.print, .sales]
        (after told (on r.link.line [answerFrame r .ok [PrintOutcome.code o]])) s t
      ∧ Requested line' k (who.owner.getD .office) (.reprint given) o told s t
      ∧ t.sales = (if o = .notQueued then s.sales else { s.sales with
          records := s.sales.records.map (fun x => if x.number = n.toNat then { x with
            jobLive := true
            tickets := x.tickets.zipIdx.map (fun u => if u.2 ∈ given ∧ u.1.state = .printed
              then { u.1 with used := u.1.used + 1 } else u.1) } else x) }))
  ∧ (∀ s st last, s.sales.last.get st = some last →
    ∃ t, exec (.reprintWindowExpiry st) s = .next t ∧ Effect [.sales] nothing s t
      ∧ t.sales = (if last.seconds = 0 then { s.sales with last := s.sales.last.set st none } else s.sales))

-- ## Vouchers and stock

/-- R129, R130, R136, R137: REDEEM of an ISSUED voucher in its window makes it REDEEMED with the link and minute, a
unit going from outstanding to taken; SET_STOCK sets the allotment, not below what is not available, and
available with it; CLEAR_TAKEN takes the taken units off the allotment, and its answer is a list with its count byte
(DEDUCED, log entry 15). A low mark behind a flag that is off is not judged (DESIGN CHOICE, log entry 39). -/
def Obligations.VouchersAndStockMove : Prop :=
  (∀ src tag code who r s c v, Heard (.redeem src tag code) who r s → readCode code = some c →
      checkAgrees c = true → s.voucher c = some v → v.state = .issued →
      (s.startOf v.screening - s.params.windowBefore) * 60 ≤ s.clock.value →
      1 ≤ (s.vouchers.stock.get v.kind).outstanding →
    ∃ t, Answers (.redeem src tag code) r .ok
        ([BitVec.ofNat 8 (v.kind.val + 1)] ++ bytes2 v.screening ++ amountBytes v.price) [.vouchers] s t
      ∧ t.vouchers = { s.vouchers with
          records := s.vouchers.records.map (fun u => if u.code = c then { u with
            state := .redeemed
            redemption := some ⟨match who with
              | .concession n => some n
              | _ => none, s.clock.value / 60⟩ } else u)
          stock := s.vouchers.stock.set v.kind { s.vouchers.stock.get v.kind with
            outstanding := (s.vouchers.stock.get v.kind).outstanding - 1
            taken := (s.vouchers.stock.get v.kind).taken + 1 } })
  ∧ (∀ src tag kind (asked : BitVec 16) (present : Byte) (low : BitVec 16) who r s (k : Fin 8),
      Heard (.setStock src tag kind asked present low) who r s → kind.toNat = k.val + 1 →
      asked.toNat ≤ 9999 → present.toNat ≤ 1 → (present = 1 → low.toNat ≤ 9999) →
    let old := s.vouchers.stock.get k
    let allotment := max asked.toNat (old.allotment - old.available)
    let mark := if present = 1 then low.toNat else old.lowMark
    ∃ t, Answers (.setStock src tag kind asked present low) r .ok (bytes2 allotment
        ++ [if asked.toNat < allotment then 1 else 0] ++ bytes2 (old.available + allotment - old.allotment)
        ++ bytes2 mark) [.vouchers] s t
      ∧ t.vouchers = { s.vouchers with
          stock := s.vouchers.stock.set k { old with
            allotment := allotment, available := old.available + allotment - old.allotment
            lowMark := mark } })
  ∧ (∀ src tag (kind : Byte) who r s ks, Heard (.clearTaken src tag kind) who r s →
      (kind = 0xFE ∧ ks = indices 8 ∨ ∃ k : Fin 8, kind.toNat = k.val + 1 ∧ ks = [k]) →
    ∃ t, Answers (.clearTaken src tag kind) r .ok (BitVec.ofNat 8 ks.length :: ks.flatMap (fun k =>
        bytes2 (s.vouchers.stock.get k).taken
          ++ bytes2 ((s.vouchers.stock.get k).allotment - (s.vouchers.stock.get k).taken))) [.vouchers] s t
      ∧ t.vouchers.records = s.vouchers.records ∧ t.vouchers.serial = s.vouchers.serial
      ∧ ∀ k, t.vouchers.stock.get k = if k ∈ ks then { s.vouchers.stock.get k with
          allotment := (s.vouchers.stock.get k).allotment - (s.vouchers.stock.get k).taken
          taken := 0 } else s.vouchers.stock.get k)

-- ## Printing

/-- R144, R150 to R152: what an operator's request does to the ticket line it names, by the line's state, and its
answer OK, which carries the capture for CLEAR, an empty one as zeros (DEDUCED, log entry 15), and no field otherwise.
A request that sets a mark, changes nothing, takes a line with no job to IDLE or empties the capture changes that
line's record alone; POWER_OFF, STOP and HALT at once take the line from the grants and the waiting order, POWER_OFF
spoiling its element in flight, and the lines that then fit are granted (R145). As the power-enable output turns on,
an assertion of the fault input present, as FILTERED_FAULT has told of it (DESIGN CHOICE, log entry 23), is filtered
afresh (R154). That HALT at once clears the halt-pending mark and STOP leaves it is the model's reading (DEDUCED, log
entry 22), and that the mark outlasts a CLEAR to OFF its choice (log entry 43). -/
def Obligations.OperatorRequestsMoveTheLine : Prop :=
  (∀ i who r s (n : Fin 8) (line : Byte) src tag l l' fields, line.toNat = 0x20 + n.val → Heard i who r s →
    s.ticketLine n = l →
    (i = .powerOn src tag line ∧ l.state = .off ∧ l.capture = none ∧ l.queue = [] ∧ fields = []
        ∧ l' = { l with
            state := .idle, status := .none, sinceRest := 0
            filter := if l.asserted then some s.params.filterTime else none }
      ∨ i = .powerOff src tag line ∧ l.state = .off ∧ fields = [] ∧ l' = l
      ∨ i = .stop src tag line ∧ l.state = .printing ∧ fields = [] ∧ l' = { l with stopPending := true }
      ∨ i = .stop src tag line ∧ l.state = .stopped ∧ fields = [] ∧ l' = l
      ∨ i = .halt src tag line ∧ (l.state = .printing
          ∨ (l.state = .stopped ∨ l.state = .resting) ∧ ∃ j, l.queue.head? = some j ∧ j.started = true)
        ∧ fields = [] ∧ l' = { l with haltPending := true }
      ∨ i = .halt src tag line ∧ l.state = .halted ∧ fields = [] ∧ l' = l
      ∨ i = .resume src tag line ∧ (l.state = .stopped ∨ l.state = .halted) ∧ l.capture = none
        ∧ (l.cause = some .powerCut →
            ∀ k, ¬ ((s.ticketLine k).state = .stopped ∧ (s.ticketLine k).cause = some .overcurrent))
        ∧ l.queue = [] ∧ fields = []
        ∧ l' = { l with
            state := .idle, cause := none, stopPending := false
            status := if l.cause = some .powerCut then .none else l.status
            filter := if l.powered then l.filter
              else if l.asserted then some s.params.filterTime else none }
      ∨ i = .clear src tag line ∧ ¬ (l.state = .stopped ∧ l.cause = some .overcurrent)
        ∧ fields = captureBytes l.capture ∧ l' = { l with capture := none }
      ∨ i = .clear src tag line ∧ l.state = .stopped ∧ l.cause = some .overcurrent
        ∧ fields = captureBytes l.capture ∧ l' = { l with capture := none, state := .off, cause := none }) →
    ∃ t, Answers i r .ok fields [.print] s t ∧ t.print = { s.print with lines := s.print.lines.set n l' })
  ∧ (∀ i who r s (n : Fin 8) (line : Byte) src tag l l', line.toNat = 0x20 + n.val → Heard i who r s →
    s.ticketLine n = l →
    (i = .powerOff src tag line ∧ l.state ≠ .off ∧ l' = { l with
          state := .off, cause := none, stopPending := false, haltPending := false, rest := none
          status := .none, filter := none }
      ∨ i = .stop src tag line ∧ (l.state = .idle ∨ l.state = .waitPower ∨ l.state = .resting)
        ∧ l' = { l with state := .stopped, cause := some .stop, rest := none }
      ∨ i = .halt src tag line ∧ (l.state = .idle ∨ l.state = .waitPower
          ∨ l.state = .resting ∧ ∀ j, l.queue.head? = some j → j.started = false)
        ∧ l' = { l with state := .halted, rest := none, sinceRest := 0, haltPending := false }) →
    ∃ t told, Runs i r [.print] (after told (on r.link.line [answerFrame r .ok []])) s t
      ∧ (∀ m, told m ≠ [] → ∃ k ∈ s.print.order, m = .tl k)
      ∧ t.ticketLine n = l' ∧ n ∉ t.print.order ∧ t.print.waiting = s.print.waiting
      ∧ (∀ e, t.print.pool.get e = if s.inFlight n = some e ∧ i = .powerOff src tag line
          then (s.print.pool.get e).map (fun x => { x with result := .spoiled }) else s.print.pool.get e)
      ∧ (∀ k, k ≠ n → t.ticketLine k = s.ticketLine k ∨ k ∈ s.print.order)
      ∧ (PowerLaw s → Releases n l' told s t))

/-- R143, R145, R149, R152: a line that leaves OFF by POWER_ON, or STOPPED or HALTED by RESUME, POWER_CUT as its cause
too once no line stands STOPPED for OVERCURRENT, or RESTING at the end of its rest, with a job in its queue, joins the
waiting order: behind the lines that wait, or, with none waiting, it is granted and prints when its draw fits the
budget beside the grants held, and the PRINT_ELEMENT of its head job's next element becomes ready (R147). An assertion
of the fault input present as the output turns on, as FILTERED_FAULT has told of it (DESIGN CHOICE, log entry 23), is
filtered afresh. Nothing else of the print controller changes. -/
def Obligations.LinesWithJobsWaitForPower : Prop :=
  (∀ i who r s (n : Fin 8) (line : Byte) src tag l l', line.toNat = 0x20 + n.val → Heard i who r s →
    s.ticketLine n = l → l.queue ≠ [] →
    (i = .powerOn src tag line ∧ l.state = .off ∧ l.capture = none
        ∧ l' = { l with
            state := .idle, status := .none, sinceRest := 0
            filter := if l.asserted then some s.params.filterTime else none }
      ∨ i = .resume src tag line ∧ (l.state = .stopped ∨ l.state = .halted) ∧ l.capture = none
        ∧ (l.cause = some .powerCut →
            ∀ k, ¬ ((s.ticketLine k).state = .stopped ∧ (s.ticketLine k).cause = some .overcurrent))
        ∧ l' = { l with
            state := .idle, cause := none, stopPending := false
            status := if l.cause = some .powerCut then .none else l.status
            filter := if l.powered then l.filter
              else if l.asserted then some s.params.filterTime else none }) →
    ∃ t told, Runs i r [.print] (after told (on r.link.line [answerFrame r .ok []])) s t
      ∧ Joins n told (s.withTicketLine n l') t)
  ∧ (∀ s (n : Fin 8) l, s.ticketLine n = l → l.state = .resting → l.rest = some 0 → l.queue ≠ [] →
    ∃ t told, exec (.printerRestExpiry n) s = .next t ∧ Effect [.print] told s t
      ∧ Joins n told (s.withTicketLine n { l with state := .idle, rest := none }) t)

/-- R147, R148: an ELEMENT_DONE of the element in flight writes its result. With more to print and no stop or rest due
the next PRINT_ELEMENT becomes ready; the last of its job reports the results in the sale's tickets, returns the job's
elements to the pool and has the waiting list served as far as its head fits (R118, R142), each job composed as R140
lays down; and the line stops, halts, rests, goes on with its next job or becomes IDLE, by the first that applies, a
rest of 0 s over at once (R149), and the lines that fit after its grant are granted (R145). An ELEMENT_DONE of another
element, or with no result, is discarded. R153, R156: a PRINTER_STATE on a powered line stores its status, and a fault
spoils the element in flight, stops the line with its cause and fills an empty capture with both. R154, R155: an
assertion of the fault input that begins on a powered line is filtered with the filter time in force then, one that
has lasted so long stops its line for OVERCURRENT, and in GANGED the others for POWER_CUT, and one that ends before
does nothing; how the input is told of, and that a line already STOPPED loses its halt-pending mark too, is the
model's choice (DESIGN CHOICE, log entries 23 and 40); that a line with both marks stops and keeps its halt-pending
mark is its reading (DEDUCED, log entry 22); the text of the served jobs, a receipt's one payment line among it, is
its choice where section 12.5 leaves it (DESIGN CHOICE, log entry 6); which free elements a served job takes is open
(log entry 5). R149: a rest that ends with no job leaves the line IDLE. -/
def Obligations.PrintersReportAndFail : Prop :=
  (∀ (n : Fin 8) (e : Fin 256) (result : Byte) x s j rest e' y, s.quiet = true → s.inFlight n = some e →
      (result = 1 ∧ x = .printed ∨ result = 2 ∧ x = .spoiled) → (s.ticketLine n).queue = j :: rest →
      2 ≤ j.remaining → (s.ticketLine n).stopPending = false →
      (s.params.restAfter = 0 ∨ (s.ticketLine n).sinceRest + 1 < s.params.restAfter) →
      s.params.restAfter ≤ 32 →
      ({ j with remaining := j.remaining - 1 } : Job).next s.print.pool = some e' → s.print.pool.get e' = some y →
    ∃ t, exec (.elementDone n (BitVec.ofNat 8 e.val) result) s = .next t
      ∧ Effect [.print] (on (.tl n) [elementFrame e' y]) s t
      ∧ t.ticketLine n = { s.ticketLine n with
          sinceRest := min ((s.ticketLine n).sinceRest + 1) 32
          queue := { j with remaining := j.remaining - 1, started := true } :: rest }
      ∧ t.print.pool.get e = (s.print.pool.get e).map (fun y => { y with result := x })
      ∧ (∀ k, k ≠ e → t.print.pool.get k = s.print.pool.get k)
      ∧ t.print.waiting = s.print.waiting ∧ t.print.order = s.print.order
      ∧ (∀ k, k ≠ n → t.ticketLine k = s.ticketLine k))
  ∧ (∀ (n : Fin 8) (e : Fin 256) (result : Byte) x s j rest k l, s.quiet = true → s.inFlight n = some e →
      (result = 1 ∧ x = .printed ∨ result = 2 ∧ x = .spoiled) → s.ticketLine n = l → l.queue = j :: rest →
      j.remaining = 1 → s.sale j.sale = some k → (∀ w ∈ s.print.waiting, w.needed = w.makeUp.count ∧ 0 < w.needed) →
      (((j.results e x s).filter (fun y => y.kind == .ticket)).map (·.index)).Nodup →
    ∃ t told served, exec (.elementDone n (BitVec.ofNat 8 e.val) result) s = .next t
      ∧ Effect [.print, .sales] told s t ∧ (∀ m, told m ≠ [] → ∃ i, m = .tl i)
      ∧ (PowerLaw s → PoolLaw s → Prints told t)
      ∧ t.sales = { s.sales with records := t.sales.records }
      ∧ (∃ k', t.sale j.sale = some k' ∧ k' = { k with jobLive := false, tickets := k'.tickets }
          ∧ k'.tickets.length = k.tickets.length
          ∧ ∀ i, ∀ u ∈ k.tickets[i]?, ∃ u' ∈ k'.tickets[i]?, Reported (j.results e x s) i u u')
      ∧ (∀ m, m ≠ j.sale → t.sale m = s.sale m)
      ∧ s.print.waiting = served ++ t.print.waiting
      ∧ (∀ w, t.print.waiting.head? = some w → t.sale w.sale ≠ none ∧ t.jobFits w.line w.needed = false)
      ∧ (∀ i, let before := if i = n then rest else (s.ticketLine i).queue
        let live := served.filter (fun w => w.line == i && (s.sale w.sale).isSome)
        (t.ticketLine i).queue.map (fun j => (j.sale, j.origin, j.first, j.remaining, j.reprint))
          = before.map (fun j => (j.sale, j.origin, j.first, j.remaining, j.reprint))
            ++ (live.zip ((t.ticketLine i).queue.drop before.length)).map (fun x =>
              (x.1.sale, x.1.origin, x.2.first, x.1.needed, x.1.makeUp.reprints))
        ∧ (t.ticketLine i).queue.length = before.length + live.length
        ∧ ∀ x ∈ live.zip ((t.ticketLine i).queue.drop before.length), ∃ u plans, t.sale x.1.sale = some u
          ∧ Composed t u x.1.makeUp plans ∧ x.2.holds u.number plans t.print.pool)
      ∧ (served = [] → ∀ e', t.print.pool.get e' = if e' ∈ j.chain s.print.pool then none else s.print.pool.get e')
      ∧ (served = [] → ∀ i, i ≠ n → t.ticketLine i = s.ticketLine i ∨ i ∈ s.print.order)
      ∧ (l.stopPending = false → l.haltPending = false →
          (s.params.restAfter = 0 ∨ l.sinceRest + 1 < s.params.restAfter) → s.params.restAfter ≤ 32 → served = [] →
        (rest = [] → t.ticketLine n = { l with
            state := .idle, queue := [], sinceRest := min (l.sinceRest + 1) 32 }
          ∧ (PowerLaw s → Releases n { l with
            state := .idle, queue := [], sinceRest := min (l.sinceRest + 1) 32 } told s t))
        ∧ ∀ j' later first y, rest = j' :: later → j'.next t.print.pool = some first →
            t.print.pool.get first = some y →
            t.ticketLine n = { l with
              queue := { j' with started := true } :: later, sinceRest := min (l.sinceRest + 1) 32 }
            ∧ told = on (.tl n) [elementFrame first y] ∧ t.print.order = s.print.order
            ∧ ∀ i, i ≠ n → t.ticketLine i = s.ticketLine i))
  ∧ (∀ (n : Fin 8) (e : Fin 256) (result : Byte) s j rest l, s.quiet = true → s.inFlight n = some e →
      (result = 1 ∨ result = 2) → s.ticketLine n = l → l.queue = j :: rest → 1 ≤ j.remaining →
      n ∉ s.print.order →
    let queue := if j.remaining = 1 then rest else { j with remaining := j.remaining - 1 } :: rest
    let since := min (l.sinceRest + 1) 32
    let rests : Prop := l.stopPending = false ∧ (l.haltPending = false ∨ 2 ≤ j.remaining) ∧ s.params.restAfter ≠ 0
      ∧ s.params.restAfter ≤ since
    ∃ t told, exec (.elementDone n (BitVec.ofNat 8 e.val) result) s = .next t
      ∧ Effect [.print, .sales] told s t ∧ (∀ m, told m ≠ [] → ∃ i, m = .tl i)
      ∧ (PowerLaw s → PoolLaw s → Prints told t)
      ∧ (2 ≤ j.remaining → t.sales = s.sales ∧ t.print.waiting = s.print.waiting
          ∧ ∀ k, t.print.pool.get k = if k = e then (s.print.pool.get e).map (fun y =>
              { y with result := if result = 1 then .printed else .spoiled }) else s.print.pool.get k)
      ∧ (∀ l', (l.stopPending = true ∧ l' = { l with
            state := .stopped, cause := some .stop, stopPending := false, sinceRest := since, queue := queue }
          ∨ l.stopPending = false ∧ l.haltPending = true ∧ j.remaining = 1 ∧ l' = { l with
            state := .halted, haltPending := false, sinceRest := 0, queue := queue }
          ∨ rests ∧ s.params.restTime ≠ 0 ∧ l' = { l with
            state := .resting, sinceRest := 0, rest := some s.params.restTime, queue := queue }) →
        t.ticketLine n = { l' with queue := (t.ticketLine n).queue }
          ∧ (t.print.waiting = s.print.waiting → (t.ticketLine n).queue = queue
            ∧ (PowerLaw s → Releases n l' told s t)))
      ∧ (rests → s.params.restTime = 0 →
        (t.ticketLine n).sinceRest = 0 ∧ (t.ticketLine n).rest = none
          ∧ ((t.ticketLine n).queue = [] → (t.ticketLine n).state = .idle ∧ n ∉ t.print.order)
          ∧ ((t.ticketLine n).queue ≠ [] →
            (t.ticketLine n).state = .waitPower ∧ t.print.order.getLast? = some n
              ∨ (t.ticketLine n).state = .printing ∧ t.print.order = [] ∧ t.grantedSum ≤ s.params.budget)
          ∧ (PowerLaw s → ∀ k, t.print.order.head? = some k →
              s.params.budget < t.grantedSum + s.params.draws.get k)))
  ∧ (∀ (n : Fin 8) (element result : Byte) s, s.quiet = true →
      ((∀ e, s.inFlight n = some e → e.val ≠ element.toNat) ∨ result ≠ 1 ∧ result ≠ 2) →
    ∃ t, exec (.elementDone n element result) s = .next t ∧ Effect [] nothing s t)
  ∧ (∀ (n : Fin 8) (status : Byte) st s, s.quiet = true → (s.ticketLine n).powered = true →
      (status = 1 ∧ st = .ready ∨ status = 2 ∧ st = .paperLow) →
    ∃ t, exec (.printerState n status) s = .next t
      ∧ Effect [] nothing (s.withTicketLine n { s.ticketLine n with status := st }) t)
  ∧ (∀ (n : Fin 8) (status : Byte) s, s.quiet = true →
      ((s.ticketLine n).powered = false ∨ ¬ within 1 5 status.toNat) →
    ∃ t, exec (.printerState n status) s = .next t ∧ Effect [] nothing s t)
  ∧ (∀ (n : Fin 8) (status : Byte) st c s, s.quiet = true → (s.ticketLine n).powered = true →
      (status = 3 ∧ st = .paperOut ∧ c = .paperOut ∨ status = 4 ∧ st = .headOpen ∧ c = .headOpen
        ∨ status = 5 ∧ st = .jam ∧ c = .jam) →
    let element : Option Spoiled :=
      (s.inFlight n).bind (fun e => (s.print.pool.get e).map (fun x => ⟨x.sale, x.kind, x.index⟩))
    let l := s.ticketLine n
    let captured := { l with status := st, capture := some (l.capture.getD ⟨c, element⟩) }
    let stopped := { captured with
      state := .stopped, cause := some c, stopPending := false, haltPending := false, rest := none }
    ∃ t told, exec (.printerState n status) s = .next t ∧ Effect [.print] told s t
      ∧ (∀ m, told m ≠ [] → ∃ k ∈ s.print.order, m = .tl k)
      ∧ (l.state = .stopped → told = nothing ∧ t.print = { s.print with lines := s.print.lines.set n captured })
      ∧ (l.state ≠ .stopped → t.ticketLine n = stopped ∧ (PowerLaw s → Releases n stopped told s t))
      ∧ t.print.waiting = s.print.waiting
      ∧ (∀ e, t.print.pool.get e = if s.inFlight n = some e
          then (s.print.pool.get e).map (fun x => { x with result := .spoiled }) else s.print.pool.get e)
      ∧ (∀ k, k ≠ n → t.ticketLine k = s.ticketLine k ∨ k ∈ s.print.order))
  ∧ (∀ (n : Fin 8) s, s.quiet = true →
    ((s.ticketLine n).asserted = false →
      ∃ t, exec (.filteredFault n .begins) s = .next t
        ∧ Effect [] nothing (s.withTicketLine n { s.ticketLine n with
            asserted := true
            filter := if (s.ticketLine n).powered then some s.params.filterTime else none }) t)
    ∧ ((s.ticketLine n).asserted = true →
      ∃ t, exec (.filteredFault n .begins) s = .next t ∧ Effect [] nothing s t)
    ∧ ∃ t, exec (.filteredFault n .ends) s = .next t
        ∧ Effect [] nothing (s.withTicketLine n { s.ticketLine n with asserted := false, filter := none }) t)
  ∧ (∀ (n : Fin 8) ms time s, s.quiet = true → (s.ticketLine n).powered = true →
      (s.ticketLine n).filter = some time → time ≤ ms →
    let element (k : Fin 8) : Option Spoiled :=
      (s.inFlight k).bind (fun e => (s.print.pool.get e).map (fun x => ⟨x.sale, x.kind, x.index⟩))
    let cut (k : Fin 8) (c : Cause) (l' : TicketLine) : Prop := l' = { s.ticketLine k with
      state := .stopped, cause := some c, stopPending := false, haltPending := false, rest := none, status := .none
      filter := none, capture := some ((s.ticketLine k).capture.getD ⟨c, element k⟩) }
    ∃ t told, exec (.filteredFault n (.lasts ms)) s = .next t ∧ Effect [.print] told s t
      ∧ (∀ m, told m ≠ [] → ∃ k ∈ s.print.order, m = .tl k)
      ∧ cut n .overcurrent (t.ticketLine n) ∧ t.print.waiting = s.print.waiting
      ∧ (∀ e, t.print.pool.get e = if ∃ k, (k = n ∨ s.params.supply = .ganged) ∧ s.inFlight k = some e
          then (s.print.pool.get e).map (fun x => { x with result := .spoiled }) else s.print.pool.get e)
      ∧ (s.params.supply = .ganged → told = nothing ∧ (PowerLaw s → t.print.order = []))
      ∧ (s.params.supply = .individual → PowerLaw s → Releases n (t.ticketLine n) told s t)
      ∧ (s.params.supply = .ganged → ∀ k, k ≠ n →
          if (s.ticketLine k).powered then cut k .powerCut (t.ticketLine k) else t.ticketLine k = s.ticketLine k)
      ∧ (s.params.supply = .individual → ∀ k, k ≠ n → t.ticketLine k = s.ticketLine k ∨ k ∈ s.print.order))
  ∧ (∀ (n : Fin 8) ms s, s.quiet = true →
      ((∀ time, (s.ticketLine n).filter = some time → ms < time) ∨ (s.ticketLine n).powered = false) →
    ∃ t, exec (.filteredFault n (.lasts ms)) s = .next t ∧ Effect [] nothing s t)
  ∧ (∀ (n : Fin 8) s, (s.ticketLine n).state = .resting → (s.ticketLine n).rest = some 0 →
      (s.ticketLine n).queue = [] →
    ∃ t, exec (.printerRestExpiry n) s = .next t
      ∧ Effect [] nothing (s.withTicketLine n { s.ticketLine n with state := .idle, rest := none }) t)

-- ## Stations and lines

/-- R73, R165 to R168: BIND_STATION of lines that no other station holds replaces the binding, UNBIND of a LOCKED
station removes it, a ticket line left serving no station being taken to OFF as by POWER_OFF (R144), OPEN_STATION
opens it and sends STATION_READY with the station, its lines, its live basket if it has one and its last sale if it
has one; CLOSE_STATION ends or leaves its basket by its state and answers the state reached. The presence flags, and
zeros, of the basket and the sale, and the state in the answer, are the model's reading (DEDUCED, log entry 15), as is
that only the station that was not OPEN is sent the notice (log entry 34). -/
def Obligations.StationsAreBoundAndOpened : Prop :=
  (∀ src tag station kiosk pay ticket who r s (n k p l : Fin 8),
      Heard (.bindStation src tag station kiosk pay ticket) who r s → station.toNat = n.val + 1 →
      kiosk.toNat = k.val → pay.toNat = 0x10 + p.val → ticket.toNat = 0x20 + l.val →
      ((s.ifc.stations.get n).state = .unbound ∨ (s.ifc.stations.get n).state = .locked) →
      (∀ m b, m ≠ n → s.binding m = some b → b.kiosk ≠ k ∧ b.pay ≠ p) →
      ((indices 8).countP (fun m => m != n && (s.binding m).any (fun b => b.ticket == l))) < 2 →
    ∃ t first, Runs (.bindStation src tag station kiosk pay ticket) r [.stations, .print]
        (after first (on r.link.line [answerFrame r .ok []])) s t
      ∧ (∀ m, first m ≠ [] → ∃ i, m = .tl i)
      ∧ t.ifc.stations = s.ifc.stations.set n ⟨some ⟨k, p, l⟩, .locked⟩
      ∧ (∀ b, s.binding n = some b → b.ticket ≠ l → (∀ m c, m ≠ n → s.binding m = some c → c.ticket ≠ b.ticket) →
          PoweredDown b.ticket first s t)
      ∧ ((∀ b, s.binding n = some b → b.ticket = l ∨ ∃ m c, m ≠ n ∧ s.binding m = some c ∧ c.ticket = b.ticket) →
          first = nothing ∧ t.print = s.print))
  ∧ (∀ src tag station who r s (n : Fin 8) b, Heard (.unbind src tag station) who r s →
      station.toNat = n.val + 1 → (s.ifc.stations.get n).state = .locked → s.binding n = some b →
    ∃ t first, Runs (.unbind src tag station) r [.stations, .print]
        (after first (on r.link.line [answerFrame r .ok []])) s t
      ∧ (∀ m, first m ≠ [] → ∃ i, m = .tl i)
      ∧ t.ifc.stations = s.ifc.stations.set n ⟨none, .unbound⟩
      ∧ ((∀ m c, m ≠ n → s.binding m = some c → c.ticket ≠ b.ticket) → PoweredDown b.ticket first s t)
      ∧ ((∃ m c, m ≠ n ∧ s.binding m = some c ∧ c.ticket = b.ticket) → first = nothing ∧ t.print = s.print))
  ∧ (∀ src tag station who r s (n : Fin 8) b, Heard (.openStation src tag station) who r s →
      station.toNat = n.val + 1 → s.binding n = some b →
      ((s.ifc.stations.get n).state = .locked ∨ (s.ifc.stations.get n).state = .closing) →
    let basket := (s.stationBasket n).elim (List.replicate 5 0) (fun x =>
      1 :: (bytes1 x.1.val ++ bytes2 x.2.ref ++ [x.2.state.code]))
    let sale := (s.sales.last.get n).elim (List.replicate 6 0) (fun k => 1 :: (bytes3 k.number ++ bytes2 k.seconds))
    ∃ t, Runs (.openStation src tag station) r [.stations]
        (after (on r.link.line [answerFrame r .ok []]) (on (.kl b.kiosk) [noticeFrame 0xE1
          ([station, BitVec.ofNat 8 b.kiosk.val, BitVec.ofNat 8 (0x10 + b.pay.val),
            BitVec.ofNat 8 (0x20 + b.ticket.val)] ++ basket ++ sale)])) s t
      ∧ t.ifc.stations = s.ifc.stations.set n ⟨some b, .opened⟩)
  ∧ (∀ src tag station who r s (n : Fin 8) (st : StationState), Heard (.closeStation src tag station) who r s →
      station.toNat = n.val + 1 → (s.ifc.stations.get n).state = .opened →
      (s.stationBasket n = none ∧ st = .locked
        ∨ ∃ i b, s.stationBasket n = some (i, b) ∧ b.state ≠ .opened ∧ b.state ≠ .tallied
          ∧ st = if b.state = .doubt then .locked else .closing) →
    ∃ t, Answers (.closeStation src tag station) r .ok [if st = .locked then 2 else 4] [.stations] s t
      ∧ t.ifc.stations = s.ifc.stations.set n { s.ifc.stations.get n with state := st })
  ∧ (∀ src tag station who r s (n : Fin 8) i b, Heard (.closeStation src tag station) who r s →
      station.toNat = n.val + 1 → (s.ifc.stations.get n).state = .opened → s.stationBasket n = some (i, b) →
      b.state = .opened ∨ b.state = .tallied →
    ∃ t, Answers (.closeStation src tag station) r .ok [4] [.stations, .baskets, .engine, .sales] s t
      ∧ t.ifc.stations = s.ifc.stations.set n { s.ifc.stations.get n with state := .closing }
      ∧ t.baskets = s.baskets.set i (some (b.ended .stationClosed))
      ∧ t.engine = { s.engine with queue := s.engine.queue ++ [.releaseBasket i b.ref b.screening] }
      ∧ t.sales = released b s)

/-- R160, R169: OPEN_CONCESSION and CLOSE_CONCESSION open and lock the link named; CLEAR_FRAME_COUNT answers the
counts of bad frames of the lines named and sets them to 0, no other count changing. The answer's list, with its count
byte and, for ALL, its order, is the model's (log entry 15). -/
def Obligations.LinksOpenAndCountsClear : Prop :=
  (∀ src tag (line : Byte) who r s (n : Fin 4) (opens : Bool) i, line.toNat = 0x30 + n.val →
      i = (if opens then .openConcession src tag line else .closeConcession src tag line) → Heard i who r s →
    ∃ t, Answers i r .ok [] [.concessions] s t
      ∧ t.ifc.concessionOpen = s.ifc.concessionOpen.set n opens)
  ∧ (∀ src tag (line : Byte) who r s (ls : List Line), Heard (.clearFrameCount src tag line) who r s →
      (line = 0xFE ∧ ls = allLines ∨ ∃ l, line = lineByte l ∧ ls = [l]) →
    let cleared := ls.foldl (fun u l => u.onLine l (fun x => { x with badFrames := 0 })) s
    let fields := BitVec.ofNat 8 ls.length :: ls.flatMap (fun l => bytes2 (s.line l).badFrames)
    (∀ l, (cleared.line l).badFrames = if l ∈ ls then 0 else (s.line l).badFrames)
      ∧ ∃ t, exec (.clearFrameCount src tag line) s = .next t ∧ Outstands r s t
        ∧ Effect [.outstanding] (on r.link.line [answerFrame r .ok fields]) cleared t)

-- ## Levels, alarms and parameters

/-- R35, R146, R154, R176: SET_LEVEL sets the requester's level, answers the level before, and moves no pointer, the
requester being an owner byte by the model's choice (DESIGN CHOICE, log entry 37); SET_PARAM takes the value carried,
clamped to the range of a numeric parameter, answers the value before and the value taken, and is refused BUSY for a
power parameter while a grant is held; with no value carried nothing changes. That BUSY stands where no value is
carried too, that the value in force is then answered twice, and that the line byte must suit the parameter, is the
model's reading (DEDUCED, log entry 20), and that a value behind a flag that is off is not judged its choice (log
entry 39). -/
def Obligations.LevelsAndParametersAreSet : Prop :=
  (∀ src tag requester level who r s o l, Heard (.setLevel src tag requester level) who r s →
      readOwner requester = some o → (level = 1 ∧ l = .high ∨ level = 2 ∧ l = .low) →
    ∃ t, Answers (.setLevel src tag requester level) r .ok
        [if s.engine.levels.get o.ring = .high then 1 else 2] [.engine] s t
      ∧ t.engine = { s.engine with levels := s.engine.levels.set o.ring l })
  ∧ (∀ src tag (param line present : Byte) (value : BitVec 16) who r s n lo hi get,
      Heard (.setParam src tag param line present value) who r s → present = 1 → line = 0xFF →
      param = BitVec.ofNat 8 n → (n, lo, hi, get) ∈ numericParameters →
    ∃ t, Answers (.setParam src tag param line present value) r .ok
        (bytes2 (get s.params) ++ bytes2 (max lo (min hi value.toNat))) [.params] s t
      ∧ get t.params = max lo (min hi value.toNat)
      ∧ t.params = s.params.put n (max lo (min hi value.toNat))
      ∧ ∀ m lo' hi' (get' : Params → Nat), (m, lo', hi', get') ∈ numericParameters → m ≠ n →
        get' t.params = get' s.params)
  ∧ (∀ src tag (line : Byte) (value : BitVec 16) who r s (i : Fin 8),
      Heard (.setParam src tag 17 line 1 value) who r s → line.toNat = 0x20 + i.val →
      (∀ k, (s.ticketLine k).state ≠ .printing) →
    ∃ t, Answers (.setParam src tag 17 line 1 value) r .ok (bytes2 (s.params.draws.get i)
        ++ bytes2 (max 5 (min (min 40 s.params.budget) value.toNat))) [.params] s t
      ∧ t.params = { s.params with
          draws := s.params.draws.set i (max 5 (min (min 40 s.params.budget) value.toNat)) })
  ∧ (∀ src tag (value : BitVec 16) who r s m, Heard (.setParam src tag 16 0xFF 1 value) who r s →
      (∀ k, (s.ticketLine k).state ≠ .printing) → 10 ≤ m → (∀ i, s.params.draws.get i ≤ m) →
      (m = 10 ∨ ∃ i, s.params.draws.get i = m) →
    ∃ t, Answers (.setParam src tag 16 0xFF 1 value) r .ok (bytes2 s.params.budget
        ++ bytes2 (max m (min 200 value.toNat))) [.params] s t
      ∧ t.params = { s.params with budget := max m (min 200 value.toNat) })
  ∧ (∀ src tag (value : BitVec 16) who r s mode, Heard (.setParam src tag 18 0xFF 1 value) who r s →
      (∀ k, (s.ticketLine k).state ≠ .printing) →
      (value = 1 ∧ mode = .individual ∨ value = 2 ∧ mode = .ganged) →
    ∃ t, Answers (.setParam src tag 18 0xFF 1 value) r .ok
        (bytes2 (if s.params.supply = .individual then 1 else 2) ++ bytes2 value.toNat) [.params] s t
      ∧ t.params = { s.params with supply := mode })
  ∧ (∀ src tag (value : BitVec 16) who r s policy, Heard (.setParam src tag 10 0xFF 1 value) who r s →
      (value = 1 ∧ policy = .keep ∨ value = 2 ∧ policy = .release) →
    ∃ t, Answers (.setParam src tag 10 0xFF 1 value) r .ok
        (bytes2 (if s.params.doubtPolicy = .keep then 1 else 2) ++ bytes2 value.toNat) [.params] s t
      ∧ t.params = { s.params with doubtPolicy := policy })
  ∧ (∀ src tag (value : BitVec 16) who r s n, Heard (.setParam src tag 21 0xFF 1 value) who r s →
      n = (if value.toNat ≤ 50 then 50 else if value.toNat ≤ 100 then 100
        else if value.toNat ≤ 200 then 200 else 400) →
    ∃ t, Answers (.setParam src tag 21 0xFF 1 value) r .ok (bytes2 s.params.filterTime ++ bytes2 n) [.params] s t
      ∧ t.params = { s.params with filterTime := n })
  ∧ (∀ src tag (param line present : Byte) (value : BitVec 16) who r s k,
      Heard (.setParam src tag param line present value) who r s → within 16 18 param.toNat →
      (if param = 17 then ∃ i : Fin 8, line.toNat = 0x20 + i.val else line = 0xFF) → present.toNat ≤ 1 →
      (param = 18 → within 1 2 value.toNat) → (s.ticketLine k).state = .printing →
    ∃ t, Answers (.setParam src tag param line present value) r .busy [] [] s t)
  ∧ (∀ src tag (param line : Byte) (value : BitVec 16) who r s q,
      Heard (.setParam src tag param line 0 value) who r s → namedParameter param.toNat line = some q →
      (∀ k, (s.ticketLine k).state ≠ .printing) →
    ∃ t, Answers (.setParam src tag param line 0 value) r .ok
      (bytes2 (q.value s.params) ++ bytes2 (q.value s.params)) [] s t)

/-- R172, R173: SET_ALARM_ENABLE turns the enables of the flags named and sends one notice for each latched flag that
goes from disabled to enabled; ACK_ALARMS clears each flag named that is latched, and a flag whose condition holds
latches again, with one new notice where it is enabled; no flag else sends any, and each new notice carries the flags
latched and the conditions. The answers, which the notices go before (DEDUCED, log entry 27), carry the enables, as
one set of flags by the model's choice (log entry 37), and what was cleared and what latched again. R171, R172:
whatever the command, other than those two, a reset and the sending of a frame of OL, a flag that it latches sends
exactly one ALARM_NOTICE if it is enabled, and no flag else sends any; the notice carries the flags latched and the
conditions. -/
def Obligations.AlarmsAreEnabledAndAcknowledged : Prop :=
  (∀ src tag (set : BitVec 16) (value : Byte) who r s flags,
      Heard (.setAlarmEnable src tag set value) who r s → set.toNat < 1024 → set ≠ 0 → value.toNat ≤ 1 →
      flags = (indices 10).filter (fun i => set.getLsbD i.val) →
    ∃ t told, Runs (.setAlarmEnable src tag set value) r [.enabled]
        (on r.link.line (told ++ [answerFrame r .ok (flagSetBytes t.alarms.enabled.list)])) s t
      ∧ (∀ f ∈ told, f.isAlarm = true)
      ∧ (∀ i, t.alarms.enabled.get i = if i ∈ flags then value == 1 else s.alarms.enabled.get i)
      ∧ (∀ k, t.noticesOf k = s.noticesOf k
          + (if value = 1 ∧ k ∈ flags ∧ s.alarms.latched.get k = true ∧ s.alarms.enabled.get k = false then 1 else 0)
          + (if s.alarms.latched.get k = false ∧ t.alarms.latched.get k = true ∧ t.alarms.enabled.get k = true
            then 1 else 0))
      ∧ (AlarmLaw s → ∀ f ∈ told, ∃ k, f = alarmFrame k t))
  ∧ (∀ src tag (set : BitVec 16) who r s flags, Heard (.ackAlarms src tag set) who r s → set.toNat < 1024 →
      flags = (indices 10).filter (fun i => set.getLsbD i.val) →
    ∃ t told, exec (.ackAlarms src tag set) s = .next t
      ∧ Only [.lines, .latched, .choice, .outstanding] s t ∧ Outstands r s t
      ∧ (∀ l, Sends l (on r.link.line (told ++ [answerFrame r .ok (flagSetBytes ((indices 10).map (fun i =>
            decide (i ∈ flags) && s.alarms.latched.get i && !s.condition i))
          ++ flagSetBytes ((indices 10).map (fun i => decide (i ∈ flags)
            && s.alarms.latched.get i && s.condition i))
          ++ flagSetBytes t.alarms.latched.list ++ flagSetBytes s.alarms.enabled.list
          ++ flagSetBytes s.conditions)]) l) s t)
      ∧ (∀ f ∈ told, ∃ k, f = alarmFrame k t)
      ∧ (∀ i, t.alarms.latched.get i = (s.alarms.latched.get i && decide (i ∉ flags) || s.condition i))
      ∧ (∀ k, t.noticesOf k = s.noticesOf k + if s.condition k = true ∧ s.alarms.enabled.get k = true
          ∧ (k ∈ flags ∨ s.alarms.latched.get k = false) then 1 else 0))
  ∧ (∀ i s, s.ifc.restart ≠ .due → i ≠ .powerOnReset → i ≠ .resetPin → i ≠ .frameSent .ol →
      (∀ src tag set value, i ≠ .setAlarmEnable src tag set value) → (∀ src tag set, i ≠ .ackAlarms src tag set) →
    ∃ t, exec i s = .next t ∧ (∀ k, s.alarms.latched.get k = true → t.alarms.latched.get k = true)
      ∧ (∀ k, t.noticesOf k = s.noticesOf k
          + if s.alarms.latched.get k = false ∧ t.alarms.latched.get k = true ∧ s.alarms.enabled.get k = true
            then 1 else 0)
      ∧ (s.quiet = true → ∀ f ∈ (t.line .ol).sending, f.isAlarm = true →
          f ∈ (s.line .ol).sending ∨ ∃ k, f = alarmFrame k t))
end

