-- ==== Sys2Proof/Laws/Counters.lean ====
section
/-! SUPPORT. Laws of the counters that pass over values in use, and of voucher codes (R55, R127). -/

namespace Sys2Proof.Machine

theorem advanced_one (top c : Nat) : advanced top c 1 = wrapSucc top c := rfl

theorem advanced_succ (top c k : Nat) : advanced top c (k + 1) = advanced top (wrapSucc top c) k := by
  induction k with
  | zero => rfl
  | succ k ih => rw [advanced, ih]; rfl

/-- What `firstFree` answers: a value of the counter, every value before it being held; it is not held itself where the
values looked at did not run out. -/
theorem firstFree_spec (held : Nat → Bool) (top fuel c : Nat) :
    ∃ k, firstFree held (wrapSucc top) fuel c = advanced top c k ∧ k ≤ fuel
      ∧ (∀ i, i < k → held (advanced top c i) = true) ∧ (k < fuel → held (advanced top c k) = false) := by
  induction fuel generalizing c with
  | zero => exact ⟨0, rfl, le_refl 0, by simp, by simp⟩
  | succ fuel ih =>
    by_cases h : held c = true
    · obtain ⟨k, hk, hle, hb, ha⟩ := ih (wrapSucc top c)
      refine ⟨k + 1, ?_, by omega, ?_, ?_⟩
      · rw [firstFree, if_pos h, hk, advanced_succ]
      · rintro (_ | i) hi
        · exact h
        · rw [advanced_succ]; exact hb i (by omega)
      · intro hlt; rw [advanced_succ]; exact ha (by omega)
    · refine ⟨0, ?_, by omega, by simp, fun _ => by simpa [advanced] using h⟩
      rw [firstFree, if_neg h]; rfl

/-- R55, R127: where a value is found, it is the counter's or the first after it that is not held. -/
theorem firstFree_firstFrom {held : Nat → Bool} {top fuel c : Nat}
    (h : held (firstFree held (wrapSucc top) fuel c) = false) :
    FirstFrom top c (fun n => held n = true) (firstFree held (wrapSucc top) fuel c) := by
  obtain ⟨k, hk, -, hb, -⟩ := firstFree_spec held top fuel c
  exact ⟨k, hk, by simp [h], hb⟩

/-- A digit of the first nine of a code, by its place from the left. -/
theorem codeDigit_head (nine i : Nat) (h : i ≤ 8) : codeDigit (nine * 10) i = nine / 10 ^ (8 - i) % 10 := by
  rw [codeDigit, show 9 - i = 8 - i + 1 by omega, pow_succ, Nat.mul_div_mul_right _ _ (by norm_num)]

/-- The weighted digits of a code, summed by weight. -/
theorem weighted_digits (nine : Nat) :
    ((List.range 9).map (fun i => (if i % 2 = 0 then 3 else 1) * codeDigit (nine * 10) i)).sum
      = 3 * (nine / 10 ^ 0 % 10 + nine / 10 ^ 2 % 10 + nine / 10 ^ 4 % 10 + nine / 10 ^ 6 % 10 + nine / 10 ^ 8 % 10)
        + nine / 10 ^ 1 % 10 + nine / 10 ^ 3 % 10 + nine / 10 ^ 5 % 10 + nine / 10 ^ 7 % 10 := by
  simp only [List.range_succ, List.range_zero, List.nil_append, List.map_cons, List.map_nil, List.cons_append,
    List.sum_cons, List.sum_nil]
  rw [codeDigit_head nine 0 (by decide), codeDigit_head nine 1 (by decide), codeDigit_head nine 2 (by decide),
    codeDigit_head nine 3 (by decide), codeDigit_head nine 4 (by decide), codeDigit_head nine 5 (by decide),
    codeDigit_head nine 6 (by decide), codeDigit_head nine 7 (by decide), codeDigit_head nine 8 (by decide)]
  norm_num
  ring

/-- R127: the code a statement names is the one the voucher table forms. -/
theorem formCode_eq (day serial : Nat) : formCode day serial = voucherCode day serial := by
  have h (nine : Nat) : nine * 10 + checkDigit (nine * 10) = nine * 10 + (10 - (3 * (nine / 10 ^ 0 % 10
      + nine / 10 ^ 2 % 10 + nine / 10 ^ 4 % 10 + nine / 10 ^ 6 % 10 + nine / 10 ^ 8 % 10)
        + nine / 10 ^ 1 % 10 + nine / 10 ^ 3 % 10 + nine / 10 ^ 5 % 10 + nine / 10 ^ 7 % 10) % 10) % 10 := by
    rw [checkDigit, weighted_digits]
  exact h (day * 1000000 + serial)

end Sys2Proof.Machine
end

