-- ==== Sys2Proof/Laws/State.lean ====
section
/-! SUPPORT. The small lemmas of tables and of the accessors of the state: what reading gives after writing, one
lemma per accessor and update. -/

namespace Sys2Proof

-- ## Tables

@[simp] theorem Tab.get_set_self {α : Type} {n : Nat} (t : Tab α n) (i : Fin n) (x : α) :
    (t.set i x).get i = x := by
  simp [Tab.get, Tab.set]

@[simp] theorem Tab.get_set_ne {α : Type} {n : Nat} (t : Tab α n) {i j : Fin n} (x : α) (h : i ≠ j) :
    (t.set i x).get j = t.get j := by
  have : i.val ≠ j.val := fun e => h (Fin.ext e)
  simp [Tab.get, Tab.set, this]

theorem Tab.get_set {α : Type} {n : Nat} (t : Tab α n) (i j : Fin n) (x : α) :
    (t.set i x).get j = if i = j then x else t.get j := by
  by_cases h : i = j
  · subst h; simp
  · simp [h]

theorem Tab.get_modify {α : Type} {n : Nat} (t : Tab α n) (i j : Fin n) (f : α → α) :
    (t.modify i f).get j = if i = j then f (t.get j) else t.get j := by
  rw [Tab.modify, Tab.get_set]
  by_cases h : i = j
  · subst h; simp
  · simp [h]

@[simp] theorem Tab.get_modify_self {α : Type} {n : Nat} (t : Tab α n) (i : Fin n) (f : α → α) :
    (t.modify i f).get i = f (t.get i) := by simp [Tab.get_modify]

@[simp] theorem Tab.get_modify_ne {α : Type} {n : Nat} (t : Tab α n) {i j : Fin n} (f : α → α) (h : i ≠ j) :
    (t.modify i f).get j = t.get j := by simp [Tab.get_modify, h]

@[simp] theorem Tab.get_map {α β : Type} {n : Nat} (t : Tab α n) (f : α → β) (i : Fin n) :
    (t.map f).get i = f (t.get i) := by
  simp [Tab.get, Tab.map]

@[simp] theorem Tab.get_replicate {α : Type} {n : Nat} (x : α) (i : Fin n) :
    (Tab.replicate n x).get i = x := by
  simp [Tab.get, Tab.replicate]

theorem Tab.ext_get {α : Type} {n : Nat} {t u : Tab α n} (h : ∀ i, t.get i = u.get i) : t = u := by
  cases t with
  | mk l hl =>
    cases u with
    | mk m hm =>
      have : l = m := by
        apply List.ext_getElem (by omega)
        intro i h1 h2
        exact h ⟨i, by omega⟩
      subst this; rfl

theorem Tab.mem_list {α : Type} {n : Nat} (t : Tab α n) (x : α) : x ∈ t.list ↔ ∃ i, t.get i = x := by
  constructor
  · intro h
    obtain ⟨k, hk, e⟩ := List.getElem_of_mem h
    exact ⟨⟨k, by have := t.len; omega⟩, by simpa [Tab.get] using e⟩
  · rintro ⟨i, rfl⟩
    exact List.getElem_mem _

theorem Tab.any_list {α : Type} {n : Nat} (t : Tab α n) (p : α → Bool) :
    t.list.any p = true ↔ ∃ i, p (t.get i) = true := by
  rw [List.any_eq_true]
  constructor
  · rintro ⟨x, hx, hp⟩
    obtain ⟨i, rfl⟩ := (t.mem_list x).1 hx
    exact ⟨i, hp⟩
  · rintro ⟨i, hp⟩
    exact ⟨_, (t.mem_list _).2 ⟨i, rfl⟩, hp⟩

@[simp] theorem mem_indices {n : Nat} (i : Fin n) : i ∈ indices n := List.mem_finRange i

namespace Machine

-- ## Lines

theorem lineIndex_injective {l k : Line} (h : lineIndex l = lineIndex k) : l = k := by
  cases l <;> cases k <;> simp [lineIndex, Fin.ext_iff] at h ⊢ <;> omega

@[simp] theorem line_onLine_self (l : Line) (f : LineState → LineState) (s : State) :
    (s.onLine l f).line l = f (s.line l) := by simp [State.line, State.onLine]

@[simp] theorem line_onLine_ne {l k : Line} (f : LineState → LineState) (s : State) (h : l ≠ k) :
    (s.onLine l f).line k = s.line k := by
  have : lineIndex l ≠ lineIndex k := fun e => h (lineIndex_injective e)
  simp [State.line, State.onLine, this]

theorem line_onLine (l k : Line) (f : LineState → LineState) (s : State) :
    (s.onLine l f).line k = if l = k then f (s.line k) else s.line k := by
  by_cases h : l = k
  · subst h; simp
  · simp [h]

/-- `send` appends the frame to the line's frames and leaves every other line as it stood. -/
theorem line_send (l k : Line) (x : Frame) (s : State) :
    (send l x s).line k
      = if l = k then { s.line k with sending := (s.line k).sending ++ [x] } else s.line k := by
  simp [send, line_onLine]

@[simp] theorem line_send_self (l : Line) (x : Frame) (s : State) :
    (send l x s).line l = { s.line l with sending := (s.line l).sending ++ [x] } := by simp [line_send]

@[simp] theorem line_send_ne {l k : Line} (x : Frame) (s : State) (h : l ≠ k) :
    (send l x s).line k = s.line k := by simp [line_send, h]

-- ## Records

@[simp] theorem payLine_onPayLine_self (i : Fin 8) (f : PayLine → PayLine) (s : State) :
    (s.onPayLine i f).payLine i = f (s.payLine i) := by simp [State.payLine, State.onPayLine]

@[simp] theorem payLine_onPayLine_ne {i j : Fin 8} (f : PayLine → PayLine) (s : State) (h : i ≠ j) :
    (s.onPayLine i f).payLine j = s.payLine j := by simp [State.payLine, State.onPayLine, h]

@[simp] theorem ticketLine_onTicketLine_self (i : Fin 8) (f : TicketLine → TicketLine) (s : State) :
    (s.onTicketLine i f).ticketLine i = f (s.ticketLine i) := by
  simp [State.ticketLine, State.onTicketLine]

@[simp] theorem ticketLine_onTicketLine_ne {i j : Fin 8} (f : TicketLine → TicketLine) (s : State)
    (h : i ≠ j) : (s.onTicketLine i f).ticketLine j = s.ticketLine j := by
  simp [State.ticketLine, State.onTicketLine, h]

@[simp] theorem payLine_withPayLine_self (i : Fin 8) (x : PayLine) (s : State) :
    (s.withPayLine i x).payLine i = x := by simp [State.payLine, State.withPayLine]

@[simp] theorem payLine_withPayLine_ne {i j : Fin 8} (x : PayLine) (s : State) (h : i ≠ j) :
    (s.withPayLine i x).payLine j = s.payLine j := by simp [State.payLine, State.withPayLine, h]

@[simp] theorem ticketLine_withTicketLine_self (i : Fin 8) (x : TicketLine) (s : State) :
    (s.withTicketLine i x).ticketLine i = x := by simp [State.ticketLine, State.withTicketLine]

@[simp] theorem ticketLine_withTicketLine_ne {i j : Fin 8} (x : TicketLine) (s : State) (h : i ≠ j) :
    (s.withTicketLine i x).ticketLine j = s.ticketLine j := by simp [State.ticketLine, State.withTicketLine, h]

/-- A line's record changed is the line with the record it then has. -/
theorem onTicketLine_eq (i : Fin 8) (f : TicketLine → TicketLine) (s : State) :
    s.onTicketLine i f = s.withTicketLine i (f (s.ticketLine i)) := rfl

@[simp] theorem TicketLine.watching_state (l : TicketLine) (t : Nat) : (l.watching t).state = l.state := rfl
@[simp] theorem TicketLine.watching_cause (l : TicketLine) (t : Nat) : (l.watching t).cause = l.cause := rfl
@[simp] theorem TicketLine.watching_queue (l : TicketLine) (t : Nat) : (l.watching t).queue = l.queue := rfl
@[simp] theorem TicketLine.watching_capture (l : TicketLine) (t : Nat) : (l.watching t).capture = l.capture := rfl
@[simp] theorem TicketLine.watching_asserted (l : TicketLine) (t : Nat) : (l.watching t).asserted = l.asserted := rfl
@[simp] theorem TicketLine.watching_filter (l : TicketLine) (t : Nat) :
    (l.watching t).filter = if l.asserted then some t else none := rfl

@[simp] theorem baskets_putBasket_self (i : Fin 16) (b : Basket) (s : State) :
    (s.putBasket i b).baskets.get i = some b := by simp [State.putBasket]

@[simp] theorem baskets_putBasket_ne {i j : Fin 16} (b : Basket) (s : State) (h : i ≠ j) :
    (s.putBasket i b).baskets.get j = s.baskets.get j := by simp [State.putBasket, h]

theorem mem_liveBaskets (s : State) (i : Fin 16) (b : Basket) :
    (i, b) ∈ s.liveBaskets ↔ s.baskets.get i = some b := by
  simp [State.liveBaskets, List.mem_filterMap]

/-- A unit of stock moves: the four counts keep their sum. -/
theorem Stock.move_sum (k : Stock) (p q : Place) (n : Nat) :
    (Stock.move p q n k).available + (Stock.move p q n k).inBaskets + (Stock.move p q n k).outstanding
        + (Stock.move p q n k).taken
      = k.available + k.inBaskets + k.outstanding + k.taken := by
  cases p <;> cases q <;> simp [Stock.move, Stock.put, Stock.at] <;> omega

@[simp] theorem Stock.move_allotment (k : Stock) (p q : Place) (n : Nat) :
    (Stock.move p q n k).allotment = k.allotment := by
  cases p <;> cases q <;> rfl

@[simp] theorem Stock.move_lowMark (k : Stock) (p q : Place) (n : Nat) :
    (Stock.move p q n k).lowMark = k.lowMark := by
  cases p <;> cases q <;> rfl

end Machine

end Sys2Proof
end

