-- ==== Sys2Proof/Laws/Frames.lean ====
section
/-! SUPPORT. What each shared operation can change: one lemma per operation, in the form in which simp uses it
to frame whatever calls the operation. `only_f` says that `f` changes nothing outside the pieces it names. -/

namespace Sys2Proof.Machine

-- ## The relation

@[simp] theorem Only.refl (bs : List Block) (s : State) : Only bs s s := by
  intro b _; cases b <;> simp [Block.same]

theorem Block.same_trans {b : Block} {s t u : State} (h : b.same s t) (k : b.same t u) : b.same s u := by
  cases b <;> simp_all [Block.same]

theorem Block.same_symm {b : Block} {s t : State} (h : b.same s t) : b.same t s := by
  cases b <;> simp_all [Block.same]

theorem Only.trans {bs : List Block} {s t u : State} (h : Only bs s t) (k : Only bs t u) : Only bs s u :=
  fun b hb => Block.same_trans (h b hb) (k b hb)

theorem Only.symm {bs : List Block} {s t : State} (h : Only bs s t) : Only bs t s :=
  fun b hb => Block.same_symm (h b hb)

theorem Only.mono {fp bs : List Block} {s t : State} (h : Only fp s t) (k : fp ⊆ bs) : Only bs s t :=
  fun b hb => h b (fun hf => hb (k hf))

/-- An operation that changes only pieces in `bs` is absorbed by `Only bs`. -/
theorem Only.absorb {fp bs : List Block} {s t u : State} (k : fp ⊆ bs) (h : Only fp t u) :
    Only bs s u ↔ Only bs s t :=
  ⟨fun g => g.trans (h.mono k).symm, fun g => g.trans (h.mono k)⟩

theorem Only.foldl {α : Type} {fp : List Block} (f : State → α → State) (h : ∀ t x, Only fp t (f t x))
    (l : List α) (t : State) : Only fp t (l.foldl f t) := by
  induction l generalizing t with
  | nil => simp
  | cons x xs ih => exact (h t x).trans (ih _)

variable {bs : List Block} {s t : State}

-- ## One field

theorem only_pending {x : List Instr} (h : [.pending] ⊆ bs) :
    Only bs s { t with pending := x } ↔ Only bs s t :=
  Only.absorb h (by intro b hb; cases b <;> simp_all [Block.same])

@[simp] theorem only_clock {x : Clock} (h : [.clock] ⊆ bs) :
    Only bs s { t with clock := x } ↔ Only bs s t :=
  Only.absorb h (by intro b hb; cases b <;> simp_all [Block.same])

@[simp] theorem only_plans {x} (h : [.plans] ⊆ bs) : Only bs s { t with plans := x } ↔ Only bs s t :=
  Only.absorb h (by intro b hb; cases b <;> simp_all [Block.same])

@[simp] theorem only_screenings {x} (h : [.screenings] ⊆ bs) :
    Only bs s { t with screenings := x } ↔ Only bs s t :=
  Only.absorb h (by intro b hb; cases b <;> simp_all [Block.same])

@[simp] theorem only_engine {x} (h : [.engine] ⊆ bs) : Only bs s { t with engine := x } ↔ Only bs s t :=
  Only.absorb h (by intro b hb; cases b <;> simp_all [Block.same])

@[simp] theorem only_baskets {x} (h : [.baskets] ⊆ bs) : Only bs s { t with baskets := x } ↔ Only bs s t :=
  Only.absorb h (by intro b hb; cases b <;> simp_all [Block.same])

@[simp] theorem only_nextRef {x} (h : [.nextRef] ⊆ bs) :
    Only bs s { t with nextBasketRef := x } ↔ Only bs s t :=
  Only.absorb h (by intro b hb; cases b <;> simp_all [Block.same])

@[simp] theorem only_prices {x} (h : [.prices] ⊆ bs) : Only bs s { t with prices := x } ↔ Only bs s t :=
  Only.absorb h (by intro b hb; cases b <;> simp_all [Block.same])

@[simp] theorem only_pay {x} (h : [.pay] ⊆ bs) : Only bs s { t with pay := x } ↔ Only bs s t :=
  Only.absorb h (by intro b hb; cases b <;> simp_all [Block.same])

@[simp] theorem only_sales {x} (h : [.sales] ⊆ bs) : Only bs s { t with sales := x } ↔ Only bs s t :=
  Only.absorb h (by intro b hb; cases b <;> simp_all [Block.same])

@[simp] theorem only_vouchers {x} (h : [.vouchers] ⊆ bs) : Only bs s { t with vouchers := x } ↔ Only bs s t :=
  Only.absorb h (by intro b hb; cases b <;> simp_all [Block.same])

@[simp] theorem only_print {x} (h : [.print] ⊆ bs) : Only bs s { t with print := x } ↔ Only bs s t :=
  Only.absorb h (by intro b hb; cases b <;> simp_all [Block.same])

@[simp] theorem only_params {x} (h : [.params] ⊆ bs) : Only bs s { t with params := x } ↔ Only bs s t :=
  Only.absorb h (by intro b hb; cases b <;> simp_all [Block.same])

@[simp] theorem only_choice {x} (h : [.choice] ⊆ bs) : Only bs s { t with choice := x } ↔ Only bs s t :=
  Only.absorb h (by intro b hb; cases b <;> simp_all [Block.same])

@[simp] theorem only_spend {k : Nat} (h : [.choice] ⊆ bs) : Only bs s (t.spend k) ↔ Only bs s t :=
  Only.absorb h (by unfold State.spend; split <;> simp)

-- ## Lines and records

@[simp] theorem only_onLine {l : Line} {f} (h : [.lines] ⊆ bs) : Only bs s (t.onLine l f) ↔ Only bs s t :=
  Only.absorb h (by intro b hb; cases b <;> simp_all [Block.same, State.onLine])

@[simp] theorem only_send {l : Line} {x : Frame} (h : [.lines] ⊆ bs) : Only bs s (send l x t) ↔ Only bs s t :=
  Only.absorb h (by simp [send])

@[simp] theorem only_answer {r : Reply} {res : Result} {fs} (h : [.lines] ⊆ bs) :
    Only bs s (answer r res fs t) ↔ Only bs s t := Only.absorb h (by simp [answer])

@[simp] theorem only_notifyOffice {k : Byte} {fs} (h : [.lines] ⊆ bs) :
    Only bs s (notifyOffice k fs t) ↔ Only bs s t := Only.absorb h (by simp [notifyOffice])

@[simp] theorem only_notifyStation {n : Fin 8} {k : Byte} {fs} (h : [.lines] ⊆ bs) :
    Only bs s (notifyStation n k fs t) ↔ Only bs s t :=
  Only.absorb h (by unfold notifyStation; split <;> simp)

@[simp] theorem only_notifyOwner {o : Owner} {k : Byte} {fs} (h : [.lines] ⊆ bs) :
    Only bs s (notifyOwner o k fs t) ↔ Only bs s t := Only.absorb h (by unfold notifyOwner; split <;> simp)

@[simp] theorem only_tellTerminal {n : Fin 8} {k : Byte} {fs} (h : [.lines] ⊆ bs) :
    Only bs s (tellTerminal n k fs t) ↔ Only bs s t := Only.absorb h (by simp [tellTerminal])

@[simp] theorem only_takeMessage {l : Line} {i : Instr} (h : [.lines] ⊆ bs) :
    Only bs s (takeMessage l i t) ↔ Only bs s t :=
  Only.absorb h (by unfold takeMessage; repeat' split
                    all_goals simp)

@[simp] theorem only_onScreening {n : Nat} {f} (h : [.screenings] ⊆ bs) :
    Only bs s (t.onScreening n f) ↔ Only bs s t := Only.absorb h (by simp [State.onScreening])

@[simp] theorem only_putBasket {i : Fin 16} {b : Basket} (h : [.baskets] ⊆ bs) :
    Only bs s (t.putBasket i b) ↔ Only bs s t := Only.absorb h (by simp [State.putBasket])

@[simp] theorem only_onSale {n : Nat} {f} (h : [.sales] ⊆ bs) : Only bs s (t.onSale n f) ↔ Only bs s t :=
  Only.absorb h (by simp [State.onSale])

@[simp] theorem only_onStation {n : Fin 8} {f} (h : [.stations] ⊆ bs) :
    Only bs s (t.onStation n f) ↔ Only bs s t :=
  Only.absorb h (by intro b hb; cases b <;> simp_all [Block.same, State.onStation])

@[simp] theorem only_onPayLine {n : Fin 8} {f} (h : [.pay] ⊆ bs) :
    Only bs s (t.onPayLine n f) ↔ Only bs s t := Only.absorb h (by simp [State.onPayLine])

@[simp] theorem only_onTicketLine {n : Fin 8} {f} (h : [.print] ⊆ bs) :
    Only bs s (t.onTicketLine n f) ↔ Only bs s t := Only.absorb h (by simp [State.onTicketLine])

@[simp] theorem only_onStock {k : Fin 8} {f} (h : [.vouchers] ⊆ bs) :
    Only bs s (t.onStock k f) ↔ Only bs s t := Only.absorb h (by simp [State.onStock])

@[simp] theorem only_moveStock {k : Fin 8} {p q : Place} {n : Nat} (h : [.vouchers] ⊆ bs) :
    Only bs s (moveStock k p q n t) ↔ Only bs s t := Only.absorb h (by simp [moveStock])

@[simp] theorem only_reserve {q : Nat} (h : [.sales] ⊆ bs) : Only bs s (reserve q t) ↔ Only bs s t :=
  Only.absorb h (by simp [reserve])

@[simp] theorem only_unreserve {q : Nat} (h : [.sales] ⊆ bs) : Only bs s (unreserve q t) ↔ Only bs s t :=
  Only.absorb h (by simp [unreserve])

@[simp] theorem only_outstand {k : Link} {o : Outstanding} (h : [.outstanding] ⊆ bs) :
    Only bs s (t.outstand k o) ↔ Only bs s t :=
  Only.absorb h (by intro b hb; cases k <;> cases b <;> simp_all [Block.same, State.outstand])

-- ## Alarms

@[simp] theorem only_alarmNotices {fl : List (Fin 10)} (h : [.lines] ⊆ bs) :
    Only bs s (alarmNotices fl t) ↔ Only bs s t :=
  Only.absorb h (Only.foldl _ (fun u i => by split <;> simp [alarmNotice]) _ _)

@[simp] theorem only_setLatched {fl : List (Fin 10)} (h : [.latched] ⊆ bs) :
    Only bs s (setLatched fl t) ↔ Only bs s t :=
  Only.absorb h (by intro b hb; cases b <;> simp_all [Block.same, setLatched])

@[simp] theorem only_clearLatched {fl : List (Fin 10)} (h : [.latched] ⊆ bs) :
    Only bs s (clearLatched fl t) ↔ Only bs s t :=
  Only.absorb h (by intro b hb; cases b <;> simp_all [Block.same, clearLatched])

@[simp] theorem only_setEnables {fl : List (Fin 10)} {on : Bool} (h : [.enabled] ⊆ bs) :
    Only bs s (setEnables fl on t) ↔ Only bs s t :=
  Only.absorb h (by intro b hb; cases b <;> simp_all [Block.same, setEnables])

@[simp] theorem only_latchAlarms (h : [.lines, .latched, .choice] ⊆ bs) :
    Only bs s (latchAlarms t) ↔ Only bs s t :=
  Only.absorb h (by unfold latchAlarms; split <;> simp)

-- ## Prices and vouchers

@[simp] theorem only_notifyPrices {n : Nat} {a : Activation} (h : [.lines] ⊆ bs) :
    Only bs s (notifyPrices n a t) ↔ Only bs s t := Only.absorb h (by simp [notifyPrices])

@[simp] theorem only_countBasket (h : [.prices] ⊆ bs) : Only bs s (countBasket t) ↔ Only bs s t :=
  Only.absorb h (by simp [countBasket])

@[simp] theorem only_emptyRetained (h : [.prices, .lines] ⊆ bs) :
    Only bs s (emptyRetained t) ↔ Only bs s t :=
  Only.absorb h (by unfold emptyRetained; dsimp only; repeat' split
                    all_goals simp)

@[simp] theorem only_uncountBasket {g : Nat} (h : [.prices, .lines] ⊆ bs) :
    Only bs s (uncountBasket g t) ↔ Only bs s t :=
  Only.absorb h (by unfold uncountBasket uncountBasket.uncountRetained; dsimp only; repeat' split
                    all_goals simp)

@[simp] theorem only_minutePrices {v : Nat} (h : [.prices, .lines] ⊆ bs) :
    Only bs s (minutePrices v t) ↔ Only bs s t :=
  Only.absorb h (by unfold minutePrices; dsimp only; repeat' split
                    all_goals simp)

@[simp] theorem only_mapVouchers {f} (h : [.vouchers] ⊆ bs) :
    Only bs s (t.mapVouchers f) ↔ Only bs s t := Only.absorb h (by simp [State.mapVouchers])

@[simp] theorem only_moveEach {p q : Place} {vs : List Voucher} (h : [.vouchers] ⊆ bs) :
    Only bs s (moveEach p q vs t) ↔ Only bs s t :=
  Only.absorb h (Only.foldl _ (fun u i => by simp) _ _)

@[simp] theorem only_settleVouchers {p} {st : VoucherState} {q : Place} (h : [.vouchers] ⊆ bs) :
    Only bs s (settleVouchers p st q t) ↔ Only bs s t := Only.absorb h (by simp [settleVouchers])

@[simp] theorem only_lapse {p} (h : [.vouchers] ⊆ bs) : Only bs s (lapse p t) ↔ Only bs s t :=
  Only.absorb h (by simp [lapse])

@[simp] theorem only_minuteVouchers {v : Nat} (h : [.vouchers] ⊆ bs) :
    Only bs s (minuteVouchers v t) ↔ Only bs s t := Only.absorb h (by simp [minuteVouchers])

@[simp] theorem only_lapseScreening {n : Nat} (h : [.vouchers] ⊆ bs) :
    Only bs s (lapseScreening n t) ↔ Only bs s t := Only.absorb h (by simp [lapseScreening])

@[simp] theorem only_suspendVouchers {n : Nat} (h : [.vouchers] ⊆ bs) :
    Only bs s (suspendVouchers n t) ↔ Only bs s t := Only.absorb h (by simp [suspendVouchers])

@[simp] theorem only_returnVouchers {n : Nat} (h : [.vouchers] ⊆ bs) :
    Only bs s (returnVouchers n t) ↔ Only bs s t := Only.absorb h (by simp [returnVouchers])

@[simp] theorem only_voidVouchers {n : Nat} (h : [.vouchers] ⊆ bs) :
    Only bs s (voidVouchers n t) ↔ Only bs s t := Only.absorb h (by simp [voidVouchers])

@[simp] theorem only_issueVouchers {n m : Nat} {us} (h : [.vouchers] ⊆ bs) :
    Only bs s (issueVouchers n m us t).2 ↔ Only bs s t := Only.absorb h (by simp [issueVouchers])

@[simp] theorem only_restoreVouchers {vs : List Voucher} (h : [.vouchers] ⊆ bs) :
    Only bs s (restoreVouchers vs t) ↔ Only bs s t :=
  Only.absorb h ((show Only [.vouchers] t _ by simp).trans
    (Only.foldl _ (fun u v => by split <;> simp) _ _))

@[simp] theorem only_removeVouchers {n : Nat} (h : [.vouchers] ⊆ bs) :
    Only bs s (removeVouchers n t) ↔ Only bs s t := Only.absorb h (by simp [removeVouchers])

-- ## Baskets

@[simp] theorem only_placeEntry {x : Entry} (h : [.engine] ⊆ bs) :
    Only bs s (placeEntry x t) ↔ Only bs s t := Only.absorb h (by simp [placeEntry])

@[simp] theorem only_releaseReservation {b : Basket} (h : [.sales] ⊆ bs) :
    Only bs s (releaseReservation b t) ↔ Only bs s t :=
  Only.absorb h (by unfold releaseReservation; split <;> simp)

@[simp] theorem only_lockIfClosing {o : Owner} (h : [.stations] ⊆ bs) :
    Only bs s (lockIfClosing o t) ↔ Only bs s t :=
  Only.absorb h (by unfold lockIfClosing; split <;> simp)

@[simp] theorem only_endBasket {i : Fin 16} {b : Basket} {e : EndReason}
    (h : [.baskets, .engine, .sales] ⊆ bs) : Only bs s (endBasket i b e t) ↔ Only bs s t :=
  Only.absorb h (by simp [endBasket])

@[simp] theorem only_returnBasket {i : Fin 16} {b : Basket} (h : [.baskets, .sales] ⊆ bs) :
    Only bs s (returnBasket i b t) ↔ Only bs s t := Only.absorb h (by simp [returnBasket])

@[simp] theorem only_doubtBasket {i : Fin 16} {b : Basket} (h : [.baskets, .sales, .stations] ⊆ bs) :
    Only bs s (doubtBasket i b t) ↔ Only bs s t := Only.absorb h (by simp [doubtBasket])

@[simp] theorem only_freeSlot {i : Fin 16} {b : Basket} (h : [.baskets, .prices, .lines, .stations] ⊆ bs) :
    Only bs s (freeSlot i b t) ↔ Only bs s t := Only.absorb h (by simp [freeSlot])

@[simp] theorem only_returnStock {vs : List VoucherLine} (h : [.vouchers] ⊆ bs) :
    Only bs s (returnStock vs t) ↔ Only bs s t := Only.absorb h (Only.foldl _ (fun u i => by simp) _ _)

@[simp] theorem only_basketEnded {i : Fin 16} {b : Basket} {e : EndReason} {n : Nat} (h : [.lines] ⊆ bs) :
    Only bs s (basketEnded i b e n t) ↔ Only bs s t := Only.absorb h (by simp [basketEnded])

@[simp] theorem only_answerWaiter {b : Basket} {n : Nat} (h : [.lines] ⊆ bs) :
    Only bs s (answerWaiter b n t) ↔ Only bs s t := Only.absorb h (by unfold answerWaiter; split <;> simp)

@[simp] theorem only_tellEnd {i : Fin 16} {b : Basket} {e : EndReason} {n : Nat} (h : [.lines] ⊆ bs) :
    Only bs s (tellEnd i b e n t) ↔ Only bs s t := Only.absorb h (by unfold tellEnd; split <;> simp)

@[simp] theorem only_basketLeaves {i : Fin 16} {b : Basket} {n : Nat}
    (h : [.baskets, .prices, .lines, .stations, .vouchers] ⊆ bs) :
    Only bs s (basketLeaves i b n t) ↔ Only bs s t := Only.absorb h (by simp [basketLeaves])

@[simp] theorem only_payResult {i : Fin 16} {b : Basket} {p : Nat} {o : PayOutcome} {f : PayFigures}
    (h : [.lines] ⊆ bs) : Only bs s (payResult i b p o f t) ↔ Only bs s t :=
  Only.absorb h (by simp [payResult])

@[simp] theorem only_payStatus {i : Fin 16} {b : Basket} {p : Nat} {st : Stage} (h : [.lines] ⊆ bs) :
    Only bs s (payStatus i b p st t) ↔ Only bs s t := Only.absorb h (by simp [payStatus])

@[simp] theorem only_judgeAttempt {i : Fin 16} {b : Basket} {p n : Nat} {o : PayOutcome}
    (h : [.baskets, .engine, .sales, .lines] ⊆ bs) :
    Only bs s (judgeAttempt i b p o n t) ↔ Only bs s t :=
  Only.absorb h (by unfold judgeAttempt; dsimp only; repeat' split
                    all_goals simp)

-- ## Printing

@[simp] theorem only_sendElement {i : Fin 8} (h : [.print, .lines] ⊆ bs) :
    Only bs s (sendElement i t) ↔ Only bs s t :=
  Only.absorb h (by unfold sendElement; dsimp only; split
                    · simp
                    · split <;> simp)

theorem judgeFrom_only (n : Nat) (t : State) : Only [.print, .lines] t (judgeFrom n t) := by
  induction n generalizing t with
  | zero => simp [judgeFrom]
  | succ n ih =>
    unfold judgeFrom
    dsimp only
    split
    · simp
    · split
      · exact (show Only [.print, .lines] t _ by simp).trans (ih _)
      · simp

@[simp] theorem only_judge (h : [.print, .lines] ⊆ bs) : Only bs s (judge t) ↔ Only bs s t :=
  Only.absorb h (judgeFrom_only 8 t)

@[simp] theorem only_joinOrder {i : Fin 8} (h : [.print, .lines] ⊆ bs) :
    Only bs s (joinOrder i t) ↔ Only bs s t := Only.absorb h (by unfold joinOrder; dsimp only; split <;> simp)

@[simp] theorem only_wake {i : Fin 8} (h : [.print, .lines] ⊆ bs) :
    Only bs s (wake i t) ↔ Only bs s t := Only.absorb h (by unfold wake; dsimp only; split <;> simp)

@[simp] theorem only_vacate {i : Fin 8} {f} (h : [.print] ⊆ bs) : Only bs s (vacate i f t) ↔ Only bs s t :=
  Only.absorb h (by simp [vacate])

@[simp] theorem only_release {i : Fin 8} {f} (h : [.print, .lines] ⊆ bs) :
    Only bs s (release i f t) ↔ Only bs s t := Only.absorb h (by unfold release; dsimp only; split <;> simp)

@[simp] theorem only_makeJob {i : Fin 8} {r : Sale} {o : Owner} {m : MakeUp}
    (h : [.print, .lines, .choice] ⊆ bs) : Only bs s (makeJob i r o m t) ↔ Only bs s t :=
  Only.absorb h (by unfold makeJob; dsimp only; split
                    · simp
                    · rw [only_wake (by simp), only_onTicketLine (by simp)]
                      intro b hb
                      split <;> cases b <;> simp_all [Block.same])

@[simp] theorem only_requestJob {i : Fin 8} {r : Sale} {o : Owner} {m : MakeUp}
    (h : [.print, .lines, .choice] ⊆ bs) : Only bs s (requestJob i r o m t).2 ↔ Only bs s t :=
  Only.absorb h (by unfold requestJob; dsimp only; repeat' split
                    all_goals simp)

theorem serveFrom_only (n : Nat) (t : State) : Only [.print, .lines, .choice] t (serveFrom n t) := by
  induction n generalizing t with
  | zero => simp [serveFrom]
  | succ n ih =>
    unfold serveFrom
    dsimp only
    split
    · simp
    · split
      · exact (show Only _ t _ by simp).trans (ih _)
      · split
        · exact (show Only _ t _ by simp).trans (ih _)
        · simp

@[simp] theorem only_serveWaiting (h : [.print, .lines, .choice] ⊆ bs) :
    Only bs s (serveWaiting t) ↔ Only bs s t := Only.absorb h (serveFrom_only _ t)

@[simp] theorem only_reportJob {n : Nat} {es} (h : [.sales] ⊆ bs) :
    Only bs s (reportJob n es t) ↔ Only bs s t := Only.absorb h (by simp [reportJob])

@[simp] theorem only_completeJob {i : Fin 8} (h : [.print, .lines, .choice, .sales] ⊆ bs) :
    Only bs s (completeJob i t) ↔ Only bs s t :=
  Only.absorb h (by unfold completeJob; dsimp only; split <;> simp)

@[simp] theorem only_leaveRest {i : Fin 8} (h : [.print, .lines] ⊆ bs) :
    Only bs s (leaveRest i t) ↔ Only bs s t := Only.absorb h (by simp [leaveRest])

@[simp] theorem only_enterRest {i : Fin 8} (h : [.print, .lines] ⊆ bs) :
    Only bs s (enterRest i t) ↔ Only bs s t :=
  Only.absorb h (by unfold enterRest; dsimp only; split <;> simp)

@[simp] theorem only_goOn {i : Fin 8} {d : Bool} (h : [.print, .lines] ⊆ bs) :
    Only bs s (goOn i d t) ↔ Only bs s t :=
  Only.absorb h (by unfold goOn; dsimp only; repeat' split
                    all_goals simp)

@[simp] theorem only_completeElement {i : Fin 8} {e : Fin 256} {x : ElementResult}
    (h : [.print, .lines, .choice, .sales] ⊆ bs) : Only bs s (completeElement i e x t) ↔ Only bs s t :=
  Only.absorb h (by unfold completeElement; dsimp only; split
                    · simp
                    · split <;> simp)

@[simp] theorem only_spoilInFlight {i : Fin 8} (h : [.print] ⊆ bs) :
    Only bs s (spoilInFlight i t) ↔ Only bs s t := Only.absorb h (by unfold spoilInFlight; split <;> simp)

@[simp] theorem only_powerDown {i : Fin 8} (h : [.print, .lines] ⊆ bs) :
    Only bs s (powerDown i t) ↔ Only bs s t := Only.absorb h (by unfold powerDown; split <;> simp)

@[simp] theorem only_printerFault {i : Fin 8} {c : Cause} (h : [.print, .lines] ⊆ bs) :
    Only bs s (printerFault i c t) ↔ Only bs s t :=
  Only.absorb h (by unfold printerFault; dsimp only; split <;> simp)

@[simp] theorem only_cutSupply {i : Fin 8} {c : Cause} (h : [.print] ⊆ bs) :
    Only bs s (cutSupply i c t) ↔ Only bs s t := Only.absorb h (by simp [cutSupply])

@[simp] theorem only_filteredFault {i : Fin 8} (h : [.print, .lines] ⊆ bs) :
    Only bs s (filteredFault i t) ↔ Only bs s t :=
  Only.absorb h (by
    unfold filteredFault
    dsimp only
    split
    · split <;> simp
    · exact (show Only [.print, .lines] t (cutSupply i .overcurrent t) by simp).trans
        (Only.foldl _ (fun u k => by simp) _ _))

/-- R154: all that an event at a fault input can do. -/
theorem faultInput_cases (i : Fin 8) (input : FaultInput) (s : State) :
    faultInput i input s = s
      ∨ (∃ l, faultInput i input s = s.withTicketLine i l
          ∧ l = { s.ticketLine i with asserted := l.asserted, filter := l.filter })
      ∨ (faultInput i input s = filteredFault i s ∧ (s.ticketLine i).powered = true
          ∧ ∃ ms time, input = .lasts ms ∧ (s.ticketLine i).filter = some time ∧ time ≤ ms) := by
  cases input with
  | begins =>
    simp only [faultInput]
    split
    · exact .inl rfl
    · exact .inr (.inl ⟨_, rfl, rfl⟩)
  | lasts ms =>
    simp only [faultInput]
    split
    · exact .inl rfl
    · rename_i time h
      split
      · exact .inr (.inr ⟨rfl, by simp_all, ms, time, rfl, h, by simp_all⟩)
      · exact .inl rfl
  | ends => exact .inr (.inl ⟨_, rfl, rfl⟩)

@[simp] theorem only_faultInput {i : Fin 8} {input : FaultInput} (h : [.print, .lines] ⊆ bs) :
    Only bs s (faultInput i input t) ↔ Only bs s t :=
  Only.absorb h (by
    obtain e | ⟨l, e, -⟩ | ⟨e, -⟩ := faultInput_cases i input t <;> rw [e]
    · exact Only.refl _ _
    · intro b hb; cases b <;> simp_all [Block.same, State.withTicketLine]
    · simp)

-- ## Sales

@[simp] theorem only_beginCommit {i : Fin 16} {b : Basket} {p : Option Payment} {l : Option (Fin 8)}
    (h : [.sales, .engine, .baskets] ⊆ bs) : Only bs s (beginCommit i b p l t) ↔ Only bs s t :=
  Only.absorb h (by simp [beginCommit])

@[simp] theorem only_commitJob {l : Option (Fin 8)} {n : Nat} (h : [.print, .lines, .choice, .sales] ⊆ bs) :
    Only bs s (commitJob l n t).2 ↔ Only bs s t :=
  Only.absorb h (by unfold commitJob; dsimp only; repeat' split
                    all_goals simp)

@[simp] theorem only_tellCommit {i : Fin 16} {b : Basket} {r : Sale} {o : PrintOutcome}
    (h : [.lines, .sales] ⊆ bs) : Only bs s (tellCommit i b r o t) ↔ Only bs s t :=
  Only.absorb h (by unfold tellCommit; dsimp only; repeat' split
                    all_goals simp)

@[simp] theorem only_recordSale {b : Basket} {c : Commit} (h : [.sales, .vouchers] ⊆ bs) :
    Only bs s (recordSale b c t) ↔ Only bs s t := Only.absorb h (by simp [recordSale])

@[simp] theorem only_completeCommit {i : Fin 16} {b : Basket} {c : Commit}
    (h : [.sales, .vouchers, .baskets, .prices, .lines, .stations, .print, .choice] ⊆ bs) :
    Only bs s (completeCommit i b c t) ↔ Only bs s t :=
  Only.absorb h (by unfold completeCommit; dsimp only; split <;> simp)

@[simp] theorem only_refundNotice {n : Nat} {r : Sale} {fs} (h : [.lines] ⊆ bs) :
    Only bs s (refundNotice n r fs t) ↔ Only bs s t := Only.absorb h (by simp [refundNotice])

@[simp] theorem only_endQuote {n : Nat} (h : [.sales, .vouchers] ⊆ bs) :
    Only bs s (endQuote n t) ↔ Only bs s t := Only.absorb h (by simp [endQuote])

@[simp] theorem only_expireQuote {r : Sale} (h : [.sales, .vouchers, .lines] ⊆ bs) :
    Only bs s (expireQuote r t) ↔ Only bs s t := Only.absorb h (by simp [expireQuote])

@[simp] theorem only_completeRefund {r : Sale} {q : Quote} (h : [.sales, .vouchers, .lines] ⊆ bs) :
    Only bs s (completeRefund r q t) ↔ Only bs s t :=
  Only.absorb h (by unfold completeRefund; dsimp only; split <;> simp)

-- ## Payment

@[simp] theorem only_countStray {i : Fin 8} (h : [.pay] ⊆ bs) : Only bs s (countStray i t) ↔ Only bs s t :=
  Only.absorb h (by simp [countStray])

@[simp] theorem only_endExchange {i : Fin 8} (h : [.pay] ⊆ bs) : Only bs s (endExchange i t) ↔ Only bs s t :=
  Only.absorb h (by simp [endExchange])

@[simp] theorem only_pump {i : Fin 8} (h : [.pay, .lines] ⊆ bs) : Only bs s (pump i t) ↔ Only bs s t :=
  Only.absorb h (by unfold pump; split <;> simp)

@[simp] theorem only_setRecord {i : Fin 8} {p : Nat} {f} (h : [.pay] ⊆ bs) :
    Only bs s (setRecord i p f t) ↔ Only bs s t := Only.absorb h (by simp [setRecord])

@[simp] theorem only_doubtNotice {i : Fin 8} {r : Reversal} {c : DoubtCause} (h : [.lines] ⊆ bs) :
    Only bs s (doubtNotice i r c t) ↔ Only bs s t := Only.absorb h (by simp [doubtNotice])

@[simp] theorem only_dispose {i : Fin 8} {r : Reversal}
    (h : [.baskets, .engine, .sales, .lines, .stations, .pay] ⊆ bs) :
    Only bs s (dispose i r t) ↔ Only bs s t :=
  Only.absorb h (by unfold dispose; dsimp only; split
                    · simp
                    · split <;> simp)

@[simp] theorem only_needReversal {i : Fin 8} {r : Reversal}
    (h : [.baskets, .engine, .sales, .lines, .stations, .pay] ⊆ bs) :
    Only bs s (needReversal i r t) ↔ Only bs s t :=
  Only.absorb h (by unfold needReversal; dsimp only; repeat' split
                    all_goals simp)

@[simp] theorem only_withBasket {r : PayRecord} {f : Basket → State → State}
    (h : ∀ b u, Only bs u (f b u)) : Only bs s (withBasket r f t) ↔ Only bs s t :=
  Only.absorb (List.Subset.refl bs) (by unfold withBasket; split
                                        · simp
                                        · exact h _ _)

@[simp] theorem only_acceptRecord {i : Fin 8} {r : PayRecord} (h : [.pay, .lines] ⊆ bs) :
    Only bs s (acceptRecord i r t) ↔ Only bs s t := Only.absorb h (by simp [acceptRecord])

@[simp] theorem only_progressRecord {i : Fin 8} {r : PayRecord} {st : Stage} (h : [.pay, .lines] ⊆ bs) :
    Only bs s (progressRecord i r st t) ↔ Only bs s t := Only.absorb h (by simp [progressRecord])

@[simp] theorem only_reverseBasket {i : Fin 16} {b : Basket} (h : [.baskets] ⊆ bs) :
    Only bs s (reverseBasket i b t) ↔ Only bs s t := Only.absorb h (by simp [reverseBasket])

/-- The pieces an outcome of an attempt may change. -/
abbrev outcomeBlocks : List Block := [.baskets, .engine, .sales, .lines, .stations, .pay]

@[simp] theorem only_approveRecord {i : Fin 8} {r : PayRecord} {c} (h : outcomeBlocks ⊆ bs) :
    Only bs s (approveRecord i r c t) ↔ Only bs s t := Only.absorb h (by simp [approveRecord])

@[simp] theorem only_declineRecord {i : Fin 8} {r : PayRecord} {n : Nat} (h : outcomeBlocks ⊆ bs) :
    Only bs s (declineRecord i r n t) ↔ Only bs s t := Only.absorb h (by simp [declineRecord])

@[simp] theorem only_mismatchRecord {i : Fin 8} {r : PayRecord} {c} {n : Nat} (h : outcomeBlocks ⊆ bs) :
    Only bs s (mismatchRecord i r c n t) ↔ Only bs s t := Only.absorb h (by simp [mismatchRecord])

@[simp] theorem only_abortAnswered {i : Fin 8} {r : PayRecord} {f} (h : outcomeBlocks ⊆ bs) :
    Only bs s (abortAnswered i r f t) ↔ Only bs s t := Only.absorb h (by simp [abortAnswered])

@[simp] theorem only_abortApproved {i : Fin 8} {r : PayRecord} {c} {n : Nat} (h : outcomeBlocks ⊆ bs) :
    Only bs s (abortApproved i r c n t) ↔ Only bs s t := Only.absorb h (by simp [abortApproved])

@[simp] theorem only_timeOut {i : Fin 8} {r : PayRecord} (h : outcomeBlocks ⊆ bs) :
    Only bs s (timeOut i r t) ↔ Only bs s t := Only.absorb h (by simp [timeOut])

@[simp] theorem only_silentAbort {i : Fin 8} {r : PayRecord} (h : outcomeBlocks ⊆ bs) :
    Only bs s (silentAbort i r t) ↔ Only bs s t :=
  Only.absorb h (by
    unfold silentAbort
    rw [only_pump (by simp), only_needReversal (by simp), only_withBasket (by intro b u; split <;> simp)]
    simp)

@[simp] theorem only_storeCode {i : Fin 8} {p : Nat} {c} (h : [.pay] ⊆ bs) :
    Only bs s (storeCode i p c t) ↔ Only bs s t := Only.absorb h (by simp [storeCode])

@[simp] theorem only_lateApproval {i : Fin 8} {p n : Nat} {c} (h : outcomeBlocks ⊆ bs) :
    Only bs s (lateApproval i p c n t) ↔ Only bs s t := Only.absorb h (by simp [lateApproval])

@[simp] theorem only_confirmReversal {i : Fin 8} {r : Reversal} (h : outcomeBlocks ⊆ bs) :
    Only bs s (confirmReversal i r t) ↔ Only bs s t :=
  Only.absorb h (by unfold confirmReversal; dsimp only; split <;> simp)

@[simp] theorem only_intervalExpired {i : Fin 8} (h : outcomeBlocks ⊆ bs) :
    Only bs s (intervalExpired i t) ↔ Only bs s t :=
  Only.absorb h (by unfold intervalExpired; dsimp only; repeat' split
                    all_goals simp)

-- ## Seats

@[simp] theorem only_putSeats {n : Nat} {g : Grid} (h : [.screenings] ⊆ bs) :
    Only bs s (t.putSeats n g) ↔ Only bs s t := Only.absorb h (by simp [State.putSeats])

@[simp] theorem only_holdFor {i : Fin 16} {b : Basket} {c : Screening} {ls} (h : [.screenings, .baskets] ⊆ bs) :
    Only bs s (holdFor i b c ls t) ↔ Only bs s t := Only.absorb h (by simp [holdFor])

@[simp] theorem only_releaseFor {i : Fin 16} {b : Basket} {c : Screening} {xs}
    (h : [.screenings, .baskets] ⊆ bs) : Only bs s (releaseFor i b c xs t) ↔ Only bs s t :=
  Only.absorb h (by simp [releaseFor])

-- ## The clock

@[simp] theorem only_screeningClosed {c : Screening} (h : [.lines] ⊆ bs) :
    Only bs s (screeningClosed c t) ↔ Only bs s t := Only.absorb h (by simp [screeningClosed])

/-- The pieces a minute check may change. -/
abbrev minuteBlocks : List Block := [.screenings, .vouchers, .prices, .lines, .choice]

theorem arrangeFrom_subset {α : Type} (c n : Nat) (l : List α) : ∀ x ∈ arrangeFrom c n l, x ∈ l := by
  induction n generalizing c l with
  | zero => simp [arrangeFrom]
  | succ n ih =>
    intro x hx
    unfold arrangeFrom at hx
    dsimp only at hx
    split at hx
    · exact hx
    · split at hx
      · exact hx
      · rename_i y hy
        rcases List.mem_cons.1 hx with rfl | h
        · exact List.mem_of_getElem? hy
        · exact List.mem_of_mem_eraseIdx (ih _ _ _ h)

theorem Only.foldl_mem {α : Type} {fp : List Block} (f : State → α → State) (l : List α)
    (h : ∀ t, ∀ x ∈ l, Only fp t (f t x)) (t : State) : Only fp t (l.foldl f t) := by
  induction l generalizing t with
  | nil => simp
  | cons x xs ih => exact (h t x (by simp)).trans (ih (fun u y hy => h u y (by simp [hy])) _)

@[simp] theorem only_minuteCheck {v : Nat} (h : minuteBlocks ⊆ bs) :
    Only bs s (minuteCheck v t) ↔ Only bs s t :=
  Only.absorb h (by
    unfold minuteCheck
    dsimp only
    refine (show Only minuteBlocks t _ by simp).trans (Only.foldl_mem _ _ (fun u x hx => ?_) _)
    rcases List.mem_append.1 (arrangeFrom_subset _ _ _ x hx) with hx | hx
    · obtain ⟨c, -, rfl⟩ := List.mem_map.1 hx
      simp
    · split at hx
      · rw [List.mem_singleton.1 hx]
        simp
      · cases hx)

@[simp] theorem only_putClock {v : Nat} (h : [.clock] ⊆ bs) : Only bs s (putClock v t) ↔ Only bs s t :=
  Only.absorb h (by simp [putClock])

/-- The pieces a move of the clock may change. -/
abbrev clockBlocks : List Block := .clock :: minuteBlocks

@[simp] theorem only_moveClock {v : Nat} (h : clockBlocks ⊆ bs) : Only bs s (moveClock v t) ↔ Only bs s t :=
  Only.absorb h (by unfold moveClock; dsimp only; split <;> simp)

@[simp] theorem only_clockSecond (h : clockBlocks ⊆ bs) : Only bs s (clockSecond t) ↔ Only bs s t :=
  Only.absorb h (by unfold clockSecond; dsimp only; split <;> simp)

@[simp] theorem only_align (h : clockBlocks ⊆ bs) : Only bs s (align t) ↔ Only bs s t :=
  Only.absorb h (by unfold align; dsimp only; split <;> simp)

@[simp] theorem only_takePulse (h : clockBlocks ⊆ bs) : Only bs s (takePulse t) ↔ Only bs s t :=
  Only.absorb h (by unfold takePulse; dsimp only; repeat' split
                    all_goals simp)

@[simp] theorem only_holdWarning {i : Fin 16} {b : Basket} (h : [.lines] ⊆ bs) :
    Only bs s (holdWarning i b t) ↔ Only bs s t := Only.absorb h (by simp [holdWarning])

@[simp] theorem only_tickBaskets (h : [.baskets, .lines, .choice] ⊆ bs) :
    Only bs s (tickBaskets t) ↔ Only bs s t :=
  Only.absorb h ((show Only [.baskets, .lines, .choice] t _ by simp).trans
    (Only.foldl _ (fun u x => by simp) _ _))

@[simp] theorem only_tickPay (h : [.pay] ⊆ bs) : Only bs s (tickPay t) ↔ Only bs s t :=
  Only.absorb h (by simp [tickPay])

@[simp] theorem only_tickSales (h : [.sales] ⊆ bs) : Only bs s (tickSales t) ↔ Only bs s t :=
  Only.absorb h (by simp [tickSales])

@[simp] theorem only_tickPrint (h : [.print] ⊆ bs) : Only bs s (tickPrint t) ↔ Only bs s t :=
  Only.absorb h (by simp [tickPrint])

@[simp] theorem only_tickClock (h : [.clock] ⊆ bs) : Only bs s (tickClock t) ↔ Only bs s t :=
  Only.absorb h (by simp [tickClock])

@[simp] theorem only_secondTick (h : [.baskets, .lines, .choice, .clock, .print, .sales, .pay] ⊆ bs) :
    Only bs s (secondTick t) ↔ Only bs s t := Only.absorb h (by simp [secondTick])

-- ## Events

@[simp] theorem only_expireHold {i : Fin 16} (h : [.baskets, .engine, .sales] ⊆ bs) :
    Only bs s (expireHold i t) ↔ Only bs s t :=
  Only.absorb h (by unfold expireHold; repeat' split
                    all_goals simp)

@[simp] theorem only_expireAccept {i : Fin 8} (h : outcomeBlocks ⊆ bs) :
    Only bs s (expireAccept i t) ↔ Only bs s t :=
  Only.absorb h (by unfold expireAccept; repeat' split
                    all_goals simp)

@[simp] theorem only_expireAuthorization {i : Fin 8} (h : outcomeBlocks ⊆ bs) :
    Only bs s (expireAuthorization i t) ↔ Only bs s t :=
  Only.absorb h (by unfold expireAuthorization; repeat' split
                    all_goals simp)

@[simp] theorem only_expireInterval {i : Fin 8} (h : outcomeBlocks ⊆ bs) :
    Only bs s (expireInterval i t) ↔ Only bs s t :=
  Only.absorb h (by unfold expireInterval; split <;> simp)

@[simp] theorem only_expireSaleQuote {n : Nat} (h : [.sales, .vouchers, .lines] ⊆ bs) :
    Only bs s (expireSaleQuote n t) ↔ Only bs s t :=
  Only.absorb h (by unfold expireSaleQuote; repeat' split
                    all_goals simp)

@[simp] theorem only_expireWindow {i : Fin 8} (h : [.sales] ⊆ bs) :
    Only bs s (expireWindow i t) ↔ Only bs s t := Only.absorb h (by unfold expireWindow; split <;> simp)

@[simp] theorem only_expireRest {i : Fin 8} (h : [.print, .lines] ⊆ bs) :
    Only bs s (expireRest i t) ↔ Only bs s t := Only.absorb h (by unfold expireRest; split <;> simp)

@[simp] theorem only_expireNoPulse (h : [.clock] ⊆ bs) : Only bs s (expireNoPulse t) ↔ Only bs s t :=
  Only.absorb h (by unfold expireNoPulse; split <;> simp)

@[simp] theorem only_expireFrame {l : Line} (h : [.lines] ⊆ bs) :
    Only bs s (expireFrame l t) ↔ Only bs s t :=
  Only.absorb h (by unfold expireFrame; split <;> simp [discardFrame])

end Sys2Proof.Machine
end

