-- ==== Sys2Proof/Laws/Print.lean ====
section
/-! SUPPORT. Laws of the print controller: what one grant does, when the arbiter stops, and what sending an element
does (R145, R147). -/

namespace Sys2Proof.Machine

/-- R147: with a next element in the pool, sending it starts the head job and makes its PRINT_ELEMENT ready. -/
theorem sendElement_eq {i : Fin 8} {s : State} {e : Fin 256} {x : Element} (h : s.headElement i = some e)
    (hx : s.print.pool.get e = some x) :
    sendElement i s = send (.tl i) (elementFrame e x) (s.onTicketLine i (fun l => { l with
      queue := match l.queue with
        | j :: rest => { j with started := true } :: rest
        | [] => [] })) := by
  simp only [sendElement, h, hx]
  rfl

/-- R145: an empty order, or a head whose draw does not fit, leaves everything as it is. -/
theorem judgeFrom_stops {s : State} (n : Nat) (h : ∀ k, s.print.order.head? = some k →
    s.params.budget < s.grantedSum + s.params.draws.get k) : judgeFrom n s = s := by
  cases n with
  | zero => rfl
  | succ n =>
    unfold judgeFrom
    split
    · rfl
    · next i rest ho => rw [if_neg (by have := h i (by rw [ho]; rfl); omega)]

/-- R145: a head that fits leaves the order and prints, and the new head is judged. -/
theorem judgeFrom_grants {s : State} {i : Fin 8} {rest : List (Fin 8)} (n : Nat) (ho : s.print.order = i :: rest)
    (h : s.grantedSum + s.params.draws.get i ≤ s.params.budget) :
    judgeFrom (n + 1) s = judgeFrom n (sendElement i (State.onTicketLine i (fun l => { l with state := .printing })
      { s with print := { s.print with order := rest } })) := by
  rw [judgeFrom, ho]
  exact if_pos h

end Sys2Proof.Machine
end

