-- ==== Sys2Proof/Laws/Steps.lean ====
section
/-! SUPPORT. What every command does around its own effect: nothing due stays nothing done, alarms latch and
report, a request that is heard runs in the state with it outstanding, an entry the arbiter takes is run. -/

namespace Sys2Proof.Machine

-- ## Nothing due

theorem settle_quiet {s : State} (h : s.quiet = true) : s.settle = s := by
  simp only [State.quiet, Bool.and_eq_true, bne_iff_ne, ne_eq, List.isEmpty_iff] at h
  unfold State.settle
  rw [if_neg h.1, h.2]

theorem command_quiet {s : State} (h : s.quiet = true) (f : State → State) :
    command f s = .next (latchAlarms (f s)) := by rw [command, settle_quiet h]

-- ## Alarms

/-- `Only` read piece by piece, as equations. -/
theorem Only.pieces {bs : List Block} {s t : State} (h : Only bs s t) (b : Block) (hb : b ∉ bs) : b.same s t :=
  h b hb

theorem only_latch (s : State) : Only [.lines, .latched, .choice] s (latchAlarms s) :=
  (only_latchAlarms (by simp)).2 (Only.refl _ s)

@[simp] theorem latchAlarms_pending (s : State) : (latchAlarms s).pending = s.pending := only_latch s .pending (by simp)
@[simp] theorem latchAlarms_clock (s : State) : (latchAlarms s).clock = s.clock := only_latch s .clock (by simp)
@[simp] theorem latchAlarms_plans (s : State) : (latchAlarms s).plans = s.plans := only_latch s .plans (by simp)
@[simp] theorem latchAlarms_screenings (s : State) : (latchAlarms s).screenings = s.screenings :=
  only_latch s .screenings (by simp)
@[simp] theorem latchAlarms_engine (s : State) : (latchAlarms s).engine = s.engine := only_latch s .engine (by simp)
@[simp] theorem latchAlarms_baskets (s : State) : (latchAlarms s).baskets = s.baskets :=
  only_latch s .baskets (by simp)
@[simp] theorem latchAlarms_nextBasketRef (s : State) : (latchAlarms s).nextBasketRef = s.nextBasketRef :=
  only_latch s .nextRef (by simp)
@[simp] theorem latchAlarms_prices (s : State) : (latchAlarms s).prices = s.prices := only_latch s .prices (by simp)
@[simp] theorem latchAlarms_pay (s : State) : (latchAlarms s).pay = s.pay := only_latch s .pay (by simp)
@[simp] theorem latchAlarms_sales (s : State) : (latchAlarms s).sales = s.sales := only_latch s .sales (by simp)
@[simp] theorem latchAlarms_vouchers (s : State) : (latchAlarms s).vouchers = s.vouchers :=
  only_latch s .vouchers (by simp)
@[simp] theorem latchAlarms_print (s : State) : (latchAlarms s).print = s.print := only_latch s .print (by simp)
@[simp] theorem latchAlarms_kiosk (s : State) : (latchAlarms s).ifc.kiosk = s.ifc.kiosk :=
  (only_latch s .outstanding (by simp)).1
@[simp] theorem latchAlarms_concession (s : State) : (latchAlarms s).ifc.concession = s.ifc.concession :=
  (only_latch s .outstanding (by simp)).2.1
@[simp] theorem latchAlarms_office (s : State) : (latchAlarms s).ifc.office = s.ifc.office :=
  (only_latch s .outstanding (by simp)).2.2
@[simp] theorem latchAlarms_stations (s : State) : (latchAlarms s).ifc.stations = s.ifc.stations :=
  only_latch s .stations (by simp)
@[simp] theorem latchAlarms_concessionOpen (s : State) :
    (latchAlarms s).ifc.concessionOpen = s.ifc.concessionOpen := only_latch s .concessions (by simp)
@[simp] theorem latchAlarms_restart (s : State) : (latchAlarms s).ifc.restart = s.ifc.restart :=
  only_latch s .restart (by simp)
@[simp] theorem latchAlarms_enabled (s : State) : (latchAlarms s).alarms.enabled = s.alarms.enabled :=
  only_latch s .enabled (by simp)
@[simp] theorem latchAlarms_params (s : State) : (latchAlarms s).params = s.params := only_latch s .params (by simp)

/-- From `s` to `t` alarm notices alone become ready, on OL. -/
structure Notices (s t : State) : Prop where
  ol : ∃ fs : List Frame, (t.line .ol).sending = (s.line .ol).sending ++ fs ∧ ∀ f ∈ fs, f.isAlarm = true
  others : ∀ l, l ≠ .ol → t.line l = s.line l
  rest : (t.line .ol).receiver = (s.line .ol).receiver ∧ (t.line .ol).badFrames = (s.line .ol).badFrames
    ∧ (t.line .ol).handedOn = (s.line .ol).handedOn

theorem Notices.refl (s : State) : Notices s s := ⟨⟨[], by simp⟩, fun _ _ => rfl, rfl, rfl, rfl⟩

theorem Notices.trans {s t u : State} (h : Notices s t) (k : Notices t u) : Notices s u := by
  obtain ⟨⟨f, hf, af⟩, ho, h1, h2, h3⟩ := h
  obtain ⟨⟨g, hg, ag⟩, ko, k1, k2, k3⟩ := k
  refine ⟨⟨f ++ g, by rw [hg, hf, List.append_assoc], fun x hx => ?_⟩, fun l hl => (ko l hl).trans (ho l hl),
    k1.trans h1, k2.trans h2, k3.trans h3⟩
  rcases List.mem_append.1 hx with hx | hx
  · exact af x hx
  · exact ag x hx

theorem alarmNotice_notices (i : Fin 10) (s : State) : Notices s (alarmNotice i s) := by
  refine ⟨⟨[_], by simp [alarmNotice, notifyOffice]; rfl, by simp [Frame.isAlarm]⟩, fun l hl => ?_, ?_⟩
  · simp [alarmNotice, notifyOffice, Ne.symm hl]
  · simp [alarmNotice, notifyOffice]

theorem alarmNotices_notices (fl : List (Fin 10)) (s : State) : Notices s (alarmNotices fl s) := by
  unfold alarmNotices
  induction fl generalizing s with
  | nil => exact Notices.refl s
  | cons i fl ih =>
    refine Notices.trans ?_ (ih _)
    dsimp only
    split
    · exact alarmNotice_notices i s
    · exact Notices.refl s

@[simp] theorem spend_ifc (k : Nat) (s : State) : (s.spend k).ifc = s.ifc := by unfold State.spend; split <;> rfl
@[simp] theorem spend_alarms (k : Nat) (s : State) : (s.spend k).alarms = s.alarms := by
  unfold State.spend; split <;> rfl

theorem notices_of_lines {s t u : State} (h : Notices t u) (e : t.ifc.lines = s.ifc.lines) : Notices s u := by
  have k : ∀ l, t.line l = s.line l := fun l => by simp [State.line, e]
  obtain ⟨⟨f, hf, af⟩, ho, h1, h2, h3⟩ := h
  exact ⟨⟨f, by rw [hf, k], af⟩, fun l hl => (ho l hl).trans (k l), by rw [h1, k], by rw [h2, k], by rw [h3, k]⟩

/-- R172: latching sends alarm notices alone. -/
theorem latchAlarms_notices (s : State) : Notices s (latchAlarms s) := by
  unfold latchAlarms
  split
  · exact Notices.refl s
  · exact notices_of_lines (alarmNotices_notices _ _) (by simp [setLatched])

theorem latchAlarms_line_ne (s : State) {l : Line} (h : l ≠ .ol) : (latchAlarms s).line l = s.line l :=
  (latchAlarms_notices s).others l h

@[simp] theorem latchAlarms_badFrames (s : State) (l : Line) :
    ((latchAlarms s).line l).badFrames = (s.line l).badFrames := by
  by_cases h : l = .ol
  · subst h; exact (latchAlarms_notices s).rest.2.1
  · rw [latchAlarms_line_ne s h]

@[simp] theorem latchAlarms_receiver (s : State) (l : Line) :
    ((latchAlarms s).line l).receiver = (s.line l).receiver := by
  by_cases h : l = .ol
  · subst h; exact (latchAlarms_notices s).rest.1
  · rw [latchAlarms_line_ne s h]

@[simp] theorem latchAlarms_handedOn (s : State) (l : Line) :
    ((latchAlarms s).line l).handedOn = (s.line l).handedOn := by
  by_cases h : l = .ol
  · subst h; exact (latchAlarms_notices s).rest.2.2
  · rw [latchAlarms_line_ne s h]

/-- Every place of the table of lines is some line's. -/
theorem lineIndex_surjective (i : Fin 29) : ∃ l, lineIndex l = i := by
  by_cases h : i.val < 8
  · exact ⟨.kl ⟨i.val, h⟩, Fin.ext rfl⟩
  by_cases h2 : i.val < 16
  · exact ⟨.pl ⟨i.val - 8, by omega⟩, Fin.ext (by simp [lineIndex]; omega)⟩
  by_cases h3 : i.val < 24
  · exact ⟨.tl ⟨i.val - 16, by omega⟩, Fin.ext (by simp [lineIndex]; omega)⟩
  by_cases h4 : i.val < 28
  · exact ⟨.cl ⟨i.val - 24, by omega⟩, Fin.ext (by simp [lineIndex]; omega)⟩
  · exact ⟨.ol, Fin.ext (by simp [lineIndex]; omega)⟩

/-- The condition of flag 10 reads the counts of bad frames alone. -/
theorem any_badFrames_congr {s t : State} (h : ∀ l, (t.line l).badFrames = (s.line l).badFrames) :
    t.ifc.lines.list.any (fun l => 100 < l.badFrames) = s.ifc.lines.list.any (fun l => 100 < l.badFrames) := by
  have k : ∀ i, (t.ifc.lines.get i).badFrames = (s.ifc.lines.get i).badFrames := by
    intro i
    obtain ⟨l, rfl⟩ := lineIndex_surjective i
    exact h l
  rw [Bool.eq_iff_iff, Tab.any_list, Tab.any_list]
  simp [k]

/-- The conditions read the clock, the prints, the payments, the stock, the bad-frame counts and the jitter
window, and nothing else. -/
theorem conditions_congr {s t : State} (hc : t.clock = s.clock) (hp : t.print = s.print) (hy : t.pay = s.pay)
    (hv : t.vouchers = s.vouchers) (hj : t.params = s.params)
    (hl : ∀ l, (t.line l).badFrames = (s.line l).badFrames) : t.conditions = s.conditions := by
  simp only [State.conditions, State.jitterHolds, hc, hp, hy, hv, hj, any_badFrames_congr hl]

@[simp] theorem latchAlarms_conditions (s : State) : (latchAlarms s).conditions = s.conditions :=
  conditions_congr (by simp) (by simp) (by simp) (by simp) (by simp) (by simp)

@[simp] theorem latchAlarms_condition (s : State) (i : Fin 10) : (latchAlarms s).condition i = s.condition i := by
  simp [State.condition]

theorem foldl_set_true {n : Nat} (fl : List (Fin n)) (t : Tab Bool n) (b : Bool) (i : Fin n) :
    (fl.foldl (fun t i => t.set i b) t).get i = if i ∈ fl then b else t.get i := by
  induction fl generalizing t with
  | nil => simp
  | cons j fl ih =>
    rw [List.foldl_cons, ih, Tab.get_set]
    by_cases h : i ∈ fl
    · simp [h]
    · by_cases e : j = i
      · simp [h, e]
      · simp [h, e, Ne.symm e]

@[simp] theorem alarmNotices_latched (fl : List (Fin 10)) (s : State) :
    (alarmNotices fl s).alarms = s.alarms := by
  unfold alarmNotices
  induction fl generalizing s with
  | nil => rfl
  | cons i fl ih => rw [List.foldl_cons, ih]; split <;> rfl

/-- R171, R172: a flag is latched after an event when it was before or its condition holds. -/
theorem latchAlarms_latched (s : State) (i : Fin 10) :
    (latchAlarms s).alarms.latched.get i = (s.alarms.latched.get i || s.condition i) := by
  have key : ∀ fl, s.arising = fl →
      (setLatched fl s).alarms.latched.get i = (s.alarms.latched.get i || s.condition i) := by
    intro fl e
    simp only [setLatched, foldl_set_true, ← e, State.arising, List.mem_filter, mem_indices, true_and]
    cases s.alarms.latched.get i <;> cases s.condition i <;> simp
  unfold latchAlarms
  split
  · rename_i h
    simpa [setLatched] using key [] h
  · simpa using key _ rfl

theorem latches_of {s u : State} (h : u.alarms.latched = s.alarms.latched) : Latches s (latchAlarms u) := by
  intro i
  rw [latchAlarms_latched, h, latchAlarms_condition]

-- ## A message is taken from the line that handed it on

theorem takeMessage_ifc (l : Line) (i : Instr) (s : State) :
    ∃ ls, takeMessage l i s = { s with ifc := { s.ifc with lines := ls } } := by
  unfold takeMessage
  split
  · exact ⟨_, rfl⟩
  · split
    · exact ⟨_, rfl⟩
    · exact ⟨_, rfl⟩

theorem takeMessage_line (l k : Line) (i : Instr) (s : State) :
    ((takeMessage l i s).line k).sending = (s.line k).sending
      ∧ ((takeMessage l i s).line k).receiver = (s.line k).receiver
      ∧ ((takeMessage l i s).line k).badFrames = (s.line k).badFrames
      ∧ (((takeMessage l i s).line k).handedOn = (s.line k).handedOn
        ∨ ((takeMessage l i s).line k).handedOn = (s.line k).handedOn.tail) := by
  unfold takeMessage
  split
  · exact ⟨rfl, rfl, rfl, .inl rfl⟩
  · rename_i body rest h
    split
    · rw [line_onLine]
      split
      · rename_i e
        subst e
        exact ⟨rfl, rfl, rfl, .inr (by rw [h]; rfl)⟩
      · exact ⟨rfl, rfl, rfl, .inl rfl⟩
    · exact ⟨rfl, rfl, rfl, .inl rfl⟩

-- ## The state in which a request runs

/-- The state in which a request that is heard runs: its message taken, the request outstanding. -/
def hearing (i : Instr) (r : Reply) (s : State) : State :=
  (takeMessage r.link.line i s).outstand r.link ⟨r.kind, r.tag⟩

theorem admission_takeMessage (l : Line) (i : Instr) (s : State) (src : Link) (tag kind : Byte) (sized : Bool) :
    (takeMessage l i s).admission src tag kind sized = s.admission src tag kind sized := by
  obtain ⟨ls, e⟩ := takeMessage_ifc l i s
  rw [e]
  rfl

/-- A request that is heard runs with its message taken and itself outstanding (R162, R163). -/
theorem request_heard {i : Instr} {src : Link} {tag kind : Byte} {ok : Bool}
    {run : Requester → Reply → State → State} {s : State} {who : Requester} (hq : s.quiet = true)
    (hw : i.wellFormed = true) (ha : s.admission src tag kind true = .admitted who) :
    request i src tag kind ok run s = .next (latchAlarms
      (if ok then run who ⟨src, tag, kind⟩ (hearing i ⟨src, tag, kind⟩ s)
        else answer ⟨src, tag, kind⟩ .badRequest [] (hearing i ⟨src, tag, kind⟩ s))) := by
  rw [request, command_quiet hq]
  simp only [hear, admission_takeMessage, hw, ha, hearing]

/-- The state a request runs in, where every piece but the line interface's own reads as before. -/
theorem hearing_eq (i : Instr) (r : Reply) (s : State) :
    ∃ ls k c o, hearing i r s
      = { s with ifc := { s.ifc with lines := ls, kiosk := k, concession := c, office := o } } := by
  obtain ⟨ls, e⟩ := takeMessage_ifc r.link.line i s
  unfold hearing
  rw [e]
  unfold State.outstand
  split <;> exact ⟨_, _, _, _, rfl⟩

theorem only_hearing (i : Instr) (r : Reply) (s : State) : Only [.lines, .outstanding] s (hearing i r s) := by
  simp [hearing]

theorem hearing_outstands (i : Instr) (r : Reply) (s : State) : Outstands r s (hearing i r s) := by
  obtain ⟨ls, e⟩ := takeMessage_ifc r.link.line i s
  unfold Outstands hearing
  rw [e]
  unfold State.outstand
  split <;> simp [Block.same]

@[simp] theorem outstand_line (k : Link) (o : Outstanding) (s : State) (l : Line) :
    (s.outstand k o).line l = s.line l := by unfold State.outstand; split <;> rfl

theorem outstand_alarms (k : Link) (o : Outstanding) (s : State) : (s.outstand k o).alarms = s.alarms := by
  unfold State.outstand; split <;> rfl

-- ## What the state a request runs in reads

@[simp] theorem hearing_pending (i : Instr) (r : Reply) (s : State) : (hearing i r s).pending = s.pending := by
  obtain ⟨_, _, _, _, e⟩ := hearing_eq i r s; rw [e]

@[simp] theorem hearing_clock (i : Instr) (r : Reply) (s : State) : (hearing i r s).clock = s.clock := by
  obtain ⟨_, _, _, _, e⟩ := hearing_eq i r s; rw [e]

@[simp] theorem hearing_plans (i : Instr) (r : Reply) (s : State) : (hearing i r s).plans = s.plans := by
  obtain ⟨_, _, _, _, e⟩ := hearing_eq i r s; rw [e]

@[simp] theorem hearing_screenings (i : Instr) (r : Reply) (s : State) : (hearing i r s).screenings = s.screenings := by
  obtain ⟨_, _, _, _, e⟩ := hearing_eq i r s; rw [e]

@[simp] theorem hearing_engine (i : Instr) (r : Reply) (s : State) : (hearing i r s).engine = s.engine := by
  obtain ⟨_, _, _, _, e⟩ := hearing_eq i r s; rw [e]

@[simp] theorem hearing_baskets (i : Instr) (r : Reply) (s : State) : (hearing i r s).baskets = s.baskets := by
  obtain ⟨_, _, _, _, e⟩ := hearing_eq i r s; rw [e]

@[simp] theorem hearing_nextBasketRef (i : Instr) (r : Reply) (s : State) : (hearing i r s).nextBasketRef = s.nextBasketRef := by
  obtain ⟨_, _, _, _, e⟩ := hearing_eq i r s; rw [e]

@[simp] theorem hearing_prices (i : Instr) (r : Reply) (s : State) : (hearing i r s).prices = s.prices := by
  obtain ⟨_, _, _, _, e⟩ := hearing_eq i r s; rw [e]

@[simp] theorem hearing_pay (i : Instr) (r : Reply) (s : State) : (hearing i r s).pay = s.pay := by
  obtain ⟨_, _, _, _, e⟩ := hearing_eq i r s; rw [e]

@[simp] theorem hearing_sales (i : Instr) (r : Reply) (s : State) : (hearing i r s).sales = s.sales := by
  obtain ⟨_, _, _, _, e⟩ := hearing_eq i r s; rw [e]

@[simp] theorem hearing_vouchers (i : Instr) (r : Reply) (s : State) : (hearing i r s).vouchers = s.vouchers := by
  obtain ⟨_, _, _, _, e⟩ := hearing_eq i r s; rw [e]

@[simp] theorem hearing_print (i : Instr) (r : Reply) (s : State) : (hearing i r s).print = s.print := by
  obtain ⟨_, _, _, _, e⟩ := hearing_eq i r s; rw [e]

@[simp] theorem hearing_alarms (i : Instr) (r : Reply) (s : State) : (hearing i r s).alarms = s.alarms := by
  obtain ⟨_, _, _, _, e⟩ := hearing_eq i r s; rw [e]

@[simp] theorem hearing_params (i : Instr) (r : Reply) (s : State) : (hearing i r s).params = s.params := by
  obtain ⟨_, _, _, _, e⟩ := hearing_eq i r s; rw [e]

@[simp] theorem hearing_choice (i : Instr) (r : Reply) (s : State) : (hearing i r s).choice = s.choice := by
  obtain ⟨_, _, _, _, e⟩ := hearing_eq i r s; rw [e]

@[simp] theorem hearing_stations (i : Instr) (r : Reply) (s : State) :
    (hearing i r s).ifc.stations = s.ifc.stations := by obtain ⟨_, _, _, _, e⟩ := hearing_eq i r s; rw [e]

@[simp] theorem hearing_concessionOpen (i : Instr) (r : Reply) (s : State) :
    (hearing i r s).ifc.concessionOpen = s.ifc.concessionOpen := by obtain ⟨_, _, _, _, e⟩ := hearing_eq i r s; rw [e]

@[simp] theorem hearing_restart (i : Instr) (r : Reply) (s : State) :
    (hearing i r s).ifc.restart = s.ifc.restart := by obtain ⟨_, _, _, _, e⟩ := hearing_eq i r s; rw [e]

@[simp] theorem hearing_plan (i' : Instr) (r : Reply) (s : State) (n : Nat) :
    (hearing i' r s).plan n = s.plan n := by obtain ⟨_, _, _, _, e⟩ := hearing_eq i' r s; rw [e]; rfl

@[simp] theorem hearing_screening (i' : Instr) (r : Reply) (s : State) (n : Nat) :
    (hearing i' r s).screening n = s.screening n := by obtain ⟨_, _, _, _, e⟩ := hearing_eq i' r s; rw [e]; rfl

@[simp] theorem hearing_basket (i' : Instr) (r : Reply) (s : State) (i : Fin 16) (n : Nat) :
    (hearing i' r s).basket i n = s.basket i n := by obtain ⟨_, _, _, _, e⟩ := hearing_eq i' r s; rw [e]; rfl

@[simp] theorem hearing_sale (i' : Instr) (r : Reply) (s : State) (n : Nat) :
    (hearing i' r s).sale n = s.sale n := by obtain ⟨_, _, _, _, e⟩ := hearing_eq i' r s; rw [e]; rfl

@[simp] theorem hearing_voucher (i' : Instr) (r : Reply) (s : State) (n : Nat) :
    (hearing i' r s).voucher n = s.voucher n := by obtain ⟨_, _, _, _, e⟩ := hearing_eq i' r s; rw [e]; rfl

@[simp] theorem hearing_payLine (i' : Instr) (r : Reply) (s : State) (i : Fin 8) :
    (hearing i' r s).payLine i = s.payLine i := by obtain ⟨_, _, _, _, e⟩ := hearing_eq i' r s; rw [e]; rfl

@[simp] theorem hearing_ticketLine (i' : Instr) (r : Reply) (s : State) (i : Fin 8) :
    (hearing i' r s).ticketLine i = s.ticketLine i := by obtain ⟨_, _, _, _, e⟩ := hearing_eq i' r s; rw [e]; rfl

@[simp] theorem hearing_binding (i' : Instr) (r : Reply) (s : State) (i : Fin 8) :
    (hearing i' r s).binding i = s.binding i := by obtain ⟨_, _, _, _, e⟩ := hearing_eq i' r s; rw [e]; rfl

@[simp] theorem hearing_startOf (i' : Instr) (r : Reply) (s : State) (n : Nat) :
    (hearing i' r s).startOf n = s.startOf n := by obtain ⟨_, _, _, _, e⟩ := hearing_eq i' r s; rw [e]; rfl

@[simp] theorem hearing_windowOpen (i' : Instr) (r : Reply) (s : State) (v : Voucher) :
    (hearing i' r s).windowOpen v = s.windowOpen v := by obtain ⟨_, _, _, _, e⟩ := hearing_eq i' r s; rw [e]; rfl

@[simp] theorem hearing_hasRoom (i' : Instr) (r : Reply) (s : State) (q : Nat) :
    (hearing i' r s).hasRoom q = s.hasRoom q := by obtain ⟨_, _, _, _, e⟩ := hearing_eq i' r s; rw [e]; rfl

@[simp] theorem hearing_offered (i' : Instr) (r : Reply) (s : State) (g : Nat) (k : Fin 8) :
    (hearing i' r s).offered g k = s.offered g k := by obtain ⟨_, _, _, _, e⟩ := hearing_eq i' r s; rw [e]; rfl

@[simp] theorem hearing_tallyOf (i' : Instr) (r : Reply) (s : State) (b : Basket) :
    (hearing i' r s).tallyOf b = s.tallyOf b := by obtain ⟨_, _, _, _, e⟩ := hearing_eq i' r s; rw [e]; rfl

@[simp] theorem hearing_attemptLine (i' : Instr) (r : Reply) (s : State) (b : Basket) :
    (hearing i' r s).attemptLine b = s.attemptLine b := by obtain ⟨_, _, _, _, e⟩ := hearing_eq i' r s; rw [e]; rfl

@[simp] theorem hearing_freePayLine (i' : Instr) (r : Reply) (s : State) (o : Owner) :
    (hearing i' r s).freePayLine o = s.freePayLine o := by obtain ⟨_, _, _, _, e⟩ := hearing_eq i' r s; rw [e]; rfl

@[simp] theorem hearing_atLimit (i' : Instr) (r : Reply) (s : State) (o : Owner) :
    (hearing i' r s).atLimit o = s.atLimit o := by obtain ⟨_, _, _, _, e⟩ := hearing_eq i' r s; rw [e]; rfl

@[simp] theorem hearing_mayResume (i' : Instr) (r : Reply) (s : State) (i : Fin 8) :
    (hearing i' r s).mayResume i = s.mayResume i := by obtain ⟨_, _, _, _, e⟩ := hearing_eq i' r s; rw [e]; rfl

@[simp] theorem hearing_stationBasket (i' : Instr) (r : Reply) (s : State) (i : Fin 8) :
    (hearing i' r s).stationBasket i = s.stationBasket i := by obtain ⟨_, _, _, _, e⟩ := hearing_eq i' r s; rw [e]; rfl

@[simp] theorem hearing_stationsWith (i' : Instr) (r : Reply) (s : State) (p : Binding → Bool) :
    (hearing i' r s).stationsWith p = s.stationsWith p := by obtain ⟨_, _, _, _, e⟩ := hearing_eq i' r s; rw [e]; rfl

@[simp] theorem hearing_bindingTaken (i' : Instr) (r : Reply) (s : State) (i : Fin 8) (b : Binding) :
    (hearing i' r s).bindingTaken i b = s.bindingTaken i b := by obtain ⟨_, _, _, _, e⟩ := hearing_eq i' r s; rw [e]; rfl

@[simp] theorem hearing_owned (i' : Instr) (r : Reply) (s : State) (w : Requester) (b : Byte) (n : BitVec 16) :
    (hearing i' r s).owned w b n = s.owned w b n := by obtain ⟨_, _, _, _, e⟩ := hearing_eq i' r s; rw [e]; rfl

@[simp] theorem hearing_redeemedSum (i' : Instr) (r : Reply) (s : State) (n : Nat) :
    (hearing i' r s).redeemedSum n = s.redeemedSum n := by obtain ⟨_, _, _, _, e⟩ := hearing_eq i' r s; rw [e]; rfl

@[simp] theorem hearing_countVouchers (i' : Instr) (r : Reply) (s : State) (n : Nat) (v : VoucherState) :
    (hearing i' r s).countVouchers n v = s.countVouchers n v := by obtain ⟨_, _, _, _, e⟩ := hearing_eq i' r s; rw [e]; rfl

@[simp] theorem hearing_holdTime (i' : Instr) (r : Reply) (s : State) (o : Owner) :
    (hearing i' r s).holdTime o = s.holdTime o := by obtain ⟨_, _, _, _, e⟩ := hearing_eq i' r s; rw [e]; rfl

@[simp] theorem hearing_mayReprint (i' : Instr) (r : Reply) (s : State) (w : Requester) (n : Nat) :
    (hearing i' r s).mayReprint w n = s.mayReprint w n := by obtain ⟨_, _, _, _, e⟩ := hearing_eq i' r s; rw [e]; rfl

@[simp] theorem hearing_reprintLine (i' : Instr) (r : Reply) (s : State) (w : Requester) (b : Byte) :
    (hearing i' r s).reprintLine w b = s.reprintLine w b := by obtain ⟨_, _, _, _, e⟩ := hearing_eq i' r s; rw [e]; rfl

@[simp] theorem hearing_inTime (i' : Instr) (r : Reply) (s : State) (k : Sale) :
    (hearing i' r s).inTime k = s.inTime k := by obtain ⟨_, _, _, _, e⟩ := hearing_eq i' r s; rw [e]; rfl

@[simp] theorem hearing_doubtOf (i' : Instr) (r : Reply) (s : State) (i : Fin 16) (n : Nat) :
    (hearing i' r s).doubtOf i n = s.doubtOf i n := by obtain ⟨_, _, _, _, e⟩ := hearing_eq i' r s; rw [e]; rfl

@[simp] theorem hearing_liveBaskets (i : Instr) (r : Reply) (s : State) :
    (hearing i r s).liveBaskets = s.liveBaskets := by obtain ⟨_, _, _, _, e⟩ := hearing_eq i r s; rw [e]; rfl

@[simp] theorem hearing_freeRef (i : Instr) (r : Reply) (s : State) :
    (hearing i r s).freeRef = s.freeRef := by obtain ⟨_, _, _, _, e⟩ := hearing_eq i r s; rw [e]; rfl

@[simp] theorem hearing_freePayRef (i : Instr) (r : Reply) (s : State) :
    (hearing i r s).freePayRef = s.freePayRef := by obtain ⟨_, _, _, _, e⟩ := hearing_eq i r s; rw [e]; rfl

@[simp] theorem hearing_freeNumber (i : Instr) (r : Reply) (s : State) :
    (hearing i r s).freeNumber = s.freeNumber := by obtain ⟨_, _, _, _, e⟩ := hearing_eq i r s; rw [e]; rfl

@[simp] theorem hearing_clockBytes (i : Instr) (r : Reply) (s : State) :
    (hearing i r s).clockBytes = s.clockBytes := by obtain ⟨_, _, _, _, e⟩ := hearing_eq i r s; rw [e]; rfl

@[simp] theorem hearing_anyGrant (i : Instr) (r : Reply) (s : State) :
    (hearing i r s).anyGrant = s.anyGrant := by obtain ⟨_, _, _, _, e⟩ := hearing_eq i r s; rw [e]; rfl

@[simp] theorem hearing_clockRuns (i : Instr) (r : Reply) (s : State) :
    (hearing i r s).clockRuns = s.clockRuns := by obtain ⟨_, _, _, _, e⟩ := hearing_eq i r s; rw [e]; rfl

@[simp] theorem hearing_freeElements (i : Instr) (r : Reply) (s : State) :
    (hearing i r s).freeElements = s.freeElements := by obtain ⟨_, _, _, _, e⟩ := hearing_eq i r s; rw [e]; rfl

@[simp] theorem hearing_grantedSum (i : Instr) (r : Reply) (s : State) :
    (hearing i r s).grantedSum = s.grantedSum := by obtain ⟨_, _, _, _, e⟩ := hearing_eq i r s; rw [e]; rfl

-- ## A line's frames

/-- The frames of a line, its receiver, its count and its messages, before alarms latch. -/
structure Sent (l : Line) (fs : List Frame) (s t : State) : Prop where
  sending : (t.line l).sending = (s.line l).sending ++ fs
  receiver : (t.line l).receiver = (s.line l).receiver
  badFrames : (t.line l).badFrames = (s.line l).badFrames
  handedOn : (t.line l).handedOn = (s.line l).handedOn ∨ (t.line l).handedOn = (s.line l).handedOn.tail

theorem Sent.latched {l : Line} {fs : List Frame} {s t : State} (h : Sent l fs s t) :
    Sends l fs s (latchAlarms t) := by
  refine ⟨?_, by simp [h.receiver], by simp [h.badFrames], by simpa using h.handedOn⟩
  by_cases e : l = .ol
  · subst e
    obtain ⟨ns, hn, an⟩ := (latchAlarms_notices t).ol
    exact ⟨ns, by rw [hn, h.sending], an, fun c => absurd rfl c⟩
  · exact ⟨[], by rw [latchAlarms_line_ne t e, h.sending]; simp, by simp, fun _ => rfl⟩

theorem Sent.of_lines {l : Line} {fs : List Frame} {s t u : State} (h : Sent l fs s t)
    (e : u.ifc.lines = t.ifc.lines) : Sent l fs s u := by
  have k : u.line l = t.line l := by simp [State.line, e]
  exact ⟨by rw [k, h.sending], by rw [k, h.receiver], by rw [k, h.badFrames], by rw [k]; exact h.handedOn⟩

theorem Sent.send {l k : Line} {fs : List Frame} {s t : State} (h : Sent l fs s t) (x : Frame) :
    Sent l (fs ++ on k [x] l) s (Sys2Proof.Machine.send k x t) := by
  unfold on
  by_cases e : l = k
  · subst e
    exact ⟨by simp [h.sending], by simp [h.receiver], by simp [h.badFrames], by simpa using h.handedOn⟩
  · rw [if_neg e, List.append_nil]
    have : (Sys2Proof.Machine.send k x t).line l = t.line l := by simp [Ne.symm e]
    exact ⟨by rw [this, h.sending], by rw [this, h.receiver], by rw [this, h.badFrames],
      by rw [this]; exact h.handedOn⟩

theorem sent_refl (l : Line) (s : State) : Sent l [] s s := ⟨by simp, rfl, rfl, .inl rfl⟩

theorem sent_takeMessage (k l : Line) (i : Instr) (s : State) : Sent l [] s (takeMessage k i s) := by
  obtain ⟨h1, h2, h3, h4⟩ := takeMessage_line k l i s
  exact ⟨by simp [h1], h2, h3, h4⟩

theorem sent_hearing (i : Instr) (r : Reply) (s : State) (l : Line) : Sent l [] s (hearing i r s) := by
  obtain ⟨h1, h2, h3, h4⟩ := takeMessage_line r.link.line l i s
  exact ⟨by simp [hearing, h1], by simp [hearing, h2], by simp [hearing, h3], by simpa [hearing] using h4⟩

/-- What a command other than a reset does, seen before the alarms latch. -/
theorem effect_of {bs : List Block} {sent : Line → List Frame} {s u : State}
    (ho : Only (.lines :: .choice :: bs) s u) (hs : ∀ l, Sent l (sent l) s u)
    (ha : u.alarms.latched = s.alarms.latched) : Effect bs sent s (latchAlarms u) :=
  ⟨(ho.mono (fun b h => by simp_all; tauto)).trans ((only_latch u).mono (fun b h => by simp_all; tauto)),
    fun l => (hs l).latched, latches_of ha⟩

/-- A request's run yields its answer: `u` is the state its block leaves, from the state it runs in, sending
nothing and touching no line, and the answer follows. -/
theorem answers_of {i : Instr} {r : Reply} {result : Result} {fields : List Byte} {bs : List Block}
    {s u : State} (hx : exec i s = .next (latchAlarms (answer r result fields u)))
    (ho : Only (.choice :: bs) (hearing i r s) u) (hn : Block.lines ∉ bs) (hl : Block.latched ∉ bs)
    (hp : Block.outstanding ∉ bs) : Answers i r result fields bs s (latchAlarms (answer r result fields u)) := by
  have hlines : u.ifc.lines = (hearing i r s).ifc.lines := ho .lines (by simp [hn])
  have hlatched : u.alarms.latched = (hearing i r s).alarms.latched := ho .latched (by simp [hl])
  refine ⟨hx, effect_of ?_ (fun l => ?_) ?_, ?_⟩
  · rw [only_answer (by simp)]
    exact ((only_hearing i r s).mono (by simp)).trans (ho.mono (by simp; intro b h; simp [h]))
  · exact ((sent_hearing i r s l).of_lines hlines).send _
  · have : (hearing i r s).alarms = s.alarms := by
      obtain ⟨ls, k, c, o, e⟩ := hearing_eq i r s
      rw [e]
    rw [← this, ← hlatched]; rfl
  · have h1 := hearing_outstands i r s
    have h2 : Block.outstanding.same (hearing i r s) u := ho .outstanding (by simp [hp])
    simp only [Outstands, Block.same] at h1 h2 ⊢
    simp only [latchAlarms_kiosk, latchAlarms_concession, latchAlarms_office]
    exact ⟨h2.1.trans h1.1, h2.2.1.trans h1.2.1, h2.2.2.trans h1.2.2⟩

-- ## Steps of the arbiter

/-- The entry the arbiter takes is carried out in the state it leaves the engine in. -/
theorem arbitrate_takes {x : Entry} {e : Engine} {s : State} {run : Entry → Option (State → State)}
    {f : State → State} (h : Takes x e s) (hf : run x = some f) :
    command (arbitrate run) s = .next (latchAlarms (f { s with engine := e })) := by
  obtain ⟨hq, hs, ht⟩ := h
  rw [command_quiet hq]
  simp [arbitrate, hs, ht, hf]

/-- A step of the arbiter whose run leaves `u`, sends nothing, and then answers. -/
theorem carries_of {i : Instr} {e : Engine} {r : Reply} {result : Result} {fields : List Byte}
    {bs : List Block} {s u : State} (hx : exec i s = .next (latchAlarms (answer r result fields u)))
    (ho : Only (.choice :: bs) { s with engine := e } u) (hn : Block.lines ∉ bs) (hl : Block.latched ∉ bs)
    (he : Block.engine ∉ bs) :
    Carries i e bs (on r.link.line [answerFrame r result fields]) s
      (latchAlarms (answer r result fields u)) := by
  have hlines : u.ifc.lines = s.ifc.lines := ho .lines (by simp [hn])
  have hlatched : u.alarms.latched = s.alarms.latched := ho .latched (by simp [hl])
  have hengine : u.engine = e := ho .engine (by simp [he])
  refine ⟨hx, effect_of ?_ (fun l => ?_) ?_, ?_⟩
  · rw [only_answer (by simp)]
    exact ((only_engine (t := s) (x := e) (by simp)).2 (Only.refl _ s)).trans
      (ho.mono (by simp; intro b h; simp [h]))
  · exact ((sent_refl l s).of_lines hlines).send _
  · rw [← hlatched]; rfl
  · rw [latchAlarms_engine, ← hengine]; rfl

end Sys2Proof.Machine
end

