-- ==== Sys2Proof/Laws/Text.lean ====
section
/-! SUPPORT. What a printed line can be: the parts that section 12.5 gives, in their order, with free characters
before, between and after them, and within its length. -/

namespace Sys2Proof.Machine

theorem freeChars_length (form place : Nat) (figures : List Nat) (room : Nat) :
    (freeChars form place figures room).length ≤ room := by
  simp [freeChars]

/-- The free characters of a line keep within the room left to them. -/
theorem weave_length (form : Nat) (figures : List Nat) (place room : Nat) (parts : List (List Byte)) :
    (weave form figures place room parts).length ≤ room + (parts.map List.length).sum := by
  induction parts generalizing place room with
  | nil => exact freeChars_length form place figures room
  | cons p ps ih =>
    have h := freeChars_length form place figures room
    have k := ih (place + 1) (room - (freeChars form place figures room).length)
    simp only [weave, List.length_append, List.map_cons, List.sum_cons]
    omega

/-- A line whose parts fit has at most 25 characters (log entry 6). -/
theorem lineChars_length (form : Nat) (figures : List Nat) (parts : List (List Byte))
    (h : (parts.map List.length).sum ≤ 25) : (lineChars form figures parts).length ≤ 25 := by
  have k := weave_length form figures 0 (25 - (parts.map List.length).sum) parts
  unfold lineChars
  omega

theorem numberChars_length (fuel n : Nat) : (numberChars fuel n).length ≤ fuel := by
  induction fuel generalizing n with
  | zero => simp [numberChars]
  | succ fuel ih =>
    have := ih (n / 10)
    simp only [numberChars, List.length_append, List.length_singleton]
    split
    · simp
    · omega

/-- A line of three parts shows them in their order, whatever stands beside them. -/
theorem lineChars_three (form : Nat) (figures : List Nat) (p q r : List Byte) :
    ∃ a b c d, lineChars form figures [p, q, r] = a ++ p ++ b ++ q ++ c ++ r ++ d :=
  ⟨_, _, _, _, by simp only [lineChars, weave, List.append_assoc]; rfl⟩

/-- Section 12.5: a ticket's second line shows the hours, the minutes and the class. -/
theorem start_chars (minute : Nat) (cls : Class) : ∃ a b c d, (TextLine.start minute cls).chars
    = a ++ numberChars 2 (minute / 60) ++ b ++ numberChars 2 (minute % 60) ++ c ++ classChars cls ++ d :=
  lineChars_three ..

/-- Section 12.5: a ticket's third line shows the row letter, the position and the ticket type. -/
theorem seat_chars (row pos : Nat) (type : TicketType) : ∃ a b c d, (TextLine.seat row pos type).chars
    = a ++ rowChars row ++ b ++ numberChars 2 pos ++ c ++ typeChars type ++ d :=
  lineChars_three ..

/-- The lines with a name, a class or a ticket type keep within 25 characters too. -/
theorem start_length (minute : Nat) (cls : Class) : (TextLine.start minute cls).chars.length ≤ 25 := by
  have h := numberChars_length 2 (minute / 60)
  have k := numberChars_length 2 (minute % 60)
  exact lineChars_length _ _ _ (by cases cls <;> simp [classChars] <;> omega)

theorem seat_length (row pos : Nat) (type : TicketType) : (TextLine.seat row pos type).chars.length ≤ 25 := by
  have h := numberChars_length 2 pos
  exact lineChars_length _ _ _ (by cases type <;> simp [rowChars, typeChars] <;> omega)

end Sys2Proof.Machine
end

