-- ==== Sys2Proof/Tests/Slice0.lean ====
section
/-! SUPPORT. Tests: the well-formedness smoke tests, one step of the manual's worked examples and tables each
(the example is named in the comment; its figures are the manual's), and, for each statement of
Certificates/Slice0/Obligations.lean that has hypotheses, a state and operands that meet them, clause by clause
in the statement's order (the `hyps` theorems). -/

namespace Sys2Proof.Tests

open Sys2Proof Sys2Proof.Machine

set_option Elab.async false

-- ## Helpers

/-- The state after one command. -/
def ran (i : Instr) (s : State) : State :=
  match exec i s with
  | .next t => t
  | _ => s

/-- The bodies of the frames waiting on a line. -/
def sent (l : Line) (s : State) : List (List Byte) := (s.line l).sending.map Frame.body

/-- An office reply. -/
def rep (kind : Byte) : Reply := ⟨.office, 1, kind⟩
/-- A reply on KL2. -/
def krep (kind : Byte) : Reply := ⟨.kiosk 2, 1, kind⟩
/-- A reply on CL0. -/
def crep (kind : Byte) : Reply := ⟨.concession 0, 1, kind⟩

/-- A normal seat cell of a zone. -/
def nc (z : Zone) : Cell := .seat .normal z false

/-- A small plan: a wheelchair space with its companion seat, two seats; then a GAP and three seats. -/
def rows2 : List (List Cell) :=
  [[.seat .wheelchair .a false, .seat .companionSeat .a true, nc .a, nc .a], [.gap, nc .b, nc .b, nc .b]]

/-- Its header: orphan rule off, kiosks may sell wheelchair spaces. -/
def head2 : PlanHeader := ⟨[0x53], 2, 4, 1, 5, false, true⟩

/-- A price set: the figures of the family example of chapter 5 in zone B and kind 2. -/
def priceSet : PriceSet :=
  ⟨⟨[1250, 850, 950, 1250, 850, 950, 1250, 850, 950, 1250, 850, 950], rfl⟩, ⟨⟨[0, 250, 300], rfl⟩, 15⟩,
    Tab.replicate 8 ⟨790, 650, true⟩, ⟨4, 10, 70⟩⟩

/-- Screening 7 on the small plan, 3D matinee at minute 960, ON_SALE. -/
def scr : Screening :=
  ⟨7, 1, 960, .threeD, true, 15, true, .onSale, ⟨7, 0, 0, 0⟩, freshGrid rows2⟩

/-- A part in use: the small plan in slot 1, screening 7, generation 1 ACTIVE, 50 of every kind in stock, the
clock SET, station 1 open on KL2, PL3 and TL1, CL0 open. -/
def house : State :=
  { State.reset with
    clock := { Clock.reset with value := 50000, isSet := true, day := 214 }
    plans := State.reset.plans.set 0 (.ready head2 rows2)
    screenings := [scr]
    prices := { PriceBook.reset with active := some ⟨priceSet, 1, 1⟩, nextGeneration := 2 }
    vouchers := { VoucherTable.reset with stock := Tab.replicate 8 ⟨50, 47, 2, 1, 0, 3⟩ }
    ifc := { Interface.reset with
      stations := Interface.reset.stations.set 0 ⟨some ⟨2, 3, 1⟩, .opened⟩
      concessionOpen := Interface.reset.concessionOpen.set 0 true } }

/-- A basket of station 1 on screening 7, ref 5. -/
def bk (state : BasketState) : Basket :=
  ⟨5, .station 0, 7, [⟨2, 2, .adult, none⟩], [⟨1, 2⟩], 1, none, state, none, .running 240, false, false, 0,
    false, none, none⟩

/-- The tally of that basket. -/
def tly : Tally := computeTally 1 priceSet rows2 .threeD true (bk .opened).lines (bk .opened).vouchers

/-- The house with basket `b` in slot 0 and its seat held. -/
def shop (b : Basket) : State :=
  { (house.putBasket 0 b) with screenings := [scr.withSeats (Grid.put scr.seats (2, 2) (.held 0 5))] }

/-- A tallied basket of station 1. -/
def tallied : Basket := { bk .tallied with tally := some tly }

/-- A paying basket of station 1, attempt 9. -/
def paying : Basket :=
  { bk .paying with
    tally := some tly, hold := .suspended 150, attempts := 1, reserved := true, payRef := some 9 }

/-- The shop with a pay line 3 as given, for the paying basket. -/
def atTill (b : Basket) (x : PayLine) : State := (shop b).withPayLine 3 x

/-- The record of attempt 9. -/
def att (st : PayState) : PayRecord := ⟨9, 0, 5, tly.total, st, .none, none, none⟩

/-- The till in the middle of attempt 9, its wait at `n`. -/
def trying (st : PayState) (k : ExchangeKind) (n : Nat) : State :=
  atTill paying ⟨some ⟨k, 9, n⟩, [att st], [], 0⟩

/-- A field of an amount. -/
def money (n : Nat) : BitVec 32 := BitVec.ofNat 32 (n / 1000 * 4096 + n / 100 % 10 * 256 + n / 10 % 10 * 16 + n % 10)

/-- Six characters of an approval code. -/
def code6 : List Byte := [0x4B, 0x34, 0x51, 0x37, 0x5A, 0x32]

/-- Sale 40 of screening 7: one ticket, COMMITTED. -/
def sale40 : Sale :=
  ⟨40, 7, .office, 1, [⟨2, 2, .adult, 1312, .unprinted, 0⟩], [⟨2140000575, 1, 650⟩], 1312, 0, 650, 1962, 128,
    none, .committed, none, false⟩

/-- Its voucher, by the worked code of section 8.2. -/
def vou (st : VoucherState) : Voucher := ⟨2140000575, 1, 40, 7, 650, st, none⟩

/-- The field of that code. -/
def vcode : BitVec 40 := 0x2140000575

/-- The house with sale 40 and its voucher. -/
def sold (k : Sale) (v : VoucherState) : State :=
  { house with
    screenings := [scr.withSeats (Grid.put scr.seats (2, 2) (.sold 40 0))]
    sales := { SaleTable.reset with records := [k] }
    vouchers := { house.vouchers with records := [vou v] } }

/-- The house with ticket line 1 as given. -/
def press (l : TicketLine) : State := house.withTicketLine 1 l

/-- A job of sale 40 with two elements to go, its first sent or not. -/
def job (started : Bool) : Job := ⟨40, .office, 0, 2, false, started⟩

/-- The two elements of that job, in the pool. -/
def pool2 : Tab (Option Element) 256 :=
  ((Tab.replicate 256 none).set 0 (some ⟨.ticket, 40, 0, some 1, false, .waiting, []⟩)).set 1
    (some ⟨.receipt, 40, 0, none, true, .waiting, []⟩)

/-- A ticket line in a state, with jobs. -/
def tline (st : TicketLineState) (jobs : List Job) : TicketLine :=
  { TicketLine.reset with state := st, queue := jobs }

/-- Ticket line 1 in a state with jobs, and the pool that holds their elements. -/
def pressing (l : TicketLine) : State := { press l with print := { (press l).print with pool := pool2 } }

/-- Ticket line 1 as given, and line 2 that waits for power with a job of one element, the budget holding one line. -/
def rivals (l : TicketLine) : State :=
  let s := (pressing l).withTicketLine 2 (tline .waitPower [⟨40, .office, 2, 1, false, false⟩])
  { s with
    params := { s.params with budget := 20 }
    print := { s.print with
      pool := pool2.set 2 (some ⟨.receipt, 40, 0, none, true, .waiting, []⟩)
      order := if l.state = .waitPower then [1, 2] else [2] } }

/-- A state with so many entries of sale 40 on the waiting list, for line 1. -/
def lined (n : Nat) (s : State) : State :=
  { s with print := { s.print with waiting := List.replicate n ⟨40, 1, .office, .reprint [0], 1⟩ } }

-- ## Well-formedness: one ill-formed term for each check

theorem test_plan_name_needs_sixteen_bytes :
    Instr.wellFormed (.loadPlan .office 1 ⟨1, List.replicate 15 0x41, 1, 1, 1, 2, 0, 0⟩) = false := by decide
theorem test_row_has_at_most_forty_cells :
    Instr.wellFormed (.planRow .office 1 1 1 (List.replicate 41 1)) = false := by decide
theorem test_hold_lists_at_most_ten :
    Instr.wellFormed (.seatRequestJoin .office 1 (.holdSeats 0 1 (List.replicate 11 ⟨⟨1, 1⟩, 1⟩) 0)) = false := by
  decide
theorem test_best_lists_at_most_ten :
    Instr.wellFormed (.seatRequestJoin .office 1 (.holdBest 0 1 1 5 (List.replicate 11 1) 0)) = false := by decide
theorem test_release_lists_at_most_ten :
    Instr.wellFormed (.seatRequestJoin .office 1 (.releaseSeats 0 1 (List.replicate 11 ⟨1, 1⟩))) = false := by
  decide
theorem test_block_lists_at_most_forty :
    Instr.wellFormed (.seatRequestJoin .office 1 (.blockSeats 7 (List.replicate 41 ⟨1, 1⟩))) = false := by decide
theorem test_unblock_lists_at_most_forty :
    Instr.wellFormed (.seatRequestJoin .office 1 (.unblockSeats 7 (List.replicate 41 ⟨1, 1⟩))) = false := by
  decide
theorem test_approval_has_six_characters : Instr.wellFormed (.approved 0 1 [1, 2, 3, 4, 5] 0) = false := by decide
theorem test_stray_body_has_two_bytes : Instr.wellFormed (.strayMessage 0 [1]) = false := by decide
theorem test_stray_body_has_at_most_250 :
    Instr.wellFormed (.strayMessage 0 (List.replicate 251 1)) = false := by decide +kernel
theorem test_tickets_part_has_48_bytes :
    Instr.wellFormed (.stagePrices .office 1 1 (List.replicate 47 0)) = false := by decide
theorem test_unknown_part_is_ill_formed : Instr.wellFormed (.stagePrices .office 1 5 []) = false := by decide
theorem test_resolve_has_six_characters : Instr.wellFormed (.resolve .office 1 0 1 1 [1]) = false := by decide
theorem test_restore_has_at_most_ten_tickets :
    Instr.wellFormed (.restoreSale .office 1 ⟨1, 7, 1, 1, List.replicate 11 ⟨⟨1, 1⟩, 1, 0, 1, 0⟩, [], 0, 0, 0, 0,
      0, 0, 0, 0, code6⟩) = false := by decide
theorem test_restore_has_at_most_eight_vouchers :
    Instr.wellFormed (.restoreSale .office 1 ⟨1, 7, 1, 1, [], List.replicate 9 ⟨0, 1, 0, 1, 0, 0⟩, 0, 0, 0, 0, 0,
      0, 0, 0, code6⟩) = false := by decide
theorem test_well_formed_plan_header :
    Instr.wellFormed (.loadPlan .office 1 ⟨1, List.replicate 16 0x41, 1, 1, 1, 2, 0, 0⟩) = true := by decide

-- ## Frames and bodies (sections 10.2, 12.1 to 12.3)

/-- The usual check value of this CRC (polynomial 0x1021, initial value all ones): of "123456789". -/
theorem test_crc_check_value :
    crc16 [0x31, 0x32, 0x33, 0x34, 0x35, 0x36, 0x37, 0x38, 0x39] = 0x29B1 := by decide +kernel
theorem test_length_byte_below_two_is_bad : frameStatus [1] = .bad := by decide
theorem test_length_byte_above_250_is_bad : frameStatus [251] = .bad := by decide
theorem test_set_time_body :
    decodeBody .ol [0x0B, 5, 0x01, 0x1C, 0xC2] = some (.setTime .office 5 72898) := by decide +kernel
theorem test_hold_seats_body :
    decodeBody (.kl 2) [0x10, 9, 3, 0x12, 0x34, 2, 7, 11, 1, 7, 12, 2, 0]
      = some (.seatRequestJoin (.kiosk 2) 9 (.holdSeats 3 0x1234 [⟨⟨7, 11⟩, 1⟩, ⟨⟨7, 12⟩, 2⟩] 0)) := by decide
theorem test_redeem_body :
    decodeBody (.cl 1) [0x34, 2, 0x21, 0x40, 0x00, 0x05, 0x75] = some (.redeem (.concession 1) 2 vcode) := by decide
theorem test_approved_body :
    decodeBody (.pl 3) [0x5A, 0, 1, 0xF5, 0x4B, 0x34, 0x51, 0x37, 0x5A, 0x32, 0, 0, 0x75, 0x78]
      = some (.approved 3 501 code6 0x7578) := by decide
theorem test_element_done_body : decodeBody (.tl 1) [0x5E, 0, 200, 1] = some (.elementDone 1 200 1) := by decide
theorem test_wrong_length_is_unrecognised :
    decodeBody .ol [0x0B, 5, 0x01] = some (.unrecognisedRequest .office 5 0x0B) := by decide
/-- R162, check 1: a kiosk link of no station is NOT_READY, 0x28, with the kind plus 0x80. -/
theorem test_unbound_kiosk_is_not_ready :
    sent (.kl 0) (ran (.extend (.kiosk 0) 4 0 5) house) = [[0x9D, 4, 0x28]] := by decide +kernel
/-- R162, check 4: a kiosk's LOAD_PLAN is NOT_ALLOWED, 0x16. -/
theorem test_kiosk_may_not_set_time :
    sent (.kl 2) (ran (.setTime (.kiosk 2) 4 60) house) = [[0x8B, 4, 0x16]] := by decide +kernel

-- ## Chapter 1: loading Screen 9

/-- The cell byte of a kind and zone (section 12.2). -/
def cb (kind zone aisle : Nat) : Byte := BitVec.ofNat 8 (kind + 4 * zone + 16 * aisle)

/-- Row D of plan 9. -/
def rowD (last : Nat) : List Byte :=
  [cb 2 0 0, cb 3 0 1, cb 1 0 0, cb 1 0 0, cb 1 0 0, cb 1 0 0, cb 1 0 0, cb 1 0 1, cb 3 0 0, cb 2 0 last]

/-- Plan 9 with rows A to C loaded, 28 seats. -/
def plan9 : State :=
  { State.reset with plans := State.reset.plans.set 8 (.loading ⟨[0x53], 4, 10, 3, 11, true, false⟩
      [[.gap], [.gap], [.gap]] 4 28) }

theorem test_plan9_row_out_of_turn :
    sent .ol (ran (.planRow .office 6 9 3 (rowD 0)) plan9) = [[0x82, 6, 0x12]] := by decide +kernel
theorem test_plan9_aisle_right_on_last_position :
    sent .ol (ran (.planRow .office 6 9 4 (rowD 1)) plan9) = [[0x82, 6, 0x10]] := by decide +kernel
theorem test_plan9_last_row_makes_it_ready :
    sent .ol (ran (.planRow .office 6 9 4 (rowD 0)) plan9) = [[0x82, 6, 0x01]]
      ∧ ((ran (.planRow .office 6 9 4 (rowD 0)) plan9).plan 9).isSome = true := by decide +kernel
/-- The blocks of row D: 1–2, 3–8, 9–10. -/
theorem test_plan9_row_d_blocks :
    (readAll readCell (rowD 0)).map (fun c => rowBlocks (c.map CellFields.cell))
      = some [[1, 2], [3, 4, 5, 6, 7, 8], [9, 10]] := by decide +kernel
/-- Screening 4107 starts at 1,200 with a late window of 15: no check before 72,900 closes it. -/
theorem test_screening_closes_at_its_close_time :
    (ran .clockSecond { house with
        screenings := [{ scr with start := 1200 }]
        clock := { house.clock with value := 72899 } }).screenings.map (·.state) = [.closed]
    ∧ (ran .clockSecond { house with
        screenings := [{ scr with start := 1200 }]
        clock := { house.clock with value := 72839 } }).screenings.map (·.state) = [.onSale] := by decide +kernel

-- ## Chapter 2: a pulse stream in TRACK

/-- The clock at a reading, in a mode, with W = 250. -/
def reading (m : SyncMode) (v f : Nat) : State :=
  { house with clock := { house.clock with value := v, fraction := f, sync := m, noPulse := .running 90 } }
/-- What the example's table shows after a pulse. -/
def shown (s : State) : Nat × Nat × Option Int × SyncMode :=
  (s.clock.value, s.clock.fraction, s.clock.deviation, s.clock.sync)

theorem test_pulse_1_aligns_forward :
    shown (ran .minutePulse (reading .track 43259 870)) = (43260, 0, some (-130), .track) := by decide +kernel
theorem test_pulse_2_aligns_back :
    shown (ran .minutePulse (reading .track 43320 90)) = (43320, 0, some 90, .track) := by decide +kernel
theorem test_pulse_3_is_outside_the_window :
    shown (ran .minutePulse (reading .track 43380 410)) = (43380, 410, some 410, .track)
      ∧ (ran .minutePulse (reading .track 43380 410)).alarms.latched.get 0 = true := by decide +kernel
theorem test_pulse_5_in_once :
    shown (ran .minutePulse (reading .once 43500 402)) = (43500, 0, some 402, .watch) := by decide +kernel
theorem test_pulse_6_in_watch :
    shown (ran .minutePulse (reading .watch 43559 980)) = (43559, 980, some (-20), .watch) := by decide +kernel
/-- R25: 30,000 ms past a minute counts back from the next. -/
theorem test_pulse_halfway : shown (ran .minutePulse (reading .watch 43590 0)) = (43590, 0, some (-30000), .watch) := by
  decide +kernel
/-- The forward step of the second example sends one SCREENING_CLOSED and the answer with both readings. -/
theorem test_step_to_73000 :
    (sent .ol (ran (.setTime .office 6 73000) { house with
        screenings := [{ scr with start := 1200 }]
        clock := { house.clock with value := 71950 } })).length = 2 := by decide +kernel

-- ## Chapter 3: three seats in screening 5120; the office at HIGH

/-- The states of rows F to H of the example. -/
def grid5120 : Grid :=
  List.replicate 5 (List.replicate 20 (some (.sold 1 0))) ++ [List.replicate 20 (some .free),
    List.replicate 9 (some .free) ++ List.replicate 2 (some (.sold 1 0)) ++ List.replicate 9 (some .free),
    List.replicate 8 (some .free) ++ List.replicate 4 (some (.held 1 1)) ++ List.replicate 8 (some .free)]
/-- The rows of plan 6 to H, aisle-right on 4 and 16. -/
def rows6 : List (List Cell) :=
  List.replicate 8 ((List.range 20).map (fun i => .seat .normal .b (i == 3 || i == 15)))
/-- Its header. -/
def head6 : PlanHeader := ⟨[], 12, 20, 7, 21, true, false⟩

/-- Row G yields G5, G7, G12 and G14; row H none. -/
theorem test_candidates_of_5120 :
    (candidates rows6 grid5120 none true 3).filter (fun c => c.1 ≠ 6) = [(7, 5), (7, 7), (7, 12), (7, 14)] := by
  decide +kernel
theorem test_scores_of_5120 :
    score head6 3 (7, 5) = 9 ∧ score head6 3 (7, 7) = 5 ∧ score head6 3 (7, 12) = 5 ∧ score head6 3 (7, 14) = 9
      ∧ score head6 3 (6, 9) = 5 ∧ score head6 3 (6, 10) = 5 := by decide
theorem test_longest_run_of_5120 : longestRun rows6 grid5120 none = 12 := by decide +kernel

/-- The example's queue, each entry by its requester. -/
def rushQueue : List Entry :=
  [.request (.station 0) (rep 0x10) (.queryMap 1 1 1), .request (.station 4) (rep 0x14) (.queryMap 2 1 1),
    .request .office (rep 0x11) (.queryMap 3 1 1), .request (.station 2) (rep 0x10) (.queryMap 4 1 1),
    .request .office (rep 0x15) (.queryMap 5 1 1)]
/-- Who is taken, and the pointers after. -/
def taken (q : List Entry) (high low : Fin 9) : Option (Option (Fin 9) × Fin 9 × Fin 9) :=
  (Engine.take { Engine.reset with queue := q, highPointer := high, lowPointer := low }).map
    (fun x => (x.1.requester, x.2.highPointer, x.2.lowPointer))

theorem test_rush_choice_1 : taken rushQueue 8 0 = some (some 8, 8, 0) := by decide +kernel
theorem test_rush_choice_3 : taken [rushQueue[0], rushQueue[1], rushQueue[3]] 8 0 = some (some 2, 8, 2) := by
  decide +kernel
theorem test_rush_choice_4 : taken [rushQueue[0], rushQueue[1]] 8 2 = some (some 4, 8, 4) := by decide +kernel
theorem test_rush_choice_5 : taken [rushQueue[0]] 8 4 = some (some 0, 8, 0) := by decide +kernel

-- ## Chapters 4 to 6

/-- EXTEND at 40 s gives 160 and clears the warning (the basket example, time 200). -/
theorem test_extend_40 :
    ((ran (.extend (.kiosk 2) 1 0 5)
        (shop { tallied with hold := .running 40, warningSent := true })).baskets.get 0).map
      (fun b => (b.hold, b.extensionUsed, b.warningSent)) = some (.running 160, true, false) := by decide +kernel
/-- The tick that brings the countdown to 45 sends HOLD_WARNING. -/
theorem test_warning_at_45 :
    ((sent (.kl 2) (ran .secondTick (shop { tallied with hold := .running 46 }))).map (fun b => b.take 2)
      = [[0xE2, 0]]) := by decide +kernel

/-- The family's tally: lines, total 7,578 and tax 496. -/
theorem test_family_tally :
    let t := computeTally 1 priceSet [[nc .b, nc .b, nc .b, nc .b]] .threeD true
      [⟨1, 1, .adult, none⟩, ⟨1, 2, .adult, none⟩, ⟨1, 3, .child, none⟩, ⟨1, 4, .senior, none⟩] [⟨1, 5⟩]
    t.prices = [1312, 1312, 972, 1057] ∧ t.subtotal = 4653 ∧ t.discount = 465 ∧ t.voucherTotal = 3390
      ∧ t.total = 7578 ∧ t.tax = 496 := by decide +kernel

/-- APPROVED 501 after the timeout stores its code in the queued reversal (section 6.8, time 94). -/
theorem test_late_approval_gives_the_reversal_its_code :
    ((ran (.approved 3 9 code6 (money tly.total)) (atTill { paying with state := .reversing }
        ⟨some ⟨.reversal, 9, 7⟩, [att .timedOut], [⟨9, tly.total, none, 0, some (0, 5)⟩], 0⟩)).payLine 3).queue.map
      (fun q => (q.payRef, q.code, q.basket)) = [(9, some code6, some (0, 5))] := by decide +kernel
/-- A confirmed reversal returns the basket to TALLIED with its countdown running (time 104). -/
theorem test_confirmed_reversal_returns_the_basket :
    ((ran (.reversed 3 9) (atTill { paying with state := .reversing }
        ⟨some ⟨.reversal, 9, 7⟩, [att .timedOut], [⟨9, tly.total, none, 1, some (0, 5)⟩], 0⟩)).baskets.get 0).map
      (fun b => (b.state, b.hold, b.reserved)) = some (.tallied, .running 150, false) := by decide +kernel

-- ## Chapters 7 and 8

/-- The worked codes of section 8.2. -/
theorem test_worked_codes :
    formCode 214 57 = 2140000575 ∧ formCode 214 58 = 2140000582 ∧ formCode 7 123456 = 71234564 := by decide
/-- A code whose check digit does not agree is BAD_CODE, 0x29. -/
theorem test_bad_code :
    sent (.cl 0) (ran (.redeem (.concession 0) 1 0x2140000576) (sold sale40 .issued)) = [[0xB4, 1, 0x29]] := by
  decide +kernel
/-- The window of a screening at minute 960 opens at minute 870, clock 52,200: TOO_EARLY before. -/
theorem test_redeem_too_early :
    (sent (.cl 0) (ran (.redeem (.concession 0) 1 vcode) { sold sale40 .issued with
        clock := { house.clock with value := 52199 } })).map (fun b => b.take 3) = [[0xB4, 1, 0x24]]
    ∧ (sent (.cl 0) (ran (.redeem (.concession 0) 1 vcode) { sold sale40 .issued with
        clock := { house.clock with value := 52200 } })).map (fun b => b.take 3) = [[0xB4, 1, 0x00]] := by
  decide +kernel
/-- Kind 4 of the stock example. -/
def kind4 (k : Stock) : State :=
  { house with vouchers := { house.vouchers with stock := house.vouchers.stock.set 3 k } }
theorem test_kind4_is_trimmed_to_188 :
    (ran (.setStock .office 1 4 150 0 0) (kind4 ⟨200, 12, 6, 140, 42, 20⟩)).vouchers.stock.get 3
      = ⟨188, 0, 6, 140, 42, 20⟩ := by decide +kernel
theorem test_kind4_is_restocked_to_250 :
    (ran (.setStock .office 1 4 250 1 25) (kind4 ⟨188, 30, 6, 110, 42, 20⟩)).vouchers.stock.get 3
      = ⟨250, 92, 6, 110, 42, 25⟩ := by decide +kernel
theorem test_kind4_taken_cleared :
    (ran (.clearTaken .office 1 4) (kind4 ⟨250, 92, 6, 110, 42, 25⟩)).vouchers.stock.get 3
      = ⟨208, 92, 6, 110, 0, 25⟩ := by decide +kernel
/-- Sale 1,207's quote: total less the two redeemed at 650, here 1,962 − 650. -/
theorem test_quote_leaves_out_redeemed :
    ((ran (.refundQuote .office 1 40) { sold sale40 .redeemed with
      clock := { house.clock with value := 55000 } }).sale 40).bind (·.quote) = some ⟨1312, 120, none⟩ := by
  decide +kernel

-- ## Chapters 9 to 11

/-- RESUME with a filled capture is WRONG_STATE, 0x12 (section 9.10). -/
theorem test_resume_with_filled_capture :
    (sent .ol (ran (.resume .office 1 0x21) (press { tline .stopped [] with
      cause := some .jam, capture := some ⟨.jam, none⟩ }))).head? = some [0xC0, 1, 0x12] := by decide +kernel
/-- CLEAR of an OVERCURRENT stop turns the line OFF. -/
theorem test_clear_overcurrent :
    ((ran (.clear .office 1 0x21) (press { tline .stopped [] with
      cause := some .overcurrent, capture := some ⟨.overcurrent, none⟩ })).ticketLine 1) = TicketLine.reset := by
  decide +kernel
/-- A station that is CLOSING cannot be bound (section 10.8). -/
theorem test_bind_while_closing :
    sent .ol (ran (.bindStation .office 1 1 2 0x16 0x21) { house with ifc := { house.ifc with
      stations := house.ifc.stations.set 0 ⟨some ⟨2, 3, 1⟩, .closing⟩ } }) = [[0xC4, 1, 0x12]] := by decide +kernel
/-- The jitter window clamps 3,000 to 2,000 and answers both values. -/
theorem test_jitter_window_is_clamped :
    sent .ol (ran (.setParam .office 1 15 0xFF 1 3000) { house with params := { house.params with
      jitterWindow := 500 } }) = [[0xCF, 1, 0x00, 0x01, 0xF4, 0x07, 0xD0]] := by decide +kernel
/-- ACK_ALARMS of a JITTER whose condition holds, disabled: it latches again with no notice. -/
theorem test_ack_latches_again :
    let s := { reading .track 43380 410 with
      clock := { (reading .track 43380 410).clock with deviation := some 410 }
      alarms := ⟨(Tab.replicate 10 false).set 0 true, (Tab.replicate 10 true).set 0 false⟩ }
    (ran (.ackAlarms .office 1 1) s).alarms.latched.get 0 = true
      ∧ (sent .ol (ran (.ackAlarms .office 1 1) s)).length = 1 := by decide +kernel
/-- R170: RESET_PIN is answered by a START_NOTICE of cause 2. -/
theorem test_reset_pin_notice : sent .ol (ran .resetPin house) = [[0xE0, 0, 2]] := by decide +kernel

-- ## Hypotheses met: the step, resets, the laws

theorem hyps_EveryStepCompletes : State.reset.pending = [] := by decide
theorem hyps_ResetCommandsLeaveReset :
    ({ house with ifc := { house.ifc with restart := .due } }).ifc.restart = .due ∧ house.ifc.restart ≠ .due := by
  decide
theorem hyps_RestartWaitsForItsAnswer :
    Heard (.restart .office 1) .office (rep 0x4C) house
      ∧ (house.quiet = true ∧ ((send .ol ⟨[0xCC, 1, 0], true⟩ house).line .ol).sending = ⟨[0xCC, 1, 0], true⟩ :: []
        ∧ (send .ol ⟨[0xCC, 1, 0], true⟩ house).quiet = true)
      ∧ house.quiet = true ∧ (house.line (.kl 7)).sending = [] := by
  unfold Heard; decide +kernel
/-- The laws' premises: each law holds of the reset state, and a step there answers a next state. -/
theorem hyps_laws :
    ClockLaw State.reset ∧ AlarmLaw State.reset ∧ StockLaw State.reset ∧ PowerLaw State.reset
      ∧ ParamsLaw State.reset ∧ CapacityLaw State.reset := by
  unfold ClockLaw AlarmLaw StockLaw PowerLaw ParamsLaw CapacityLaw within; decide +kernel
theorem hyps_SeatLawKept : SeatLaw State.reset :=
  ⟨by decide, fun c h => absurd h (List.not_mem_nil)⟩
theorem hyps_RefLawKept : RefLaw State.reset := by
  have none_live : ∀ i, State.reset.baskets.get i = none := by decide +kernel
  exact ⟨⟨by decide, by decide⟩, fun i b h => by simp [none_live] at h, fun i j b c h => by simp [none_live] at h⟩
theorem hyps_MapLawKept : MapLaw State.reset := by
  have unbound : ∀ i, State.reset.binding i = none := by decide +kernel
  exact ⟨by decide +kernel, fun i j b c _ h => by simp [unbound] at h, by decide +kernel⟩
/-- A bank in use, a job in the queue and an attempt in flight: the laws of the banks, the pool and the pay lines. -/
theorem hyps_BanksPoolAndPayLinesKept :
    BankLaw (shop (bk .opened)) ∧ PoolLaw (pressing (tline .printing [job true]))
      ∧ PayLaw (trying .sent .authorization 5) := by
  unfold BankLaw PoolLaw PayLaw; decide +kernel
/-- The books' premises at reset, where no record stands. -/
theorem hyps_BooksLawKept : BooksLaw State.reset := by
  have live : State.reset.liveBaskets = [] := by decide +kernel
  have owed : State.reset.owed = [] := by decide +kernel
  have pay : ∀ i, State.reset.payLine i = ⟨none, [], [], 0⟩ := by decide +kernel
  refine ⟨?_, ⟨?_, ?_, ?_, ?_, ?_⟩, ⟨?_, ?_⟩, ⟨?_, ?_, ?_⟩, ?_, ?_, ⟨?_, ?_, ?_, ?_, ?_, ?_, ?_⟩, ⟨?_, ?_, ?_, ?_⟩, ?_⟩
  · intro b h; rw [live] at h; cases h
  · intro e h; cases h
  · decide
  · decide
  · decide
  · intro c h; cases h
  · decide
  · intro k h; cases h
  · decide
  · intro v h; cases h
  · rw [live]; decide +kernel
  · unfold ReservationLaw; simp only [live]; decide +kernel
  · unfold PayLaw; decide +kernel
  · simp only [pay]; decide
  · intro i r h; simp [pay] at h
  · intro b h; rw [live] at h; cases h
  · intro i r h; simp [pay] at h
  · simp only [pay]; decide
  · decide +kernel
  · intro d h; cases h
  · rw [owed]; decide +kernel
  · rw [owed]; decide +kernel
  · decide
  · rw [owed]; decide +kernel
  · unfold CapacityLaw; decide +kernel
theorem hyps_SeatBookLawKept : SeatBookLaw State.reset := by
  refine ⟨by decide, fun b h => ?_, fun c h => absurd h List.not_mem_nil⟩
  have live : State.reset.liveBaskets = [] := by decide +kernel
  rw [live] at h; cases h
theorem hyps_laws_step :
    (match step { State.reset with pending := [.secondTick] } with
      | .next _ => true
      | _ => false) = true := by decide +kernel

-- ## Hypotheses met: the line interface, plans, screenings

theorem hyps_LinksRefuseInOrder :
    (requestOf (.setTime (.kiosk 2) 4 60) = some (.kiosk 2, 4, 0x0B) ∧ house.quiet = true
      ∧ house.admission (.kiosk 2) 4 0x0B (Instr.wellFormed (.setTime (.kiosk 2) 4 60)) = .refused .notAllowed 4)
    ∧ house.quiet = true := by decide +kernel
theorem hyps_FramesAreReceivedWhole :
    (2 ≤ ([0, 0] : List Byte).length ∧ (List.replicate 250 (0 : Byte)).length ≤ 250)
      ∧ (State.reset.line .ol).receiver = .hunting := by decide +kernel
theorem hyps_ReceiverFollowsBytes :
    (house.quiet = true ∧ house.watched .ol = true)
      ∧ (house.quiet = true ∧ house.watched (.tl 0) = false)
      ∧ (((house.onLine .ol (fun x => { x with receiver := .assembling [1] })).line .ol).receiver = .assembling [1]
        ∧ frameStatus [1] = .bad)
      ∧ (house.line .ol).isBad = false
      ∧ ((house.onLine .ol (fun x => { x with receiver := .assembling [2] })).quiet = true
        ∧ (house.onLine .ol (fun x => { x with receiver := .assembling [2] })).watched .ol = true ∧ 50 < 51
        ∧ ((house.onLine .ol (fun x => { x with receiver := .assembling [2] })).line .ol).receiver = .assembling [2])
      ∧ (house.quiet = true ∧ 50 ≤ 50) := by decide +kernel
theorem hyps_PlansLoadRowByRow :
    (Heard (.loadPlan .office 1 ⟨12, [0x41] ++ List.replicate 15 0x20, 26, 40, 26, 80, 1, 0⟩) .office (rep 0x01) house
      ∧ (12 : Byte).toNat = (11 : Fin 12).val + 1
      ∧ (∀ b ∈ [0x41] ++ List.replicate 15 (0x20 : Byte), 0x20 ≤ b.toNat ∧ b.toNat ≤ 0x7E)
      ∧ (∃ b ∈ [0x41] ++ List.replicate 15 (0x20 : Byte), b ≠ 0x20) ∧ within 1 26 (26 : Byte).toNat
      ∧ within 1 40 (40 : Byte).toNat ∧ within 1 (26 : Byte).toNat (26 : Byte).toNat
      ∧ within 2 (2 * (40 : Byte).toNat) (80 : Byte).toNat
      ∧ (∀ c ∈ house.screenings, c.plan ≠ (12 : Byte).toNat))
    ∧ (Heard (.planRow .office 1 9 4 (rowD 0)) .office (rep 0x02) plan9
      ∧ (∃ h rows, plan9.plans.get 8 = .loading h rows 4 28 ∧ h.positions = 10 ∧ h.rows = 4)
      ∧ (∃ given, readAll readCell (rowD 0) = some given ∧ given.length = 10
        ∧ (∀ c ∈ given, c.kind = none → c.aisle = false)
        ∧ (∀ c, given.getLast? = some c → c.aisle = false)
        ∧ 28 + seatsIn (given.map CellFields.cell) ≤ 640)) := by
  refine ⟨by unfold Heard within; decide +kernel, by unfold Heard; decide +kernel, ⟨_, _, rfl, rfl, rfl⟩,
    ⟨(rowD 0).filterMap readCell, by decide +kernel, by decide +kernel, by decide +kernel, ?_, by decide +kernel⟩⟩
  have last : ((rowD 0).filterMap readCell).getLast? = some ⟨some .wheelchair, .a, false⟩ := by decide +kernel
  intro c h
  rw [last] at h
  cases h
  rfl
theorem hyps_ScreeningsLoadAndChangeState :
    (Heard (.loadScreening .office 1 ⟨8, 1, 2879, 2, 1, 0, 1, 30⟩) .office (rep 0x03) house
      ∧ house.clock.isSet = true ∧ readClass 2 = some .threeD ∧ house.screening 8 = none
      ∧ house.plan 1 = some (head2, rows2) ∧ house.screenings.length < 32 ∧ house.clock.value < (2879 + 30) * 60)
    ∧ (Heard (.setScreening .office 1 7 2) .office (rep 0x04) house ∧ house.screening 7 = some scr
      ∧ scr.state ≠ .closed ∧ scr.state ≠ .loaded)
    ∧ Heard (.setKioskSales .office 1 7 1) .office (rep 0x05) house
    ∧ Heard (.closeScreening .office 1 7) .office (rep 0x06) house := by unfold Heard; decide +kernel
/-- The house after the screening's day: CLOSED, sale 40 and its voucher still there. -/
def closedHouse : State := { sold sale40 .issued with screenings := [{ scr with state := .closed }] }
theorem hyps_ArchiveRemovesRecords :
    Heard (.archive .office 1 7) .office (rep 0x07) closedHouse
      ∧ closedHouse.screening 7 = some { scr with state := .closed }
      ∧ (∀ i b, closedHouse.baskets.get i = some b → b.screening ≠ 7)
      ∧ (∀ k ∈ closedHouse.sales.records, k.screening = 7 → k.state ≠ .refundPending) := by
  have none_live : ∀ i, closedHouse.baskets.get i = none := by decide +kernel
  refine ⟨by unfold Heard; decide +kernel, by decide +kernel, fun i b h => by simp [none_live] at h, by decide +kernel⟩

-- ## Hypotheses met: queries and the clock

theorem hyps_QueriesReportAndChangeNothing :
    (asks (.queryClock .office 1) = true ∧ Heard (.queryClock .office 1) .office (rep 0x0E) house)
    ∧ (Heard (.queryScreening .office 1 7) .office (rep 0x08) house ∧ house.screening 7 = some scr)
    ∧ Heard (.queryBasket .office 1 15 0 0) .office (rep 0x21) house
    ∧ (Heard (.queryBasket .office 1 0 1 5) .office (rep 0x21) (shop tallied)
      ∧ ((shop tallied).baskets.get 0).map Basket.ref = some (5 : BitVec 16).toNat)
    ∧ (Heard (.queryBasket .office 1 0 1 6) .office (rep 0x21) (shop tallied)
      ∧ ((shop tallied).baskets.get 0).map Basket.ref ≠ some (6 : BitVec 16).toNat)
    ∧ (Heard (.queryBasket .office 1 15 1 5) .office (rep 0x21) house ∧ house.baskets.get 15 = none)
    ∧ (Heard (.querySale .office 1 40) .office (rep 0x31) (sold sale40 .issued)
      ∧ (sold sale40 .issued).sale 40 = some sale40)
    ∧ (Heard (.queryVoucher .office 1 vcode) .office (rep 0x38) (sold sale40 .issued)
      ∧ readCode vcode = some 2140000575 ∧ checkAgrees 2140000575 = true
      ∧ (sold sale40 .issued).voucher 2140000575 = some (vou .issued))
    ∧ Heard (.check (.concession 0) 1 vcode) (.concession 0) (crep 0x35) (sold sale40 .issued)
    ∧ Heard (.queryStock .office 1) .office (rep 0x39) house
    ∧ (Heard (.queryLine .office 1 0x21) .office (rep 0x4B) house ∧ readLine 0x21 = some (.line (.tl 1)))
    ∧ Heard (.queryLine .office 1 0x40) .office (rep 0x4B) house
    ∧ (Heard (.queryPrices .office 1 3) .office (rep 0x28) house ∧ within 1 3 (3 : Byte).toNat) := by
  unfold Heard within
  constructorm* _ ∧ _ <;> decide +kernel
/-- R179: a free slot's answer has the length of a live basket's with no line, no voucher line and no tally. -/
theorem test_free_slot_has_a_basket_s_length :
    ((sent .ol (ran (.queryBasket .office 1 15 0 0) house)).map List.length = [50])
      ∧ (sent .ol (ran (.queryBasket .office 1 0 0 0)
        (shop { bk .opened with lines := [], vouchers := [] }))).map List.length = [50] := by decide +kernel
/-- R54: the hold countdown of a QUERY_BASKET is its seconds and then its state, 1 running. -/
theorem test_hold_countdown_on_the_wire :
    (Hold.running 240).bytes = [0, 240, 1] ∧ (Hold.suspended 258).bytes = [1, 2, 2] ∧ Hold.absent.bytes = [0, 0, 3] := by
  decide
theorem hyps_ClockRequestsSetTheClock :
    (Heard (.dayOpen .office 1 ⟨366, 172799, 1, 999999, 0, 0⟩) .office (rep 0x0A) State.reset
      ∧ State.reset.screenings = [])
    ∧ (Heard (.setTime .office 1 50039) .office (rep 0x0B) house ∧ house.clock.isSet = true
      ∧ (50039 : BitVec 24).toNat / 60 ≤ house.clock.value / 60)
    ∧ (Heard (.setSync .office 1 4) .office (rep 0x0C) house ∧ readSync 4 = some .once)
    ∧ Heard (.clearPulseCount .office 1) .office (rep 0x0D) house := by unfold Heard; decide +kernel
theorem hyps_MinuteChecksFollowTheClock :
    (house.quiet = true ∧ house.clock.value < 172799)
    ∧ ((reading .off 172799 0).quiet = true ∧ (reading .off 172799 0).clock.value = 172799)
    ∧ (Heard (.setTime .office 1 50040) .office (rep 0x0B) house
      ∧ house.clock.value / 60 < (50040 : BitVec 24).toNat / 60)
    ∧ (Heard (.setTime .office 1 172799) .office (rep 0x0B) house
      ∧ house.clock.value / 60 < (172799 : BitVec 24).toNat / 60) := by unfold Heard; decide +kernel
/-- The basket whose countdown the next second brings to the warning lead. -/
theorem hyps_SecondTickWarns :
    (shop { tallied with hold := .running 46 }).quiet = true
      ∧ ((shop { tallied with hold := .running 46 }).liveBaskets.filter (fun x => match x.2.hold with
        | .running n => decide (n - 1 ≤ house.params.warningLead ∧ 0 < n - 1) && !x.2.warningSent
        | _ => false)).length = 1 := by decide +kernel
theorem hyps_PulsesMeasureAndAlign :
    (house.quiet = true ∧ house.clock.sync = .off)
    ∧ ((reading .track 172799 0).quiet = true ∧ (reading .track 172799 0).clock.sync ≠ .off)
    ∧ ((reading .once 172798 999).quiet = true ∧ (reading .once 172798 999).clock.value < 172799
      ∧ (reading .once 172798 999).clock.fraction ≤ 999)
    ∧ ((reading .track 43259 870).quiet = true ∧ (reading .track 43259 870).clock.sync = .track
      ∧ (43259 * 1000 + 870 : Int) - (-130) = 60000 * 721 ∧ (-130 : Int).natAbs ≤ house.params.jitterWindow)
    ∧ ({ house with clock := { house.clock with noPulse := .running 0 } }).clock.noPulse = .running 0
    ∧ house.clock.noPulse ≠ .running 0 := by decide +kernel
theorem hyps_SecondTickReachesEveryCountdown : (shop (bk .opened)).quiet = true := by decide +kernel

-- ## Hypotheses met: the seat engine

/-- The shop whose queue holds one entry. -/
def queued (b : Basket) (e : Entry) : State := { shop b with engine := { Engine.reset with queue := [e] } }
/-- The engine after the arbiter takes that entry from station 1's ring place or internally. -/
def idleEngine (low : Fin 9) : Engine := { Engine.reset with lowPointer := low }

theorem hyps_SeatRequestsJoinTheQueue :
    (Heard (.seatRequestJoin (.kiosk 2) 1 (.queryMap 7 1 2)) (.station 0) (krep 0x14) house
      ∧ Requester.owner (.station 0) = some (.station 0))
    ∧ Heard (.restoreSale .office 1 ⟨1, 7, 1, 1, [], [], 0, 0, 0, 0, 0, 0, 0, 0, code6⟩) .office (rep 0x30)
      house := by unfold Heard; decide +kernel
theorem hyps_ArbiterTakesByLevelAndRing :
    (Engine.take { Engine.reset with queue := rushQueue }).isSome = true
      ∧ (Engine.take { Engine.reset with queue := [.freeSale 7 40] }).isSome = true
      ∧ (Engine.take { Engine.reset with queue := [rushQueue[0]] }).isSome = true := by decide +kernel
/-- A HOLD_SEATS of the wheelchair space and its companion seat. -/
def holdPair : SeatRequest := .holdSeats 0 5 [⟨⟨1, 1⟩, 1⟩, ⟨⟨1, 2⟩, 4⟩] 0
/-- A HOLD_BEST of two seats anywhere. -/
def best2 : SeatRequest := .holdBest 0 5 2 5 [1, 2] 0
/-- The shop with a search for `n` seats under way. -/
def searching (n : Nat) : State :=
  { shop (bk .opened) with engine := { Engine.reset with
      search := some ⟨.station 0, krep 0x11, 0, 5, n, none, [.adult, .child], false⟩ } }
/-- A RELEASE_SEATS of one seat. -/
def release1 (row pos : Byte) : SeatRequest := .releaseSeats 0 5 [⟨row, pos⟩]
/-- The basket with a wheelchair line and a COMPANION line. -/
def accompanied : Basket := { bk .opened with lines := [⟨1, 1, .adult, none⟩, ⟨1, 2, .companion, none⟩] }
theorem hyps_ReleaseTypeAndMapAreCarriedOut :
    (Takes (.request (.station 0) (krep 0x12) (.releaseSeats 0 5 [⟨2, 2⟩])) (idleEngine 0)
        (queued (bk .opened) (.request (.station 0) (krep 0x12) (.releaseSeats 0 5 [⟨2, 2⟩])))
      ∧ ([⟨2, 2⟩].map seatOf).Nodup
      ∧ ((queued (bk .opened) (.request (.station 0) (krep 0x12) (.releaseSeats 0 5 [⟨2, 2⟩]))).reach
          (.station 0) 0 5).isSome = true
      ∧ (∀ y ∈ [⟨2, 2⟩], seatOf y ∈ lineSeats (bk .opened).lines)
      ∧ (∀ l ∈ (bk .opened).lines.filter (fun l => (l.row, l.pos) ∉ [⟨2, 2⟩].map seatOf), l.type ≠ .companion))
    ∧ (Takes (.request (.station 0) (krep 0x12) (release1 2 2)) (idleEngine 0)
        (queued tallied (.request (.station 0) (krep 0x12) (release1 2 2)))
      ∧ ((queued tallied (.request (.station 0) (krep 0x12) (release1 2 2))).reach (.station 0) 0 5).isSome = true
      ∧ tallied.state ≠ .opened)
    ∧ (Takes (.request (.station 0) (krep 0x12) (release1 1 3)) (idleEngine 0)
        (queued (bk .opened) (.request (.station 0) (krep 0x12) (release1 1 3)))
      ∧ seatOf ⟨1, 3⟩ ∉ lineSeats (bk .opened).lines)
    ∧ (Takes (.request (.station 0) (krep 0x12) (release1 1 1)) (idleEngine 0)
        (queued accompanied (.request (.station 0) (krep 0x12) (release1 1 1)))
      ∧ seatOf ⟨1, 1⟩ ∈ lineSeats accompanied.lines ∧ kindAt rows2 (1, 1) = some .wheelchair
      ∧ (∀ y ∈ lineSeats (accompanied.lines.filter (fun l => (l.row, l.pos) ∉ [⟨1, 1⟩].map seatOf)),
        kindAt rows2 y ≠ some .wheelchair)
      ∧ (∃ l ∈ accompanied.lines.filter (fun l => (l.row, l.pos) ∉ [⟨1, 1⟩].map seatOf), l.type = .companion))
    ∧ (Takes (.request (.station 0) (krep 0x13) (.setType 0 5 ⟨2, 2⟩ 3)) (idleEngine 0)
        (queued (bk .opened) (.request (.station 0) (krep 0x13) (.setType 0 5 ⟨2, 2⟩ 3)))
      ∧ readTicketType 3 = some .senior ∧ seatOf ⟨2, 2⟩ ∈ lineSeats (bk .opened).lines
      ∧ TicketType.senior ≠ .companion)
    ∧ (Takes (.request (.station 0) (krep 0x14) (.queryMap 7 1 2)) (idleEngine 0)
        (queued (bk .opened) (.request (.station 0) (krep 0x14) (.queryMap 7 1 2)))
      ∧ ((queued (bk .opened) (.request (.station 0) (krep 0x14) (.queryMap 7 1 2))).screening 7).isSome = true
      ∧ house.plan scr.plan = some (head2, rows2)) := by
  unfold Takes
  constructorm* _ ∧ _ <;> decide +kernel
/-- A request of station 1 in the queue of the shop with that basket. -/
def asked (b : Basket) (q : SeatRequest) : State := queued b (.request (.station 0) (krep 0x10) q)
/-- A HOLD_SEATS of one seat. -/
def hold1 (row pos type : Byte) : SeatRequest := .holdSeats 0 5 [⟨⟨row, pos⟩, type⟩] 0
/-- The shop's seats, its plan under another header. -/
def under (h : PlanHeader) (s : State) : State := { s with plans := s.plans.set 0 (.ready h rows2) }
theorem hyps_SeatRequestsChangeTheSeats :
    (Takes (.request (.station 0) (krep 0x10) holdPair) (idleEngine 0)
        (queued (bk .opened) (.request (.station 0) (krep 0x10) holdPair))
      ∧ readAll (fun (w : SeatWish) => (readTicketType w.type).map (fun t => (seatOf w.seat, t)))
          [⟨⟨1, 1⟩, 1⟩, ⟨⟨1, 2⟩, 4⟩] = some [((1, 1), .adult), ((1, 2), .companion)]
      ∧ readFlag 0 = some false
      ∧ ([((1, 1), TicketType.adult), ((1, 2), .companion)].map Prod.fst).Nodup
      ∧ (queued (bk .opened) (.request (.station 0) (krep 0x10) holdPair)).reach (.station 0) 0 5
        = some ⟨0, bk .opened, scr.withSeats (Grid.put scr.seats (2, 2) (.held 0 5)), head2, rows2⟩
      ∧ scr.holdsFor (.station 0) = true
      ∧ (∀ y ∈ [((1, 1), TicketType.adult), ((1, 2), .companion)],
          Grid.at (Grid.put scr.seats (2, 2) (.held 0 5)) y.1 = some .free ∧ kindAt rows2 y.1 ≠ none
          ∧ (kindAt rows2 y.1 = some .wheelchair → head2.kioskWheelchair = true)
          ∧ (y.2 = .companion → kindAt rows2 y.1 = some .companionSeat))
      ∧ kindAt rows2 (1, 1) = some .wheelchair
      ∧ orphanApplies head2 (.station 0) false = false)
    ∧ (Takes (.request (.station 0) (krep 0x11) best2) (idleEngine 0)
        (queued (bk .opened) (.request (.station 0) (krep 0x11) best2))
      ∧ readZoneFilter 5 = some none ∧ readAll readTicketType [1, 2] = some [.adult, .child]
      ∧ readFlag 0 = some false ∧ within 1 10 (2 : Byte).toNat ∧ TicketType.companion ∉ [TicketType.adult, .child]
      ∧ ((queued (bk .opened) (.request (.station 0) (krep 0x11) best2)).reach (.station 0) 0 5).isSome = true)
    ∧ ((searching 2).quiet = true ∧ ((searching 2).reach (.station 0) 0 5).isSome = true
      ∧ candidates rows2 (Grid.put scr.seats (2, 2) (.held 0 5)) none false 2 ≠ [])
    ∧ ((searching 4).quiet = true ∧ ((searching 4).reach (.station 0) 0 5).isSome = true
      ∧ candidates rows2 (Grid.put scr.seats (2, 2) (.held 0 5)) none false 4 = [])
    ∧ (Takes (.request .office (rep 0x15) (.blockSeats 7 [⟨1, 3⟩, ⟨1, 4⟩])) (idleEngine 8)
        (queued (bk .opened) (.request .office (rep 0x15) (.blockSeats 7 [⟨1, 3⟩, ⟨1, 4⟩])))
      ∧ within 1 40 2 ∧ ([⟨1, 3⟩, ⟨1, 4⟩].map seatOf).Nodup
      ∧ (∀ y ∈ [⟨1, 3⟩, ⟨1, 4⟩], kindAt rows2 (seatOf y) ≠ none
        ∧ Grid.at (Grid.put scr.seats (2, 2) (.held 0 5)) (seatOf y) = some .free))
    ∧ Takes (.request .office (rep 0x16) (.unblockSeats 7 [⟨1, 3⟩])) (idleEngine 8)
        (queued (bk .opened) (.request .office (rep 0x16) (.unblockSeats 7 [⟨1, 3⟩])))
    ∧ (Takes (.request .office (rep 0x15) (.blockSeats 7 [⟨1, 3⟩, ⟨2, 2⟩])) (idleEngine 8)
        (queued (bk .opened) (.request .office (rep 0x15) (.blockSeats 7 [⟨1, 3⟩, ⟨2, 2⟩])))
      ∧ Grid.at (Grid.put scr.seats (2, 2) (.held 0 5)) (seatOf ⟨2, 2⟩) = some (.held 0 5)) := by
  unfold Takes within
  constructorm* _ ∧ _ <;> decide +kernel
/-- Station 1's request of kind 0x10 is what the arbiter takes of the state. -/
def chosen (q : SeatRequest) (s : State) : Prop := Takes (.request (.station 0) (krep 0x10) q) (idleEngine 0) s
/-- That request where the basket has left its slot. -/
def left (q : SeatRequest) : State := { house with engine := (asked (bk .opened) q).engine }
/-- That request where the screening does not sell. -/
def shut (q : SeatRequest) : State :=
  { asked (bk .opened) q with screenings := [{ scr with state := .paused }] }
/-- The refusals of HOLD_SEATS, one state for each check, in the statement's order. -/
theorem hyps_HoldSeatsIsRefused :
    (chosen (hold1 2 3 5) (asked (bk .opened) (hold1 2 3 5)) ∧ ¬ within 1 4 (5 : Byte).toNat)
    ∧ (chosen (.holdSeats 0 5 [] 0) (asked (bk .opened) (.holdSeats 0 5 [] 0)) ∧ ¬ within 1 10 0)
    ∧ (let q := SeatRequest.holdSeats 0 5 [⟨⟨2, 3⟩, 1⟩, ⟨⟨2, 3⟩, 2⟩] 2
      chosen q (asked (bk .opened) q) ∧ 1 < (2 : Byte).toNat ∧ ¬ ([⟨2, 3⟩, ⟨2, 3⟩].map seatOf).Nodup)
    ∧
    (chosen (hold1 2 3 1) (left (hold1 2 3 1)) ∧ (left (hold1 2 3 1)).reach (.station 0) 0 5 = none)
    ∧ (let s := asked tallied (hold1 2 3 1)
      Takes (.request (.station 0) (krep 0x10) (hold1 2 3 1)) (idleEngine 0) s
        ∧ (s.reach (.station 0) 0 5).map (·.basket.state) = some .tallied)
    ∧ (chosen (hold1 2 3 1) (shut (hold1 2 3 1))
      ∧ ((shut (hold1 2 3 1)).reach (.station 0) 0 5).map (fun x => x.screening.holdsFor (.station 0)) = some false)
    ∧ (let s := asked { bk .opened with lines := List.replicate 10 ⟨1, 3, .adult, none⟩ } (hold1 2 3 1)
      Takes (.request (.station 0) (krep 0x10) (hold1 2 3 1)) (idleEngine 0) s
        ∧ (s.reach (.station 0) 0 5).map (fun x => decide (10 < x.basket.lines.length + 1)) = some true)
    ∧ (Takes (.request (.station 0) (krep 0x10) (hold1 2 1 1)) (idleEngine 0) (asked (bk .opened) (hold1 2 1 1))
      ∧ kindAt rows2 (2, 1) = none)
    ∧ (Takes (.request (.station 0) (krep 0x10) (hold1 2 2 1)) (idleEngine 0) (asked (bk .opened) (hold1 2 2 1))
      ∧ Grid.at (Grid.put scr.seats (2, 2) (.held 0 5)) (2, 2) ≠ some .free)
    ∧ (let s := under { head2 with kioskWheelchair := false } (asked (bk .opened) (hold1 1 1 1))
      Takes (.request (.station 0) (krep 0x10) (hold1 1 1 1)) (idleEngine 0) s
        ∧ (s.reach (.station 0) 0 5).map (·.header.kioskWheelchair) = some false
        ∧ kindAt rows2 (1, 1) = some .wheelchair)
    ∧ (Takes (.request (.station 0) (krep 0x10) (hold1 2 3 4)) (idleEngine 0) (asked (bk .opened) (hold1 2 3 4))
      ∧ readTicketType 4 = some .companion ∧ kindAt rows2 (2, 3) ≠ some .companionSeat)
    ∧ (let s := under { head2 with orphanRule := true } (asked (bk .opened) (hold1 2 4 1))
      Takes (.request (.station 0) (krep 0x10) (hold1 2 4 1)) (idleEngine 0) s
        ∧ (s.reach (.station 0) 0 5).map (fun x => orphanApplies x.header (.station 0) false
          && orphaned x.rows x.screening.seats [(2, 4)]) = some true)
    ∧ (let q := SeatRequest.holdSeats 0 5 [⟨⟨1, 1⟩, 1⟩, ⟨⟨1, 2⟩, 4⟩, ⟨⟨2, 4⟩, 1⟩] 0
      let s := under { head2 with orphanRule := true } (asked (bk .opened) q)
      chosen q s ∧ (s.reach (.station 0) 0 5).map (fun x => orphanApplies x.header (.station 0) false
          && orphaned x.rows x.screening.seats [(1, 1), (1, 2), (2, 4)]) = some true
        ∧ kindAt rows2 (1, 1) = some .wheelchair ∧ kindAt rows2 (1, 2) = some .companionSeat
        ∧ head2.kioskWheelchair = true) := by
  unfold chosen Takes within
  constructorm* _ ∧ _ <;> decide +kernel
/-- The refusals of HOLD_BEST and of the end of a search, in the statement's order. -/
theorem hyps_BestIsRefused :
    (let q := SeatRequest.holdBest 0 5 2 5 [1, 4] 0
    chosen q (asked (bk .opened) q) ∧ ¬ within 1 3 (4 : Byte).toNat)
    ∧ (chosen best2 (left best2) ∧ (left best2).reach (.station 0) 0 5 = none
      ∧ within 1 10 (2 : Byte).toNat ∧ within 1 5 (5 : Byte).toNat ∧ ∀ y ∈ [1, 2], within 1 3 (y : Byte).toNat)
    ∧ (chosen best2 (asked tallied best2)
      ∧ ((asked tallied best2).reach (.station 0) 0 5).map (·.basket.state) = some .tallied)
    ∧ (chosen best2 (shut best2)
      ∧ ((shut best2).reach (.station 0) 0 5).map (fun x => x.screening.holdsFor (.station 0)) = some false)
    ∧ (let s := asked { bk .opened with lines := List.replicate 9 ⟨1, 3, .adult, none⟩ } best2
      chosen best2 s ∧ (s.reach (.station 0) 0 5).map (fun x => decide (10 < x.basket.lines.length + 2)) = some true)
    ∧ (let s := { searching 2 with baskets := State.reset.baskets }
      s.quiet = true ∧ s.engine.search.isSome = true ∧ s.reach (.station 0) 0 5 = none)
    ∧ (let s := (searching 2).putBasket 0 tallied
      s.quiet = true ∧ s.engine.search.isSome = true
        ∧ (s.reach (.station 0) 0 5).map (·.basket.state) = some .tallied) := by
  unfold chosen Takes within
  constructorm* _ ∧ _ <;> decide +kernel
/-- The refusals of BLOCK_SEATS and UNBLOCK_SEATS by form, screening and cell. -/
theorem hyps_BlockIsRefused :
    (let x := Entry.request .office (rep 0x15) (.blockSeats 7 [])
    Takes x (idleEngine 8) (queued (bk .opened) x) ∧ ¬ within 1 40 0)
    ∧ (let x := Entry.request .office (rep 0x16) (.unblockSeats 7 [⟨1, 3⟩, ⟨1, 3⟩])
      Takes x (idleEngine 8) (queued (bk .opened) x) ∧ ¬ ([⟨1, 3⟩, ⟨1, 3⟩].map seatOf).Nodup)
    ∧ (let x := Entry.request .office (rep 0x15) (.blockSeats 8 [⟨1, 3⟩])
      Takes x (idleEngine 8) (queued (bk .opened) x) ∧ (queued (bk .opened) x).screening 8 = none)
    ∧ (let x := Entry.request .office (rep 0x16) (.unblockSeats 7 [⟨2, 1⟩])
      Takes x (idleEngine 8) (queued (bk .opened) x) ∧ kindAt rows2 (seatOf ⟨2, 1⟩) = none) := by
  unfold Takes within
  constructorm* _ ∧ _ <;> decide +kernel
/-- The refusals of RELEASE_SEATS by form and basket, of SET_TYPE and of QUERY_MAP. -/
theorem hyps_ReleaseTypeAndMapAreRefused :
    (chosen (.releaseSeats 0 5 []) (asked (bk .opened) (.releaseSeats 0 5 [])) ∧ ¬ within 1 10 0)
    ∧ (chosen (release1 2 2) (left (release1 2 2)) ∧ (left (release1 2 2)).reach (.station 0) 0 5 = none)
    ∧ (chosen (.setType 0 5 ⟨2, 2⟩ 0) (asked (bk .opened) (.setType 0 5 ⟨2, 2⟩ 0)) ∧ ¬ within 1 4 (0 : Byte).toNat)
    ∧ (let q := SeatRequest.setType 0 5 ⟨2, 2⟩ 2
      chosen q (left q) ∧ (left q).reach (.station 0) 0 5 = none ∧ chosen q (asked tallied q)
        ∧ ((asked tallied q).reach (.station 0) 0 5).map (·.basket.state) = some .tallied)
    ∧ (let q := SeatRequest.setType 0 5 ⟨2, 3⟩ 2
      chosen q (asked (bk .opened) q) ∧ seatOf ⟨2, 3⟩ ∉ lineSeats (bk .opened).lines)
    ∧ (let q := SeatRequest.setType 0 5 ⟨2, 2⟩ 4
      chosen q (asked (bk .opened) q) ∧ kindAt rows2 (seatOf ⟨2, 2⟩) ≠ some .companionSeat)
    ∧ (let q := SeatRequest.queryMap 8 1 1
      chosen q (asked (bk .opened) q) ∧ (asked (bk .opened) q).screening 8 = none)
    ∧ (let q := SeatRequest.queryMap 7 0 3
      chosen q (asked (bk .opened) q) ∧ head2.rows < (3 : Byte).toNat)
    ∧ (let q := SeatRequest.queryMap 7 1 17
      let s := under { head2 with rows := 17 } (asked (bk .opened) q)
      chosen q s ∧ (s.plan scr.plan).map (fun p => p.1.rows) = some (17 : Byte).toNat) := by
  unfold chosen Takes within
  constructorm* _ ∧ _ <;> decide +kernel
theorem hyps_BlocksRefuseWithoutEffect :
    (Heard (.setTime .office 1 172800) .office (rep 0x0B) house
      ∧ Heard (.setTime .office 1 172799) .office (rep 0x0B) house)
    ∧ (Takes (.request (.station 0) (krep 0x10) holdPair) (idleEngine 0)
        (queued tallied (.request (.station 0) (krep 0x10) holdPair))
      ∧ Entry.reply (.request (.station 0) (krep 0x10) holdPair) = some (krep 0x10))
    ∧ Takes (.request (.station 0) (krep 0x10) holdPair) (idleEngine 0)
        (queued (bk .opened) (.request (.station 0) (krep 0x10) holdPair))
    ∧ ((searching 4).quiet = true ∧ (searching 4).engine.search.isSome = true)
    ∧ ((searching 2).quiet = true ∧ (searching 2).engine.search.isSome = true) := by
  unfold Heard Takes
  constructorm* _ ∧ _ <;> decide +kernel
/-- The cancelled basket, its CANCEL waiting. -/
def ending : Basket :=
  { tallied with
    state := .ending, endReason := some .cancelled, hold := .absent, waiter := some (krep 0x1E) }
/-- The paid basket in ENDING. -/
def bought : Basket := { paying with state := .ending, endReason := some .committed, hold := .absent }
/-- The shop about to sell it as number 41. -/
def selling : State :=
  { queued bought (.sellBasket 0 5 7 41) with
    sales := { SaleTable.reset with commits := [⟨0, 5, 41, some ⟨3, 9, code6⟩, none⟩] } }
/-- The office's basket in ENDING, settled, and the shop about to sell it as number 41 with a job on TL8. -/
def officeSelling : State :=
  { queued { bought with owner := .office, payRef := none, waiter := some (rep 0x20) } (.sellBasket 0 5 7 41) with
    sales := { SaleTable.reset with commits := [⟨0, 5, 41, none, some 7⟩] } }
theorem hyps_CommitsRecordTheSale :
    (Takes (.sellBasket 0 5 7 41) (idleEngine 8) selling ∧ selling.basket 0 5 = some bought
      ∧ (selling.sales.commits.find? (fun k => k.number == 41)).isSome = true ∧ selling.sale 41 = none
      ∧ bought.tally = some tly ∧ (selling.screening 7).isSome = true ∧ (lineSeats bought.lines).Nodup
      ∧ (∀ y ∈ lineSeats bought.lines, Grid.at (Grid.put scr.seats (2, 2) (.held 0 5)) y ≠ none))
    ∧ (Takes (.sellBasket 0 5 7 41) (idleEngine 8) officeSelling ∧ (officeSelling.basket 0 5).isSome = true
      ∧ officeSelling.sale 41 = none) := by
  unfold Takes; decide +kernel
/-- The outcomes of the job asked for: QUEUED on a line OFF and on one in IDLE, WAITING, NOT_QUEUED for a full list and
for no line; an activation deferred; few vouchers live. -/
theorem hyps_CommitsAskForAJob :
    (selling.binding 0 = some ⟨2, 3, 1⟩ ∧ selling.print.waiting = [] ∧ (selling.ticketLine 1).queue.length < 6
      ∧ 4 ≤ (indices 256).countP (fun e => (selling.print.pool.get e).isNone)
      ∧ (selling.ticketLine 1).state = .off)
    ∧ (let s := selling.withTicketLine 1 (tline .idle [])
      Takes (.sellBasket 0 5 7 41) (idleEngine 8) s ∧ (s.ticketLine 1).state = .idle ∧ s.print.order = []
        ∧ s.grantedSum + s.params.draws.get 1 ≤ s.params.budget)
    ∧ (Takes (.sellBasket 0 5 7 41) (idleEngine 8) (lined 15 selling) ∧ (lined 15 selling).print.waiting ≠ [])
    ∧ (Takes (.sellBasket 0 5 7 41) (idleEngine 8) (lined 16 selling)
      ∧ 16 ≤ (lined 16 selling).print.waiting.length)
    ∧ (let s := { officeSelling with sales := { SaleTable.reset with commits := [⟨0, 5, 41, none, none⟩] } }
      Takes (.sellBasket 0 5 7 41) (idleEngine 8) s ∧ (s.sales.commits.map (·.line)) = [none])
    ∧ (let s := { selling with prices := { selling.prices with
        staged := { selling.prices.staged with waiting := true } } }
      Takes (.sellBasket 0 5 7 41) (idleEngine 8) s ∧ s.prices.staged.waiting = true)
    ∧ selling.vouchers.records.length ≤ 4096 := by
  unfold Takes
  constructorm* _ ∧ _ <;> decide +kernel
/-- R127: the code of serial 57 of day 214 is held, so the first code taken is that of serial 58 (the worked codes). -/
theorem test_codes_pass_over_a_held_one :
    CodesFrom 214 (fun x => x = 2140000575) 57 [2140000582] 59 :=
  ⟨58, ⟨1, rfl, by decide, fun i h => by interval_cases i; decide⟩, rfl, rfl⟩
/-- Sale 40 with a quote taken by a REFUND_COMMIT. -/
def quoted (taken : Option Reply) (n : Nat) : Sale :=
  { sale40 with state := .refundPending, quote := some ⟨1962, n, taken⟩ }
/-- The expired basket: no request waits. -/
def lapsed : Basket := { tallied with state := .ending, endReason := some .expired, hold := .absent }
/-- The office's voided basket, its RESOLVE waiting. -/
def voided : Basket := { ending with owner := .office, endReason := some .voided, waiter := some (rep 0x2A) }
theorem hyps_InternalEntriesFreeSeats :
    (∀ b ∈ [ending, lapsed, voided],
      Takes (.releaseBasket 0 5 7) (idleEngine 8) (queued b (.releaseBasket 0 5 7))
      ∧ (queued b (.releaseBasket 0 5 7)).basket 0 5 = some b
      ∧ ((queued b (.releaseBasket 0 5 7)).screening 7).isSome = true ∧ (b.vouchers.map (·.kind)).Nodup
      ∧ (∀ v ∈ b.vouchers, v.quantity ≤ ((queued b (.releaseBasket 0 5 7)).vouchers.stock.get v.kind).inBaskets))
    ∧ [ending, lapsed, voided].map (·.endReason) = [some .cancelled, some .expired, some .voided]
    ∧ (let s := { sold (quoted (some (rep 0x2D)) 0) .suspended with
        engine := { Engine.reset with queue := [.freeSale 7 40] } }
      Takes (.freeSale 7 40) (idleEngine 8) s ∧ s.sale 40 = some (quoted (some (rep 0x2D)) 0)
        ∧ (s.screening 7).isSome = true) := by unfold Takes; decide +kernel
/-- The fields of a sale to restore: one ticket, one voucher, settled. -/
def saleFields : SaleFields :=
  ⟨77, 7, 0x80, 1, [⟨⟨2, 3⟩, 1, 0x1000, 2, 0⟩], [⟨vcode, 2, 0x500, 1, 0xFF, 0⟩], 0x1000, 0, 0x500, 0x1500, 0x98, 0,
    0, 0, code6⟩
/-- The house with a RESTORE_SALE of those fields in the queue. -/
def restoring (f : SaleFields) (s : State) : State :=
  { s with engine := { Engine.reset with queue := [.restore (rep 0x30) f] } }
/-- What the checks of a restore find. -/
def checks (f : SaleFields) (s : State) : Option (Bool × Bool × Bool × Bool × Bool × Bool) :=
  (readRestored f).map (fun x => ((s.screening x.1.screening).isSome, s.holdsNumber x.1.number,
    s.hasRoom x.2.length, x.1.tickets.all (fun y => Grid.at scr.seats (y.row, y.pos) != none),
    x.1.tickets.all (fun y => (s.screening x.1.screening).any (fun c => Grid.at c.seats (y.row, y.pos) == some .free)),
    s.stockFor x.2))
theorem hyps_RestoresAddTheSale :
    (let s := restoring saleFields house
    Takes (.restore (rep 0x30) saleFields) (idleEngine 8) s
      ∧ (match readRestored saleFields with
        | none => false
        | some (sale, vs) => s.screening sale.screening == some scr && !s.holdsNumber sale.number
          && vs.all (fun v => (s.voucher v.code).isNone) && s.hasRoom vs.length
          && sale.tickets.all (fun y => Grid.at scr.seats (y.row, y.pos) == some .free) && s.stockFor vs
          && sale.tickets.length == 1 && vs.length == 1) = true)
    ∧ (let f := { saleFields with number := 0 }
      Takes (.restore (rep 0x30) f) (idleEngine 8) (restoring f house) ∧ readRestored f = none)
    ∧ checks { saleFields with screening := 8 } (restoring saleFields house) = some (false, false, true, true, false, true)
    ∧ checks { saleFields with number := 40 } (restoring saleFields (sold sale40 .issued))
      = some (true, true, true, true, true, true)
    ∧ checks saleFields (restoring saleFields { house with sales := { house.sales with reservedSales := 2048 } })
      = some (true, false, false, true, true, true)
    ∧ checks { saleFields with tickets := [⟨⟨2, 1⟩, 1, 0x1000, 2, 0⟩] } (restoring saleFields house)
      = some (true, false, true, false, false, true)
    ∧ checks { saleFields with tickets := [⟨⟨2, 2⟩, 1, 0x1000, 2, 0⟩] } (restoring saleFields (shop (bk .opened)))
      = some (true, false, true, true, false, true)
    ∧ checks saleFields (restoring saleFields { house with vouchers := VoucherTable.reset })
      = some (true, false, true, true, true, false) := by
  unfold Takes
  constructorm* _ ∧ _ <;> decide +kernel

-- ## Hypotheses met: baskets

theorem hyps_OpenBasketCreatesABasket :
    Heard (.openBasket (.kiosk 2) 1 7) (.station 0) (krep 0x18) house
      ∧ Requester.owner (.station 0) = some (.station 0) ∧ house.screening 7 = some scr ∧ scr.state = .onSale
      ∧ scr.kioskSales = true ∧ (∀ i, house.baskets.get i = none)
      ∧ house.prices.active = some ⟨priceSet, 1, 1⟩ ∧ (∀ j : Fin 16, ¬ j < 0) := by unfold Heard; decide +kernel
/-- The counter at a ref that a live basket holds, and at its top. -/
theorem hyps_OpenBasketPassesOverARef :
    (Heard (.openBasket .office 1 7) .office (rep 0x18) { shop (bk .opened) with nextBasketRef := 5 }
      ∧ (shop (bk .opened)).baskets.get 0 = some (bk .opened) ∧ (bk .opened).ref = 5
      ∧ (shop (bk .opened)).baskets.get 1 = none ∧ (∀ j : Fin 16, j < 1 → j = 0))
    ∧ (Heard (.openBasket .office 1 7) .office (rep 0x18) { house with nextBasketRef := 65535 }
      ∧ advanced 65535 65535 1 = 1) := by unfold Heard; decide +kernel
/-- R58's naming of the basket of slot 0, ref 5, by station 1. -/
theorem owned_shop (b : Basket) (hr : b.ref = 5) (ho : b.owner = .station 0) (s : State)
    (h : s.baskets.get 0 = some b) : Owned (.station 0) 0 5 0 b s := ⟨rfl, h, by rw [hr]; rfl, by rw [ho]; rfl⟩
theorem hyps_VoucherLinesMoveStock :
    (Heard (.addVoucher (.kiosk 2) 1 0 5 2 6) (.station 0) (krep 0x19) (shop (bk .opened))
      ∧ (shop (bk .opened)).baskets.get 0 = some (bk .opened) ∧ (2 : Byte).toNat = (1 : Fin 8).val + 1
      ∧ ((shop (bk .opened)).prices.bank 1).isSome = true ∧ (priceSet.combos.get 1).offered = true
      ∧ ((bk .opened).vouchers.map (·.quantity)).sum + 6 ≤ 8
      ∧ 6 ≤ ((shop (bk .opened)).vouchers.stock.get 1).available)
    ∧ (Heard (.dropVoucher (.kiosk 2) 1 0 5 2 2) (.station 0) (krep 0x1A) (shop (bk .opened))
      ∧ (bk .opened).vouchers.find? (fun l => l.kind == 1) = some ⟨1, 2⟩
      ∧ 2 ≤ ((shop (bk .opened)).vouchers.stock.get 1).inBaskets) := by unfold Heard; decide +kernel
theorem hyps_TallyStoresTheTally :
    (Heard (.tally (.kiosk 2) 1 0 5) (.station 0) (krep 0x1B) (shop (bk .opened))
      ∧ (shop (bk .opened)).baskets.get 0 = some (bk .opened) ∧ (bk .opened).lines ≠ []
      ∧ (shop (bk .opened)).prices.bank 1 = some ⟨priceSet, 1, 1⟩ ∧ ((shop (bk .opened)).screening 7).isSome = true
      ∧ (shop (bk .opened)).plan 1 = some (head2, rows2))
    ∧ (Heard (.tally (.kiosk 2) 1 0 5) (.station 0) (krep 0x1B) (shop tallied)
      ∧ (shop tallied).baskets.get 0 = some tallied ∧ tallied.tally = some tly) := by unfold Heard; decide +kernel
theorem hyps_TallyFiguresWithinBounds :
    let p : PriceSet := ⟨Tab.replicate 12 49999, ⟨Tab.replicate 3 9999, 50⟩, Tab.replicate 8 ⟨9999, 9999, true⟩,
      ⟨1, 30, 250⟩⟩
    (∀ i, p.base.get i ≤ 49999) ∧ (∀ i, p.surcharges.classes.get i ≤ 9999) ∧ p.surcharges.matinee ≤ 50
      ∧ (∀ i, (p.combos.get i).combo ≤ 9999 ∧ (p.combos.get i).bundle ≤ (p.combos.get i).combo)
      ∧ p.rates.percent ≤ 30 ∧ p.rates.tax ≤ 250
      ∧ (List.replicate 10 (⟨1, 1, .adult, none⟩ : SeatLine)).length ≤ 10
      ∧ ([⟨0, 8⟩].map VoucherLine.quantity).sum ≤ 8 := by decide +kernel
theorem hyps_ReopenByState :
    (∀ st ∈ [BasketState.opened, .paying, .reversing, .doubt, .tallied, .ending],
      (shop (bk st)).baskets.get 0 = some (bk st))
    ∧ Heard (.reopen (.kiosk 2) 1 0 5) (.station 0) (krep 0x1C) (shop (bk .opened))
    ∧ Heard (.reopen (.kiosk 2) 1 0 5) (.station 0) (krep 0x1C) (shop (bk .reversing))
    ∧ Heard (.reopen (.kiosk 2) 1 0 5) (.station 0) (krep 0x1C) (shop tallied)
    ∧ Heard (.reopen (.kiosk 2) 1 0 5) (.station 0) (krep 0x1C) (shop ending) := by unfold Heard; decide +kernel
theorem hyps_ExtendByStateAndFlag :
    (Heard (.extend (.kiosk 2) 1 0 5) (.station 0) (krep 0x1D) (shop { tallied with hold := .running 900 })
      ∧ tallied.extensionUsed = false)
    ∧ Heard (.extend (.kiosk 2) 1 0 5) (.station 0) (krep 0x1D) (shop { tallied with extensionUsed := true })
    ∧ Heard (.extend (.kiosk 2) 1 0 5) (.station 0) (krep 0x1D) (shop (bk .doubt))
    ∧ Heard (.extend (.kiosk 2) 1 0 5) (.station 0) (krep 0x1D) (shop ending) := by
  unfold Heard; decide +kernel
theorem hyps_BasketsEndByCancelOrExpiry :
    Heard (.cancel (.kiosk 2) 1 0 5) (.station 0) (krep 0x1E) (shop tallied)
    ∧ (Heard (.cancel (.kiosk 2) 1 0 5) (.station 0) (krep 0x1E) (trying .sent .authorization 5)
      ∧ (trying .sent .authorization 5).baskets.get 0 = some paying
      ∧ (trying .sent .authorization 5).attemptLine paying = some (3, att .sent))
    ∧ (shop { tallied with hold := .running 0 }).baskets.get 0 = some { tallied with hold := .running 0 }
    ∧ (∀ i, (house.baskets.get i).isNone = true) := by unfold Heard; decide +kernel

-- ## Hypotheses met: payments

theorem hyps_PayStartsAnAttempt :
    Heard (.pay (.kiosk 2) 1 0 5 (money tly.total)) (.station 0) (krep 0x1F) (shop tallied)
      ∧ (shop tallied).baskets.get 0 = some tallied ∧ tallied.attempts < (shop tallied).params.declineLimit
      ∧ readAmount (money tly.total) = some tly.total ∧ (shop tallied).binding 0 = some ⟨2, 3, 1⟩
      ∧ ((shop tallied).payLine 3).exchange = none ∧ ((shop tallied).payLine 3).queue = []
      ∧ (shop tallied).hasRoom (tallied.vouchers.map (·.quantity)).sum = true := by unfold Heard; decide +kernel
/-- An office basket. -/
def houseBasket : Basket := { tallied with owner := .office }
/-- A basket in DOUBT on attempt 9. -/
def doubted : State :=
  { atTill { paying with state := .doubt } ⟨none, [att .timedOut], [], 0⟩ with
    pay := { (atTill paying ⟨none, [att .timedOut], [], 0⟩).pay with doubts := [⟨0, 5, 3, 9, tly.total, none⟩] } }
theorem hyps_SettleAndResolveEndTheBasket :
    (Heard (.settle .office 1 0 5 0x27) .office (rep 0x20) (shop houseBasket)
      ∧ (shop houseBasket).baskets.get 0 = some houseBasket ∧ (0x27 : Byte).toNat = 0x20 + (7 : Fin 8).val
      ∧ (shop houseBasket).hasRoom 2 = true)
    ∧ (Heard (.resolve .office 1 0 5 1 code6) .office (rep 0x2A) doubted
      ∧ (doubted.basket 0 5).map (·.state) = some .doubt ∧ (∀ x ∈ code6, 0x20 ≤ x.toNat ∧ x.toNat ≤ 0x7E)
      ∧ doubted.doubtOf 0 5 = some ⟨0, 5, 3, 9, tly.total, none⟩ ∧ (doubted.payLine 3).reversal 9 = none
      ∧ doubted.hasRoom 2 = true)
    ∧ Heard (.resolve .office 1 0 5 2 code6) .office (rep 0x2A) doubted := by unfold Heard; decide +kernel
/-- Four reversals tied to no basket: a full queue. -/
def fullQueue : List Reversal := [⟨1, 500, none, 0, none⟩, ⟨2, 500, none, 0, none⟩, ⟨3, 500, none, 0, none⟩,
  ⟨4, 500, none, 0, none⟩]
/-- The till in the middle of attempt 9, the reversal queue full. -/
def crowded (st : PayState) (k : ExchangeKind) (n : Nat) : State :=
  atTill paying ⟨some ⟨k, 9, n⟩, [att st], fullQueue, 0⟩
/-- The till after attempt 9, no exchange in flight, with reversals as given. -/
def settled (st : PayState) (queue : List Reversal) : State :=
  atTill { paying with state := .reversing } ⟨none, [att st], queue, 0⟩
theorem hyps_AttemptsReportTheirProgress :
    ((trying .sent .authorization 5).quiet = true
      ∧ ((trying .sent .authorization 5).payLine 3).record 9 = some (att .sent)
      ∧ (trying .sent .authorization 5).basket 0 5 = some paying)
    ∧ ((trying .accepted .authorization 5).quiet = true
      ∧ ((trying .accepted .authorization 5).payLine 3).record 9 = some (att .accepted))
    ∧ ((trying .aborting .abort 5).quiet = true
      ∧ ((trying .aborting .abort 5).payLine 3).record 9 = some (att .aborting)
      ∧ (att .aborting).state ≠ .sent ∧ (att .aborting).state ≠ .accepted)
    ∧ (house.quiet = true ∧ (house.payLine 3).record 9 = none ∧ (house.payLine 3).reversal 9 = none)
    ∧ (((settled .timedOut fullQueue).payLine 3).record 4 = none
      ∧ ((settled .timedOut fullQueue).payLine 3).reversal 4 = some ⟨4, 500, none, 0, none⟩
      ∧ (settled .timedOut fullQueue).quiet = true)
    ∧ (¬ within 1 3 (0 : Byte).toNat ∧ ¬ within 1 3 (4 : Byte).toNat) := by
  unfold within; decide +kernel
theorem hyps_ApprovalsCommitOrReverse :
    ((trying .accepted .authorization 5).quiet = true
      ∧ ((trying .accepted .authorization 5).payLine 3).record 9 = some (att .accepted) ∧ code6.length = 6
      ∧ (∀ x ∈ code6, 0x20 ≤ x.toNat ∧ x.toNat ≤ 0x7E) ∧ readAmount (money tly.total) = some (att .accepted).amount
      ∧ (trying .accepted .authorization 5).basket 0 5 = some paying)
    ∧ (readAmount (money (tly.total - 1)) = some (tly.total - 1) ∧ tly.total - 1 ≠ (att .accepted).amount
      ∧ ((trying .accepted .authorization 5).payLine 3).queue.length < 4
      ∧ ((trying .accepted .authorization 5).payLine 3).reversal 9 = none)
    ∧ ((crowded .sent .authorization 5).quiet = true
      ∧ ((crowded .sent .authorization 5).payLine 3).record 9 = some (att .sent)
      ∧ 4 ≤ ((crowded .sent .authorization 5).payLine 3).queue.length
      ∧ ((crowded .sent .authorization 5).payLine 3).reversal 9 = none
      ∧ (crowded .sent .authorization 5).basket 0 5 = some paying)
    ∧ ((trying .aborting .abort 5).quiet = true
      ∧ ((trying .aborting .abort 5).payLine 3).record 9 = some (att .aborting)
      ∧ (trying .aborting .abort 5).basket 0 5 = some paying
      ∧ ((trying .aborting .abort 5).payLine 3).reversal 9 = none
      ∧ ((trying .aborting .abort 5).payLine 3).queue.length < 4)
    ∧ ((settled .timedOut [⟨9, tly.total, none, 0, some (0, 5)⟩]).quiet = true
      ∧ ((settled .timedOut [⟨9, tly.total, none, 0, some (0, 5)⟩]).payLine 3).record 9 = some (att .timedOut)
      ∧ ((settled .timedOut [⟨9, tly.total, none, 0, some (0, 5)⟩]).payLine 3).reversal 9 ≠ none)
    ∧ ((settled .aborted []).quiet = true ∧ ((settled .aborted []).payLine 3).reversal 9 = none)
    ∧ ((settled .declined fullQueue).quiet = true ∧ ((settled .declined fullQueue).payLine 3).reversal 9 = none
      ∧ 4 ≤ ((settled .declined fullQueue).payLine 3).queue.length)
    ∧ (((settled .declined fullQueue).payLine 3).record 4 = none
      ∧ ((settled .declined fullQueue).payLine 3).reversal 4 ≠ none)
    ∧ ((settled .approved []).quiet = true ∧ ((settled .approved []).payLine 3).record 9 = some (att .approved)
      ∧ readAmount (money tly.total) = some (att .approved).amount) := by decide +kernel
/-- An approval in ABORTING that finds the queue full, and the approvals that are stray. -/
theorem hyps_ApprovalsAreStray :
    ((crowded .aborting .abort 5).quiet = true
      ∧ ((crowded .aborting .abort 5).payLine 3).record 9 = some (att .aborting)
      ∧ ((crowded .aborting .abort 5).payLine 3).reversal 9 = none
      ∧ 4 ≤ ((crowded .aborting .abort 5).payLine 3).queue.length
      ∧ (crowded .aborting .abort 5).basket 0 5 = some paying)
    ∧ (readAmount 0xA = none ∧ [0x41#8].length ≠ 6
      ∧ ((0x7F : Byte) ∈ [0x4B, 0x34, 0x51, 0x37, 0x5A, (0x7F : Byte)] ∧ ¬ within 0x20 0x7E (0x7F : Byte).toNat)
      ∧ ¬ within 0x20 0x7E (0x1F : Byte).toNat)
    ∧ (house.quiet = true ∧ (house.payLine 3).record 9 = none ∧ (house.payLine 3).reversal 9 = none) := by
  unfold within; decide +kernel
/-- A DECLINED or an ABORTED for a pay ref that only a reversal holds, for one the line does not know, and the reasons
beside the range. -/
theorem hyps_DeclinesAreStray :
    ((settled .timedOut fullQueue).quiet = true ∧ ((settled .timedOut fullQueue).payLine 3).record 4 = none
      ∧ ((settled .timedOut fullQueue).payLine 3).reversal 4 = some ⟨4, 500, none, 0, none⟩
      ∧ within 1 15 (1 : Byte).toNat)
    ∧ (¬ within 1 15 (0 : Byte).toNat ∧ ¬ within 1 15 (16 : Byte).toNat)
    ∧ (house.quiet = true ∧ (house.payLine 3).record 9 = none ∧ (house.payLine 3).reversal 9 = none) := by
  unfold within; decide +kernel
theorem hyps_DeclinesJudgeTheBasket :
    ((trying .accepted .authorization 5).quiet = true ∧ within 1 15 (15 : Byte).toNat
      ∧ paying.attempts < (trying .accepted .authorization 5).params.declineLimit
      ∧ ((trying .accepted .authorization 5).ifc.stations.get 0).state = .opened)
    ∧ (let s := { trying .sent .authorization 5 with ifc := { (trying .sent .authorization 5).ifc with
        stations := house.ifc.stations.set 0 ⟨some ⟨2, 3, 1⟩, .closing⟩ } }
      s.quiet = true ∧ (s.payLine 3).record 9 = some (att .sent) ∧ s.basket 0 5 = some paying
        ∧ paying.attempts < s.params.declineLimit ∧ (s.ifc.stations.get 0).state ≠ .opened)
    ∧ (let s := atTill { paying with attempts := 3 } ⟨some ⟨.authorization, 9, 5⟩, [att .sent], [], 0⟩
      s.quiet = true ∧ (s.basket 0 5).map (·.attempts) = some 3 ∧ s.params.declineLimit ≤ 3)
    ∧ ((trying .aborting .abort 5).quiet = true
      ∧ ((trying .aborting .abort 5).payLine 3).record 9 = some (att .aborting)
      ∧ (trying .aborting .abort 5).basket 0 5 = some paying)
    ∧ ((settled .timedOut []).quiet = true
      ∧ ((settled .timedOut []).payLine 3).record 9 = some (att .timedOut)) := by
  unfold within; decide +kernel
theorem hyps_WaitsThatExpireAreReversed :
    (((trying .sent .authorization 0).payLine 3).exchange = some ⟨.authorization, 9, 0⟩
      ∧ ((trying .sent .authorization 0).payLine 3).record 9 = some (att .sent)
      ∧ (trying .sent .authorization 0).basket 0 5 = some paying
      ∧ ((trying .sent .authorization 0).payLine 3).queue.length < 4
      ∧ ((trying .sent .authorization 0).payLine 3).reversal 9 = none)
    ∧ ((trying .accepted .authorization 0).payLine 3).record 9 = some (att .accepted)
    ∧ (((trying .aborting .abort 0).payLine 3).exchange = some ⟨.abort, 9, 0⟩
      ∧ ((trying .aborting .abort 0).payLine 3).record 9 = some (att .aborting))
    ∧ (((crowded .sent .authorization 0).payLine 3).exchange = some ⟨.authorization, 9, 0⟩
      ∧ ((crowded .sent .authorization 0).payLine 3).record 9 = some (att .sent)
      ∧ (crowded .sent .authorization 0).basket 0 5 = some paying
      ∧ 4 ≤ ((crowded .sent .authorization 0).payLine 3).queue.length
      ∧ ((crowded .sent .authorization 0).payLine 3).reversal 9 = none)
    ∧ ((crowded .accepted .authorization 0).payLine 3).record 9 = some (att .accepted)
    ∧ (((crowded .aborting .abort 0).payLine 3).exchange = some ⟨.abort, 9, 0⟩
      ∧ ((crowded .aborting .abort 0).payLine 3).record 9 = some (att .aborting))
    ∧ (house.payLine 3).exchange = none := by decide +kernel
/-- A pay line with one reversal tied to no basket, its interval at `n`. -/
def reversing (attempts n : Nat) : State :=
  atTill (bk .opened) ⟨some ⟨.reversal, 8, n⟩, [], [⟨8, 500, none, attempts, none⟩], 0⟩
/-- The basket of attempt 9 waiting in REVERSING, its reversal at the head with `attempts` made, the line's exchange as
given. -/
def tied (e : Option Exchange) (attempts : Nat) : State :=
  atTill { paying with state := .reversing }
    ⟨e, [att .timedOut], [⟨9, tly.total, none, attempts, some (0, 5)⟩], 0⟩
theorem hyps_ReversalsAreConfirmedOrRetried :
    ((reversing 0 3).quiet = true ∧ ((reversing 0 3).payLine 3).reversal 8 = some ⟨8, 500, none, 0, none⟩
      ∧ ((reversing 0 3).payLine 3).exchange = some ⟨.reversal, 8, 3⟩)
    ∧ ((tied (some ⟨.reversal, 9, 3⟩) 0).quiet = true
      ∧ ((tied (some ⟨.reversal, 9, 3⟩) 0).payLine 3).reversal 9 = some ⟨9, tly.total, none, 0, some (0, 5)⟩
      ∧ (tied (some ⟨.reversal, 9, 3⟩) 0).basket 0 5 = some { paying with state := .reversing })
    ∧ (tied (some ⟨.authorization, 7, 3⟩) 0).quiet = true
    ∧ (let s := atTill (bk .opened) ⟨some ⟨.reversal, 1, 5⟩, [], fullQueue, 0⟩
      s.quiet = true ∧ (s.payLine 3).reversal 4 = some ⟨4, 500, none, 0, none⟩
        ∧ (s.payLine 3).exchange = some ⟨.reversal, 1, 5⟩ ∧ ¬ (ExchangeKind.reversal = .reversal ∧ 1 = 4))
    ∧ (((reversing 4 0).payLine 3).exchange = some ⟨.reversal, 8, 0⟩
      ∧ ((reversing 4 0).payLine 3).queue = ⟨8, 500, none, 4, none⟩ :: []
      ∧ min (4 + 1) 65535 < 2 * (reversing 4 0).params.reversalLimit)
    ∧ (((reversing 5 0).payLine 3).queue = ⟨8, 500, none, 5, none⟩ :: [] ∧ (reversing 5 0).params.reversalLimit ≠ 0
      ∧ 2 * (reversing 5 0).params.reversalLimit ≤ min (5 + 1) 65535)
    ∧ (((tied (some ⟨.reversal, 9, 0⟩) 5).payLine 3).exchange = some ⟨.reversal, 9, 0⟩
      ∧ ((tied (some ⟨.reversal, 9, 0⟩) 5).payLine 3).queue = ⟨9, tly.total, none, 5, some (0, 5)⟩ :: []
      ∧ (tied (some ⟨.reversal, 9, 0⟩) 5).basket 0 5 = some { paying with state := .reversing }
      ∧ (tied (some ⟨.reversal, 9, 0⟩) 5).params.doubtPolicy = .keep)
    ∧ (house.quiet = true ∧ (house.payLine 3).reversal 8 = none) := by decide +kernel

-- ## Hypotheses met: prices

/-- STAGED with the whole set of `priceSet`. -/
def wholeStage : Staged :=
  ⟨some priceSet.base, some priceSet.surcharges, some priceSet.combos, some priceSet.rates, false⟩
/-- The house with banks as given and a whole set staged. -/
def staging (active retained : Option Bank) : State :=
  { house with prices := ⟨active, retained, wholeStage, .manual, 2⟩ }
theorem hyps_StagedPricesAreKept :
    (Heard (.stagePrices .office 1 4 [4, 30, 250]) .office (rep 0x24) house
      ∧ (match readPart 4 [4, 30, 250] with
        | some p => p.inRange && (house.prices.staged.store p).state == .part
        | none => false) = true
      ∧ house.prices.staged.waiting = false ∧ house.prices.mode ≠ .onLastPart)
    ∧ (let s := { house with prices := { house.prices with
        staged := { wholeStage with rates := none }, mode := .onLastPart } }
      Heard (.stagePrices .office 1 4 [4, 30, 250]) .office (rep 0x24) s ∧ s.prices.staged.waiting = false
        ∧ s.prices.staged.state ≠ .complete
        ∧ (match readPart 4 [4, 30, 250] with
          | some p => (s.prices.staged.store p).state == .complete && (s.prices.staged.store p).whole.isSome
          | none => false) = true)
    ∧ (Heard (.setApplyMode .office 1 3 0) .office (rep 0x25) (staging none none)
      ∧ (staging none none).prices.staged.state = .complete ∧ wholeStage.whole = some priceSet)
    ∧ (Heard (.setApplyMode .office 1 2 2879) .office (rep 0x25) house ∧ (2879 : BitVec 16).toNat ≤ 2879)
    ∧ (Heard (.setApplyMode .office 1 3 0) .office (rep 0x25) house ∧ house.prices.staged.state ≠ .complete)
    ∧ Heard (.clearStaged .office 1) .office (rep 0x27) house := by
  unfold Heard
  constructorm* _ ∧ _ <;> decide +kernel
/-- A timed price set whose minute the next second reaches. -/
theorem hyps_TimedActivation :
    let s := { staging none none with
      clock := { house.clock with value := 50039 }
      prices := { (staging none none).prices with mode := .atMinute 834 } }
    s.quiet = true ∧ s.clock.isSet = true ∧ s.clock.value / 60 < (s.clock.value + 1) / 60
      ∧ s.prices.staged.state = .complete ∧ s.prices.staged.whole = some priceSet
      ∧ 834 * 60 ≤ s.clock.value + 1 := by decide +kernel
/-- A basket of generation 1 that has expired, generation 2 ACTIVE with `n` baskets, and a set that waits. -/
def deferred (n : Nat) : State :=
  { queued { tallied with state := .ending, endReason := some .expired, hold := .absent } (.releaseBasket 0 5 7) with
    prices := ⟨some ⟨priceSet, 2, n⟩, some ⟨priceSet, 1, 1⟩, { wholeStage with waiting := true }, .manual, 3⟩ }
theorem hyps_AppliedPricesComeIntoForce :
    (Heard (.applyPrices .office 1) .office (rep 0x26) (staging none none) ∧ wholeStage.whole = some priceSet
      ∧ wholeStage.waiting = false)
    ∧ Heard (.applyPrices .office 1) .office (rep 0x26) (staging (some ⟨priceSet, 1, 0⟩) none)
    ∧ Heard (.applyPrices .office 1) .office (rep 0x26) (staging (some ⟨priceSet, 1, 1⟩) none)
    ∧ Heard (.applyPrices .office 1) .office (rep 0x26) (staging (some ⟨priceSet, 2, 1⟩) (some ⟨priceSet, 1, 1⟩))
    ∧ (Heard (.applyPrices .office 1) .office (rep 0x26) house ∧ house.prices.staged.whole = none
      ∧ house.prices.staged.waiting = false)
    ∧ (Heard (.applyPrices .office 1) .office (rep 0x26) (deferred 1)
      ∧ (deferred 1).prices.staged.waiting = true ∧ (deferred 1).prices.retained = some ⟨priceSet, 1, 1⟩)
    ∧ (∀ n ∈ [0, 1], Takes (.releaseBasket 0 5 7) (idleEngine 8) (deferred n)
      ∧ ((deferred n).basket 0 5).map (·.generation) = some 1
      ∧ (∀ k, (deferred n).prices.active = some k → k.generation ≠ 1)
      ∧ (deferred n).prices.staged.whole = some priceSet) := by
  unfold Heard Takes
  refine ⟨by decide +kernel, by decide +kernel, by decide +kernel, by decide +kernel, by decide +kernel,
    by decide +kernel, ?_⟩
  intro n h
  simp only [List.mem_cons, List.not_mem_nil, or_false] at h
  obtain rfl | rfl := h <;>
    exact ⟨by decide +kernel, by decide +kernel, fun k h => by cases h; decide, by decide +kernel⟩

-- ## Hypotheses met: sales, vouchers, printing

theorem hyps_RefundQuotesRun :
    (Heard (.refundQuote .office 1 40) .office (rep 0x2C) (sold sale40 .issued)
      ∧ (sold sale40 .issued).sale 40 = some sale40 ∧ sale40.state = .committed ∧ sale40.jobLive = false
      ∧ (sold sale40 .issued).clock.value
        < ((sold sale40 .issued).startOf 7 - (sold sale40 .issued).params.refundCutoff) * 60)
    ∧ (Heard (.refundCommit .office 1 40 0x1962) .office (rep 0x2D) (sold (quoted none 9) .suspended)
      ∧ (sold (quoted none 9) .suspended).sale 40 = some (quoted none 9) ∧ readAmount 0x1962 = some 1962)
    ∧ Heard (.refundCancel .office 1 40) .office (rep 0x2E) (sold (quoted none 9) .suspended)
    ∧ (sold (quoted none 0) .suspended).sale 40 = some (quoted none 0) := by unfold Heard; decide +kernel
/-- Station 1's last sale is sale 40. -/
def lastSale (n : Nat) : State :=
  { sold sale40 .issued with sales := { (sold sale40 .issued).sales with
      last := (Tab.replicate 8 none).set 0 (some ⟨40, n⟩) } }
theorem hyps_ReprintsAskForAJob :
    (Heard (.reprint (.kiosk 2) 1 40 0xFE 0xFF 0) (.station 0) (krep 0x2F) (lastSale 600)
      ∧ readLine 0xFF ≠ none ∧ (lastSale 600).sale 40 = some sale40
      ∧ ((lastSale 600).sales.last.get 0).map (·.number) = some 40
      ∧ (lastSale 600).binding 0 = some ⟨2, 3, 1⟩ ∧ (∀ i ∈ List.range 1, i < sale40.tickets.length)
      ∧ (∀ u ∈ sale40.tickets, u.state ≠ .printed))
    ∧ (Heard (.reprint .office 1 40 0 0x20 1) .office (rep 0x2F) (lastSale 600)
      ∧ (0x20 : Byte).toNat = 0x20 + (0 : Fin 8).val)
    ∧ (lastSale 0).sales.last.get 0 = some ⟨40, 0⟩ := by unfold Heard; decide +kernel
/-- The outcomes of a REPRINT: QUEUED on a line in IDLE that can be granted, WAITING behind an entry, NOT_QUEUED. -/
theorem hyps_ReprintOutcomes :
    (let s := (lastSale 600).withTicketLine 1 (tline .idle [])
     Heard (.reprint (.kiosk 2) 1 40 0xFE 0xFF 0) (.station 0) (krep 0x2F) s ∧ s.print.waiting = []
        ∧ (s.ticketLine 1).state = .idle ∧ s.print.order = []
        ∧ s.grantedSum + s.params.draws.get 1 ≤ s.params.budget
        ∧ (MakeUp.reprint (List.range 1)).count ≤ (indices 256).countP (fun e => (s.print.pool.get e).isNone))
    ∧ (Heard (.reprint (.kiosk 2) 1 40 0xFE 0xFF 0) (.station 0) (krep 0x2F) (lined 1 (lastSale 600))
      ∧ (lined 1 (lastSale 600)).print.waiting.length = 1)
    ∧ (Heard (.reprint (.kiosk 2) 1 40 0xFE 0xFF 0) (.station 0) (krep 0x2F) (lined 16 (lastSale 600))
      ∧ (lined 16 (lastSale 600)).print.waiting.length = 16) := by
  unfold Heard
  constructorm* _ ∧ _ <;> decide +kernel
theorem hyps_VouchersAndStockMove :
    (Heard (.redeem (.concession 0) 1 vcode) (.concession 0) (crep 0x34)
        { sold sale40 .issued with clock := { house.clock with value := 52200 } }
      ∧ readCode vcode = some 2140000575 ∧ checkAgrees 2140000575 = true
      ∧ ((sold sale40 .issued).startOf 7 - (sold sale40 .issued).params.windowBefore) * 60 ≤ 52200
      ∧ 1 ≤ ((sold sale40 .issued).vouchers.stock.get 1).outstanding)
    ∧ (Heard (.setStock .office 1 8 9999 1 9999) .office (rep 0x36) house ∧ (8 : Byte).toNat = (7 : Fin 8).val + 1)
    ∧ Heard (.clearTaken .office 1 0xFE) .office (rep 0x37) house := by unfold Heard; decide +kernel
/-- Every operator's case of the statement: the request, and a line in the state it asks for. -/
theorem hyps_OperatorRequestsMoveTheLine :
    (∀ st : List Job, st = [] →
      (press (tline .off st)).ticketLine 1 = tline .off st)
    ∧ Heard (.powerOn .office 1 0x21) .office (rep 0x3C) (press (tline .off []))
    ∧ Heard (.powerOn .office 1 0x21) .office (rep 0x3C) (press { tline .off [] with asserted := true })
    ∧ Heard (.powerOff .office 1 0x21) .office (rep 0x3D) (pressing (tline .printing [job true]))
    ∧ Heard (.powerOff .office 1 0x21) .office (rep 0x3D) (press (tline .off []))
    ∧ Heard (.stop .office 1 0x21) .office (rep 0x3E) (pressing (tline .printing [job true]))
    ∧ Heard (.stop .office 1 0x21) .office (rep 0x3E) (press (tline .idle []))
    ∧ Heard (.stop .office 1 0x21) .office (rep 0x3E) (press { tline .stopped [] with cause := some .jam })
    ∧ Heard (.halt .office 1 0x21) .office (rep 0x3F) (pressing (tline .printing [job true]))
    ∧ Heard (.halt .office 1 0x21) .office (rep 0x3F)
        (pressing { tline .stopped [job true] with cause := some .stop })
    ∧ Heard (.halt .office 1 0x21) .office (rep 0x3F) (press (tline .idle []))
    ∧ Heard (.halt .office 1 0x21) .office (rep 0x3F)
        (pressing { tline .resting [job false] with rest := some 2 })
    ∧ Heard (.halt .office 1 0x21) .office (rep 0x3F) (press (tline .halted []))
    ∧ Heard (.resume .office 1 0x21) .office (rep 0x40) (press (tline .halted []))
    ∧ (Heard (.resume .office 1 0x21) .office (rep 0x40) (press { tline .stopped [] with cause := some .powerCut })
      ∧ ∀ k, ((press { tline .stopped [] with cause := some .powerCut }).ticketLine k).cause ≠ some .overcurrent)
    ∧ Heard (.clear .office 1 0x21) .office (rep 0x41)
        (press { tline .stopped [] with cause := some .jam, capture := some ⟨.jam, none⟩ })
    ∧ Heard (.clear .office 1 0x21) .office (rep 0x41)
        (press { tline .stopped [] with cause := some .overcurrent, capture := some ⟨.overcurrent, none⟩ })
    ∧ (0x21 : Byte).toNat = 0x20 + (1 : Fin 8).val := by
  refine ⟨fun st h => by subst h; decide +kernel, ?_⟩
  unfold Heard
  constructorm* _ ∧ _ <;> decide +kernel
/-- The law of the arbiter holds where a line that prints, or stands at the head of the order, is taken from it while
another waits behind. -/
theorem hyps_OperatorRequestsRelease :
    (Heard (.powerOff .office 1 0x21) .office (rep 0x3D) (rivals (tline .printing [job true]))
      ∧ PowerLaw (rivals (tline .printing [job true])) ∧ (rivals (tline .printing [job true])).inFlight 1 = some 0)
    ∧ (Heard (.stop .office 1 0x21) .office (rep 0x3E) (rivals (tline .waitPower [job false]))
      ∧ PowerLaw (rivals (tline .waitPower [job false]))
      ∧ (rivals (tline .waitPower [job false])).print.order.head? = some 1)
    ∧ (Heard (.halt .office 1 0x21) .office (rep 0x3F) (rivals { tline .resting [job false] with rest := some 2 })
      ∧ PowerLaw (rivals { tline .resting [job false] with rest := some 2 })) := by
  unfold Heard PowerLaw
  constructorm* _ ∧ _ <;> decide +kernel
/-- A line cut for POWER_CUT with a job, none standing STOPPED for OVERCURRENT; and lines that wait already. -/
theorem hyps_LinesJoinTheOrder :
    (let s := pressing { tline .stopped [job false] with cause := some .powerCut }
     Heard (.resume .office 1 0x21) .office (rep 0x40) s
        ∧ ∀ k, ¬ ((s.ticketLine k).state = .stopped ∧ (s.ticketLine k).cause = some .overcurrent))
    ∧ (Heard (.powerOn .office 1 0x21) .office (rep 0x3C) (rivals (tline .off [job false]))
      ∧ (rivals (tline .off [job false])).print.order ≠ [])
    ∧ (let s := rivals { tline .resting [job false] with rest := some 0 }
      (s.ticketLine 1).state = .resting ∧ (s.ticketLine 1).rest = some 0 ∧ (s.ticketLine 1).queue ≠ []) := by
  unfold Heard
  constructorm* _ ∧ _ <;> decide +kernel
theorem hyps_LinesWithJobsWaitForPower :
    (Heard (.powerOn .office 1 0x21) .office (rep 0x3C) (pressing (tline .off [job false]))
      ∧ (pressing (tline .off [job false])).print.order = []
      ∧ (pressing (tline .off [job false])).grantedSum + (pressing (tline .off [job false])).params.draws.get 1
        ≤ (pressing (tline .off [job false])).params.budget
      ∧ (job false).next (pressing (tline .off [job false])).print.pool = some 0
      ∧ (match exec (.powerOn .office 1 0x21) (pressing (tline .off [job false])) with
        | .next t => (t.ticketLine 1).state == .printing
        | _ => false) = true)
    ∧ Heard (.resume .office 1 0x21) .office (rep 0x40) (pressing (tline .halted [job false]))
    ∧ ((pressing { tline .resting [job false] with rest := some 0 }).ticketLine 1).rest = some 0
    ∧ ({ pressing (tline .off [job false]) with
        params := { house.params with budget := 10 } }).params.budget
      < (pressing (tline .off [job false])).grantedSum + 20 := by
  unfold Heard; decide +kernel
/-- The last element of a job of sale 40 in flight on line 1, another job behind it as given. -/
def finishing (l : TicketLine) (rest : List Job) : State :=
  let s := pressing { l with queue := { job true with first := 1, remaining := 1 } :: rest }
  { s with
    sales := { SaleTable.reset with records := [{ sale40 with jobLive := true }] }
    print := { s.print with pool := (s.print.pool.set 0 (some ⟨.ticket, 40, 0, none, true, .waiting, []⟩)) } }
theorem hyps_PrintersReportAndFail :
    ((pressing (tline .printing [job true])).quiet = true
      ∧ (pressing (tline .printing [job true])).inFlight 1 = some 0
      ∧ ((pressing (tline .printing [job true])).ticketLine 1).queue = job true :: []
      ∧ 2 ≤ (job true).remaining ∧ (tline .printing [job true]).stopPending = false
      ∧ 0 + 1 < (pressing (tline .printing [job true])).params.restAfter
      ∧ (pressing (tline .printing [job true])).params.restAfter ≤ 32
      ∧ ({ job true with remaining := (job true).remaining - 1 } : Job).next
          (pressing (tline .printing [job true])).print.pool = some 1)
    ∧ (let s := finishing (tline .printing []) []
      s.quiet = true ∧ s.inFlight 1 = some 1 ∧ (s.sale 40).isSome = true ∧ s.print.waiting = []
        ∧ ((({ job true with first := 1, remaining := 1 } : Job).results 1 .printed s).filter
          (fun y => y.kind == .ticket)).length = 0)
    ∧ (let s := finishing (tline .printing []) [{ job false with remaining := 1 }]
      s.quiet = true ∧ s.inFlight 1 = some 1
        ∧ ({ job false with remaining := 1 } : Job).next s.print.pool = some 0
        ∧ (s.print.pool.get 0).isSome = true)
    ∧ ((finishing { tline .printing [] with stopPending := true } []).quiet = true
      ∧ (finishing { tline .printing [] with stopPending := true } []).inFlight 1 = some 1)
    ∧ ((finishing { tline .printing [] with haltPending := true } []).quiet = true
      ∧ (finishing { tline .printing [] with haltPending := true } []).inFlight 1 = some 1)
    ∧ ((finishing { tline .printing [] with sinceRest := 7 } []).quiet = true
      ∧ (finishing { tline .printing [] with sinceRest := 7 } []).params.restAfter ≤ min (7 + 1) 32
      ∧ (finishing { tline .printing [] with sinceRest := 7 } []).params.restTime ≠ 0)
    ∧ (house.quiet = true ∧ house.inFlight 1 = none)
    ∧ ((3 : Byte) ≠ 1 ∧ (3 : Byte) ≠ 2)
    ∧ ((press (tline .idle [])).quiet = true ∧ ((press (tline .idle [])).ticketLine 1).powered = true)
    ∧ ((press (tline .off [])).ticketLine 1).powered = false
    ∧ (((press (tline .idle [])).ticketLine 1).asserted = false
      ∧ ((press { tline .idle [] with asserted := true, filter := some 100 }).ticketLine 1).asserted = true)
    ∧ (let s := press { tline .idle [] with asserted := true, filter := some 100 }
      s.quiet = true ∧ (s.ticketLine 1).powered = true ∧ (s.ticketLine 1).filter = some 100 ∧ 100 ≤ 100 ∧ 99 < 100)
    ∧ (let s := press { tline .resting [] with rest := some 0 }
      (s.ticketLine 1).state = .resting ∧ (s.ticketLine 1).rest = some 0 ∧ (s.ticketLine 1).queue = []) := by
  decide +kernel

/-- The laws of the arbiter and of the pool hold where a line prints and another waits; the line is due to stop, to rest
for no time, or has its last element in flight; an entry waits that will fit; and both supply modes. -/
theorem hyps_PrintersReleaseGrants :
    (let s := rivals (tline .printing [job true])
     PowerLaw s ∧ PoolLaw s ∧ s.quiet = true ∧ s.inFlight 1 = some 0 ∧ 1 ∉ s.print.order)
    ∧ PowerLaw (rivals { tline .printing [job true] with stopPending := true })
    ∧ (let s := { rivals { tline .printing [job true] with sinceRest := 7 } with params :=
        { (rivals (tline .idle [])).params with restTime := 0 } }
      s.quiet = true ∧ s.inFlight 1 = some 0 ∧ s.params.restAfter ≠ 0 ∧ s.params.restAfter ≤ min (7 + 1) 32
        ∧ s.params.restTime = 0 ∧ PowerLaw s)
    ∧ (let s := lined 2 (finishing (tline .printing []) [])
      PowerLaw s ∧ s.quiet = true ∧ s.inFlight 1 = some 1
        ∧ (∀ w ∈ s.print.waiting, w.needed = w.makeUp.count ∧ 0 < w.needed) ∧ (s.sale 40).isSome = true)
    ∧ (let s := rivals { tline .printing [job true] with filter := some 100, asserted := true }
      s.params.supply = .individual ∧ PowerLaw s ∧ (s.ticketLine 1).powered = true
        ∧ PowerLaw { s with params := { s.params with supply := .ganged } }) := by
  unfold PowerLaw PoolLaw
  constructorm* _ ∧ _ <;> decide +kernel

-- ## Hypotheses met: stations, lines, levels, parameters, alarms

/-- The house with station 1 in a state. -/
def station1 (st : StationState) (b : Basket) : State :=
  { shop b with ifc := { (shop b).ifc with stations := (shop b).ifc.stations.set 0 ⟨some ⟨2, 3, 1⟩, st⟩ } }
theorem hyps_StationsAreBoundAndOpened :
    (Heard (.bindStation .office 1 8 7 0x17 0x27) .office (rep 0x44) house ∧ (8 : Byte).toNat = (7 : Fin 8).val + 1
      ∧ (house.ifc.stations.get 7).state = .unbound ∧ house.binding 0 = some ⟨2, 3, 1⟩
      ∧ (∀ m, m ≠ 0 → house.binding m = none)
      ∧ ((indices 8).countP (fun m => m != 7 && (house.binding m).any (fun b => b.ticket == 7))) < 2)
    ∧ (Heard (.unbind .office 1 1) .office (rep 0x45) (station1 .locked (bk .doubt))
      ∧ (station1 .locked (bk .doubt)).binding 0 = some ⟨2, 3, 1⟩)
    ∧ Heard (.openStation .office 1 1) .office (rep 0x46) (station1 .closing (bk .paying))
    ∧ (Heard (.closeStation .office 1 1) .office (rep 0x47) house ∧ house.stationBasket 0 = none)
    ∧ (Heard (.closeStation .office 1 1) .office (rep 0x47) (shop paying)
      ∧ (shop paying).stationBasket 0 = some (0, paying))
    ∧ (Heard (.closeStation .office 1 1) .office (rep 0x47) (shop tallied)
      ∧ (shop tallied).stationBasket 0 = some (0, tallied)) := by
  unfold Heard
  constructorm* _ ∧ _ <;> decide +kernel
/-- The last station leaves a ticket line that prints, that is OFF, or that another station keeps. -/
theorem hyps_StationsPowerDown :
    (let s := { rivals (tline .printing [job true]) with ifc := (station1 .locked (bk .doubt)).ifc }
     Heard (.unbind .office 1 1) .office (rep 0x45) s ∧ PowerLaw s ∧ s.binding 0 = some ⟨2, 3, 1⟩
        ∧ (∀ m, m ≠ 0 → s.binding m = none) ∧ (s.ticketLine 1).state ≠ .off
        ∧ Heard (.bindStation .office 1 1 2 0x13 0x27) .office (rep 0x44) s)
    ∧ ((station1 .locked (bk .doubt)).ticketLine 1).state = .off
    ∧ (let s := { house with ifc := { house.ifc with
        stations := (house.ifc.stations.set 0 ⟨some ⟨2, 3, 1⟩, .locked⟩).set 4 ⟨some ⟨5, 6, 1⟩, .opened⟩ } }
      Heard (.unbind .office 1 1) .office (rep 0x45) s ∧ s.binding 4 = some ⟨5, 6, 1⟩) := by
  unfold Heard PowerLaw
  constructorm* _ ∧ _ <;> decide +kernel
theorem hyps_LinksOpenAndCountsClear :
    (Heard (.openConcession .office 1 0x33) .office (rep 0x48) house ∧ (0x33 : Byte).toNat = 0x30 + (3 : Fin 4).val)
    ∧ Heard (.closeConcession .office 1 0x30) .office (rep 0x49) house
    ∧ Heard (.clearFrameCount .office 1 0xFE) .office (rep 0x4A) house
    ∧ (Heard (.clearFrameCount .office 1 0x40) .office (rep 0x4A) house ∧ (0x40 : Byte) = lineByte .ol) := by
  unfold Heard; decide +kernel
theorem hyps_LevelsAndParametersAreSet :
    (Heard (.setLevel .office 1 0x80 2) .office (rep 0x17) house ∧ readOwner 0x80 = some .office)
    ∧ (Heard (.setParam .office 1 20 0xFF 1 11) .office (rep 0x4F) house ∧ (20 : Byte) = BitVec.ofNat 8 20
      ∧ (20 ∈ numericParameters.map Prod.fst))
    ∧ (Heard (.setParam .office 1 17 0x27 1 41) .office (rep 0x4F) house
      ∧ ∀ k, (house.ticketLine k).state ≠ .printing)
    ∧ (Heard (.setParam .office 1 16 0xFF 1 19) .office (rep 0x4F) house ∧ (∀ i, house.params.draws.get i ≤ 20)
      ∧ house.params.draws.get 0 = 20)
    ∧ Heard (.setParam .office 1 18 0xFF 1 2) .office (rep 0x4F) house
    ∧ Heard (.setParam .office 1 10 0xFF 1 2) .office (rep 0x4F) house
    ∧ Heard (.setParam .office 1 21 0xFF 1 201) .office (rep 0x4F) house
    ∧ (Heard (.setParam .office 1 16 0xFF 1 100) .office (rep 0x4F) (pressing (tline .printing [job true]))
      ∧ ((pressing (tline .printing [job true])).ticketLine 1).state = .printing)
    ∧ (Heard (.setParam .office 1 1 0xFF 0 0) .office (rep 0x4F) house
      ∧ (namedParameter 1 0xFF).isSome = true) := by
  unfold Heard
  constructorm* _ ∧ _ <;> decide +kernel
theorem hyps_AlarmsAreEnabledAndAcknowledged :
    (Heard (.setAlarmEnable .office 1 0x3FF 1) .office (rep 0x4D) house ∧ (0x3FF : BitVec 16).toNat < 1024
      ∧ (0x3FF : BitVec 16) ≠ 0)
    ∧ (let s := { house with alarms := ⟨house.alarms.latched.set 3 true, house.alarms.enabled.set 3 false⟩ }
      Heard (.setAlarmEnable .office 1 8 1) .office (rep 0x4D) s ∧ s.alarms.latched.get 3 = true
        ∧ s.alarms.enabled.get 3 = false)
    ∧ Heard (.ackAlarms .office 1 1) .office (rep 0x4E) house
    ∧ (let s := ran .minutePulse (reading .track 43380 410)
      Heard (.ackAlarms .office 1 1) .office (rep 0x4E) s ∧ s.condition 0 = true ∧ s.alarms.enabled.get 0 = true)
    ∧ ((reading .track 43380 410).ifc.restart ≠ .due ∧ (reading .track 43380 410).quiet = true
      ∧ (reading .track 43380 410).alarms.latched.get 0 = false
      ∧ (reading .track 43380 410).alarms.enabled.get 0 = true
      ∧ (ran .minutePulse (reading .track 43380 410)).alarms.latched.get 0 = true) := by
  unfold Heard
  constructorm* _ ∧ _ <;> decide +kernel
end Sys2Proof.Tests
end

section
/-! PROOFS. REOPEN and EXTEND of a basket by its owner (R64, R66), on rules that serve every request naming a basket:
what R58 lets through, the state its block runs in, and what its answer leaves unchanged. -/

namespace Sys2Proof.Machine

-- ## Requests naming a basket (R58)

theorem readSlot_of_toNat {slot : Byte} {i : Fin 16} (h : slot.toNat = i.val) : readSlot slot = some i := by
  simp [readSlot, offset, h]

/-- The state a request runs in names the same basket of the same owner. -/
theorem Owned.hearing {who : Requester} {slot : Byte} {ref : BitVec 16} {j : Fin 16} {b : Basket} {s : State}
    (ho : Owned who slot ref j b s) (i : Instr) (r : Reply) :
    Owned who slot ref j b (Sys2Proof.Machine.hearing i r s) := by
  simpa only [Owned, hearing_baskets] using ho

/-- R58: past the checks stands the owner's basket, unless it is in ENDING. -/
theorem Owned.owned_eq {who : Requester} {slot : Byte} {ref : BitVec 16} {i : Fin 16} {b : Basket} {s : State}
    (ho : Owned who slot ref i b s) :
    s.owned who slot ref = if b.state = .ending then none else some (b.owner, i, b) := by
  obtain ⟨hslot, hget, href, hwho⟩ := ho
  have hbasket : s.basket i ref.toNat = some b := by simp [State.basket, hget, href]
  simp only [State.owned, hwho, readSlot_of_toNat hslot, hbasket]
  by_cases hb : b.state = .ending <;> simp [hb]

section
variable {i : Instr} {src : Link} {tag kind slot : Byte} {ref : BitVec 16} {who : Requester} {r : Reply} {s : State}
  {j : Fin 16} {b : Basket} {run : Reply → Owner → Fin 16 → Basket → State → State}

/-- A request that is heard and whose fields are well formed runs as its block has it (R162, R163). -/
theorem Heard.request_eq (h : Heard i who r s) (hi : requestOf i = some (src, tag, kind))
    (f : Requester → Reply → State → State) :
    request i src tag kind true f s = .next (latchAlarms (f who r (hearing i r s))) := by
  obtain ⟨hreq, hq, hw, ha⟩ := h
  obtain ⟨rfl, rfl, rfl⟩ : r.link = src ∧ r.tag = tag ∧ r.kind = kind := by simpa [hi, eq_comm] using hreq
  exact request_heard hq hw ha

/-- R58: the owner's request runs on its live basket. -/
theorem request_owned (h : Heard i who r s) (hi : requestOf i = some (src, tag, kind))
    (ho : Owned who slot ref j b s) (hb : b.state ≠ .ending) :
    request i src tag kind true (fun who r s => onOwned who r slot ref (run r) s) s
      = .next (latchAlarms (run r b.owner j b (hearing i r s))) := by
  rw [h.request_eq hi, onOwned, (ho.hearing i r).owned_eq, if_neg hb]

/-- R58: a basket in ENDING is no basket to its owner's requests. -/
theorem request_owned_ending (h : Heard i who r s) (hi : requestOf i = some (src, tag, kind))
    (ho : Owned who slot ref j b s) (hb : b.state = .ending) :
    request i src tag kind true (fun who r s => onOwned who r slot ref (run r) s) s
      = .next (latchAlarms (answer r .noSuch [] (hearing i r s))) := by
  rw [h.request_eq hi, onOwned, (ho.hearing i r).owned_eq, if_pos hb]

-- ## Answers

variable {result : Result} {fields : List Byte}

/-- A request whose run is its answer alone changes nothing. -/
theorem answers_unchanged (hx : exec i s = .next (latchAlarms (answer r result fields (hearing i r s)))) :
    ∃ t, Answers i r result fields [] s t :=
  ⟨_, answers_of hx (Only.refl _ _) (by simp) (by simp) (by simp)⟩

/-- A request whose run replaces a basket's record and answers changes that record alone. -/
theorem answers_putBasket
    (hx : exec i s = .next (latchAlarms (answer r result fields ((hearing i r s).putBasket j b)))) :
    ∃ t, Answers i r result fields [.baskets] s t ∧ t.baskets = s.baskets.set j (some b) := by
  have frame : Only [.choice, .baskets] (hearing i r s) ((hearing i r s).putBasket j b) :=
    (only_putBasket (by simp)).2 (Only.refl _ _)
  refine ⟨_, answers_of hx frame (by simp) (by simp) (by simp), ?_⟩
  rw [latchAlarms_baskets, ← hearing_baskets i r s]
  rfl

end

-- ## REOPEN (R64)

theorem exec_reopen (src : Link) (tag slot : Byte) (ref : BitVec 16) (s : State) :
    exec (.reopen src tag slot ref) s = execReopen src tag slot ref s := rfl

section
variable {src : Link} {tag slot : Byte} {ref : BitVec 16} {who : Requester} {r : Reply} {s : State} {i : Fin 16}
  {b : Basket}

theorem exec_reopen_opened (h : Heard (.reopen src tag slot ref) who r s) (ho : Owned who slot ref i b s)
    (hb : b.state = .opened) : exec (.reopen src tag slot ref) s
      = .next (latchAlarms (answer r .ok [] (hearing (.reopen src tag slot ref) r s))) := by
  rw [exec_reopen, execReopen, request_owned h rfl ho (by simp [hb])]
  simp only [hb]

theorem exec_reopen_tallied (h : Heard (.reopen src tag slot ref) who r s) (ho : Owned who slot ref i b s)
    (hb : b.state = .tallied) : exec (.reopen src tag slot ref) s
      = .next (latchAlarms (answer r .ok []
          ((hearing (.reopen src tag slot ref) r s).putBasket i b.reopened))) := by
  rw [exec_reopen, execReopen, request_owned h rfl ho (by simp [hb])]
  simp only [hb]

theorem exec_reopen_wrongState (h : Heard (.reopen src tag slot ref) who r s) (ho : Owned who slot ref i b s)
    (hb : b.state = .paying ∨ b.state = .reversing ∨ b.state = .doubt) : exec (.reopen src tag slot ref) s
      = .next (latchAlarms (answer r .wrongState [] (hearing (.reopen src tag slot ref) r s))) := by
  rw [exec_reopen, execReopen, request_owned h rfl ho (by rcases hb with hb | hb | hb <;> simp [hb])]
  rcases hb with hb | hb | hb <;> simp only [hb]

theorem exec_reopen_ending (h : Heard (.reopen src tag slot ref) who r s) (ho : Owned who slot ref i b s)
    (hb : b.state = .ending) : exec (.reopen src tag slot ref) s
      = .next (latchAlarms (answer r .noSuch [] (hearing (.reopen src tag slot ref) r s))) := by
  rw [exec_reopen, execReopen, request_owned_ending h rfl ho hb]

end

/-- Settles O39, state by state from what REOPEN runs to in each. -/
theorem reopenByState : Obligations.ReopenByState := by
  intro src tag slot ref who r s i b h ho
  refine ⟨fun hb => ?opened, fun hb => ?wrongState, fun hb => ?tallied, fun hb => ?ending⟩
  case opened => exact answers_unchanged (exec_reopen_opened h ho hb)
  case wrongState => exact answers_unchanged (exec_reopen_wrongState h ho hb)
  case tallied => exact answers_putBasket (exec_reopen_tallied h ho hb)
  case ending => exact answers_unchanged (exec_reopen_ending h ho hb)

-- ## EXTEND (R66)

theorem exec_extend (src : Link) (tag slot : Byte) (ref : BitVec 16) (s : State) :
    exec (.extend src tag slot ref) s = execExtend src tag slot ref s := rfl

/-- R66: the cap is 3,600 s for the office and 900 s for a station. -/
theorem holdCap_eq (o : Owner) : holdCap o = if o = .office then 3600 else 900 := by
  cases o <;> simp [holdCap]

section
variable {src : Link} {tag slot : Byte} {ref : BitVec 16} {who : Requester} {r : Reply} {s : State} {i : Fin 16}
  {b : Basket}

theorem exec_extend_unused (h : Heard (.extend src tag slot ref) who r s) (ho : Owned who slot ref i b s)
    (hb : b.state = .opened ∨ b.state = .tallied) (hf : b.extensionUsed = false) :
    exec (.extend src tag slot ref) s
      = .next (latchAlarms (answer r .ok (bytes2 (b.extended s.params.extension s.params.warningLead).hold.seconds)
          ((hearing (.extend src tag slot ref) r s).putBasket i
            (b.extended s.params.extension s.params.warningLead)))) := by
  rw [exec_extend, execExtend, request_owned h rfl ho (by rcases hb with hb | hb <;> simp [hb]),
    if_neg (by tauto), hf]
  simp only [hearing_params, Bool.false_eq_true, if_false]

theorem exec_extend_used (h : Heard (.extend src tag slot ref) who r s) (ho : Owned who slot ref i b s)
    (hb : b.state = .opened ∨ b.state = .tallied) (hf : b.extensionUsed = true) :
    exec (.extend src tag slot ref) s
      = .next (latchAlarms (answer r .limit [] (hearing (.extend src tag slot ref) r s))) := by
  rw [exec_extend, execExtend, request_owned h rfl ho (by rcases hb with hb | hb <;> simp [hb]),
    if_neg (by tauto), if_pos hf]

theorem exec_extend_wrongState (h : Heard (.extend src tag slot ref) who r s) (ho : Owned who slot ref i b s)
    (hb : b.state = .paying ∨ b.state = .reversing ∨ b.state = .doubt) :
    exec (.extend src tag slot ref) s
      = .next (latchAlarms (answer r .wrongState [] (hearing (.extend src tag slot ref) r s))) := by
  rw [exec_extend, execExtend, request_owned h rfl ho (by rcases hb with hb | hb | hb <;> simp [hb]),
    if_pos (by rcases hb with hb | hb | hb <;> simp [hb])]

theorem exec_extend_ending (h : Heard (.extend src tag slot ref) who r s) (ho : Owned who slot ref i b s)
    (hb : b.state = .ending) : exec (.extend src tag slot ref) s
      = .next (latchAlarms (answer r .noSuch [] (hearing (.extend src tag slot ref) r s))) := by
  rw [exec_extend, execExtend, request_owned_ending h rfl ho hb]

end

-- ## The hold countdown at a second tick (R17)

theorem Basket.ticked_hold_of_running {b : Basket} {n : Nat} (h : b.hold = .running n) :
    b.ticked.hold = .running (n - 1) := by simp [Basket.ticked, h]

@[simp] theorem holdWarning_baskets (i : Fin 16) (b : Basket) (s : State) :
    (holdWarning i b s).baskets = s.baskets :=
  (only_holdWarning (bs := [.lines]) (by simp)).2 (Only.refl _ s) .baskets (by simp)

@[simp] theorem spend_baskets (k : Nat) (s : State) : (s.spend k).baskets = s.baskets :=
  (only_spend (bs := [.choice]) (by simp)).2 (Only.refl _ s) .baskets (by simp)

/-- Marking baskets as warned, as they stand in `s`, leaves every hold countdown: the marks touch no other field. -/
theorem foldl_holdWarning_hold (s : State) (j : Fin 16) (l : List (Fin 16 × Basket))
    (hl : ∀ x ∈ l, s.baskets.get x.1 = some x.2) (u : State)
    (hu : (u.baskets.get j).map (·.hold) = (s.baskets.get j).map (·.hold)) :
    ((l.foldl (fun u x => holdWarning x.1 x.2 (u.putBasket x.1 { x.2 with warningSent := true })) u).baskets.get
      j).map (·.hold) = (s.baskets.get j).map (·.hold) := by
  induction l generalizing u with
  | nil => exact hu
  | cons x xs ih =>
    refine ih (fun y hy => hl y (List.mem_cons_of_mem x hy)) _ ?_
    have hx : s.baskets.get x.1 = some x.2 := hl x List.mem_cons_self
    by_cases hj : x.1 = j
    · subst hj; simp [hx]
    · simpa [hj] using hu

/-- R17: the tick takes one second off each hold countdown that runs. -/
theorem tickBaskets_hold (s : State) (i : Fin 16) :
    ((tickBaskets s).baskets.get i).map (·.hold) = (s.baskets.get i).map (fun b => b.ticked.hold) := by
  unfold tickBaskets
  dsimp only
  rw [foldl_holdWarning_hold { s with baskets := s.baskets.map (fun b => b.map Basket.ticked) }]
  · simp [Function.comp_def]
  · intro x hx
    exact (mem_liveBaskets _ x.1 x.2).1 (List.mem_of_mem_filter (arrangeFrom_subset _ _ _ x hx))
  · simp

/-- R17, R66: with nothing due, a second tick takes one second off a countdown that runs at `n`. -/
theorem exec_secondTick_hold {t : State} {i : Fin 16} {b : Basket} {n : Nat} (hq : t.quiet = true)
    (hb : t.baskets.get i = some b) (hn : b.hold = .running n) :
    ∃ u, exec .secondTick t = .next u ∧ (u.baskets.get i).map (·.hold) = some (.running (n - 1)) := by
  refine ⟨_, command_quiet hq secondTick, ?_⟩
  have hget : (tickClock (tickPrint (tickSales (tickPay t)))).baskets.get i = some b := hb
  rw [latchAlarms_baskets, secondTick, tickBaskets_hold, hget, Option.map_some,
    Basket.ticked_hold_of_running hn]

/-- Settles O40: EXTEND runs by the basket's state and flag, and a tick after it finds the new countdown running. -/
theorem extendByStateAndFlag : Obligations.ExtendByStateAndFlag := by
  intro src tag slot ref who r s i b h ho
  refine ⟨fun hb hf => ?unused, fun hb hf => ?used, fun hb => ?wrongState, fun hb => ?ending⟩
  case unused =>
    obtain ⟨t, hans, hset⟩ := answers_putBasket (exec_extend_unused h ho hb hf)
    rw [← holdCap_eq]
    have hget : t.baskets.get i = some (b.extended s.params.extension s.params.warningLead) := by
      rw [hset, Tab.get_set_self]
    exact ⟨t, _, rfl, hans, hset, fun hq => exec_secondTick_hold hq hget rfl⟩
  case used => exact answers_unchanged (exec_extend_used h ho hb hf)
  case wrongState => exact answers_unchanged (exec_extend_wrongState h ho hb)
  case ending => exact answers_unchanged (exec_extend_ending h ho hb)

end Sys2Proof.Machine
end

section
/-! PROOFS. The figures of a tally (R86 to R88): what each costs at most, by the ranges of the price set and the
lines, and the rounding of the tax portion. -/

namespace Sys2Proof.Machine

-- ## Seat lines (R86)

section
variable {p : PriceSet}

theorem PriceSet.basePrice_le {bound : Nat} (h : ∀ i, p.base.get i ≤ bound) (z : Zone) (t : TicketType) :
    p.basePrice z t ≤ bound := by
  cases t with
  | adult | child | senior => exact h _
  | companion => exact Nat.zero_le _

theorem PriceSet.surcharge_le {bound : Nat} (h : ∀ i, p.surcharges.classes.get i ≤ bound) (c : Class) :
    p.surcharge c ≤ bound := by
  cases c <;> exact h _

/-- A matinee reduction only lowers the price. -/
theorem PriceSet.linePrice_le_basePrice_add_surcharge (c : Class) (matinee : Bool) (z : Zone) (t : TicketType) :
    p.linePrice c matinee z t ≤ p.basePrice z t + p.surcharge c :=
  Nat.add_le_add_right (Nat.sub_le _ _) _

theorem PriceSet.linePrice_le {base surcharge : Nat} (hbase : ∀ i, p.base.get i ≤ base)
    (hsur : ∀ i, p.surcharges.classes.get i ≤ surcharge) (c : Class) (matinee : Bool) (z : Zone) (t : TicketType) :
    p.linePrice c matinee z t ≤ base + surcharge :=
  (p.linePrice_le_basePrice_add_surcharge c matinee z t).trans
    (Nat.add_le_add (p.basePrice_le hbase z t) (p.surcharge_le hsur c))

end

-- ## The group discount (R86, R88)

/-- Whether or not the threshold is met, the discount is at most the greatest percentage of the subtotal, rounded. -/
theorem Rates.discount_le {r : Rates} {percent : Nat} (h : r.percent ≤ percent) (n subtotal : Nat) :
    r.discount n subtotal ≤ (percent * subtotal + 50) / 100 := by
  unfold Rates.discount
  split
  case isTrue =>
    rw [Nat.mul_comm percent]
    exact Nat.div_le_div_right (Nat.add_le_add_right (Nat.mul_le_mul_left subtotal h) 50)
  case isFalse => exact Nat.zero_le _

-- ## Vouchers (R87)

/-- A charge whose bundle price is at most its combo price costs at most the combo price for each unit. -/
theorem VoucherCharge.sum_le {c : VoucherCharge} {price : Nat} (hbundle : c.bundlePrice ≤ price)
    (hcombo : c.comboPrice ≤ price) : c.sum ≤ (c.bundleUnits + c.comboUnits) * price := by
  rw [Nat.add_mul]
  exact Nat.add_le_add (Nat.mul_le_mul_left _ hbundle) (Nat.mul_le_mul_left _ hcombo)

/-- However many units are bundled, the vouchers cost at most the greatest price for each unit. -/
theorem chargeVouchers_sum_le {combos : Tab ComboPrice 8} {price : Nat}
    (h : ∀ i, (combos.get i).combo ≤ price ∧ (combos.get i).bundle ≤ (combos.get i).combo) (bundled : Nat)
    (vouchers : List VoucherLine) :
    ((chargeVouchers combos bundled vouchers).map VoucherCharge.sum).sum
      ≤ (vouchers.map (·.quantity)).sum * price := by
  induction vouchers generalizing bundled with
  | nil => exact Nat.zero_le _
  | cons l rest ih =>
    obtain ⟨hcombo, hbundle⟩ := h l.kind
    have hunits : min bundled l.quantity + (l.quantity - min bundled l.quantity) = l.quantity :=
      Nat.add_sub_cancel' (Nat.min_le_right _ _)
    simp only [chargeVouchers, List.map_cons, List.sum_cons, Nat.add_mul]
    exact Nat.add_le_add (Nat.le_trans (VoucherCharge.sum_le (hbundle.trans hcombo) hcombo)
      (Nat.mul_le_mul_right price hunits.le)) (ih _)

-- ## The tax portion (R88)

/-- Rounded half-up, from below: twice the tax portion exceeds twice the exact one by at most 1. -/
theorem taxPortion_mul_le (total r : Nat) :
    2 * taxPortion total r * (1000 + r) ≤ 2 * total * r + (1000 + r) := by
  have h : taxPortion total r * (2 * (1000 + r)) ≤ 2 * total * r + 1000 + r := Nat.div_mul_le_self _ _
  linarith

/-- Rounded half-up, from above: twice the tax portion falls short of twice the exact one by less than 1. -/
theorem lt_taxPortion_mul (total r : Nat) :
    2 * total * r < 2 * taxPortion total r * (1000 + r) + (1000 + r) := by
  have h : 2 * total * r + 1000 + r < 2 * (1000 + r) * (taxPortion total r + 1) :=
    Nat.lt_mul_div_succ _ (by omega)
  linarith

/-- X is at most a fifth of the total, rounded half-up: with r at most 250, r over 1000 + r is at most 1/5. -/
theorem taxPortion_le {total r : Nat} (h : r ≤ 250) : taxPortion total r ≤ (2 * total + 5) / 10 := by
  have hfifth : total * (5 * r) ≤ total * (1000 + r) := Nat.mul_le_mul_left total (by omega)
  have hx : (10 * taxPortion total r) * (1000 + r) ≤ (2 * total + 5) * (1000 + r) := by
    linarith [taxPortion_mul_le total r]
  have := Nat.le_of_mul_le_mul_right hx (by omega)
  omega

-- ## The tally (R88)

/-- Settles O38: each figure is bounded by the lemma on its own function, and the total by those of T and V. -/
theorem tallyFiguresWithinBounds : Obligations.TallyFiguresWithinBounds := by
  intro g p rows cls matinee lines vouchers hbase hsur _ hcombos hpercent htax hlines hvouchers t
  have hprices : ∀ n ∈ t.prices, n ≤ 59998 :=
    List.forall_mem_map.2 fun l _ => p.linePrice_le hbase hsur cls matinee (zoneAt rows l.row l.pos) l.type
  have hlength : t.prices.length ≤ 10 := by simpa [t, computeTally] using hlines
  have hsubtotal : t.subtotal ≤ 599980 := calc
    t.subtotal ≤ t.prices.length * 59998 := List.sum_le_card_nsmul _ _ hprices
    _ ≤ 10 * 59998 := Nat.mul_le_mul_right _ hlength
  have hdiscount : t.discount ≤ (30 * t.subtotal + 50) / 100 := Rates.discount_le hpercent _ _
  have hvoucher : t.voucherTotal ≤ 79992 :=
    (chargeVouchers_sum_le hcombos _ _).trans (Nat.mul_le_mul_right 9999 hvouchers)
  have htotal : t.total = t.subtotal - t.discount + t.voucherTotal := rfl
  have hportion : t.tax ≤ (2 * t.total + 5) / 10 := taxPortion_le htax
  exact ⟨hprices, rfl, hsubtotal, hdiscount, by omega, by omega, hvoucher, by omega, by omega, rfl,
    taxPortion_mul_le _ _, lt_taxPortion_mul _ _, by omega⟩

end Sys2Proof.Machine
end

section
/-! PROOFS. What each command can change: the pieces of the state its own effect touches, and the rule by which a
property that reads other pieces is kept by every step. -/

namespace Sys2Proof.Machine

-- ## Requests and steps of the arbiter

variable {bs : List Block} {s t : State}

@[simp] theorem only_hear {src : Link} {tag kind : Byte} {sized ok : Bool} {run : Requester → Reply → State → State}
    (h : [.lines, .outstanding] ⊆ bs) (hrun : ∀ who r u, Only bs u (run who r u)) :
    Only bs s (hear src tag kind sized ok run t) ↔ Only bs s t := by
  refine Only.absorb (List.Subset.refl bs) ?_
  have hlines : [Block.lines] ⊆ bs := fun b hb => h (by simp_all)
  have hout : [Block.outstanding] ⊆ bs := fun b hb => h (by simp_all)
  unfold hear
  split
  · simp [hlines]
  · dsimp only
    split
    · exact ((only_outstand hout).2 (Only.refl _ _)).trans (hrun _ _ _)
    · simp [hlines, hout]

@[simp] theorem only_arbitrate {run : Entry → Option (State → State)} (h : [.engine] ⊆ bs)
    (hrun : ∀ x f, run x = some f → ∀ u, Only bs u (f u)) : Only bs s (arbitrate run t) ↔ Only bs s t := by
  refine Only.absorb (List.Subset.refl bs) ?_
  unfold arbitrate
  split
  · simp
  · split
    · simp
    · split
      · simp
      · rename_i f hf
        exact ((only_engine h).2 (Only.refl _ t)).trans (hrun _ _ hf _)

/-- A request naming a basket changes what its run on that basket changes, or sends a refusal. -/
theorem only_onOwned {who : Requester} {r : Reply} {slot : Byte} {ref : BitVec 16}
    {f : Owner → Fin 16 → Basket → State → State} (h : [.lines] ⊆ bs) (hf : ∀ o i b u, Only bs u (f o i b u)) :
    Only bs s (onOwned who r slot ref f t) ↔ Only bs s t := by
  refine Only.absorb (List.Subset.refl bs) ?_
  unfold onOwned
  split
  · simp [h]
  · exact hf _ _ _ _

theorem only_onNamed {line : Fin 8} {n : Nat} {f : PayRecord → State → State} (h : [.pay] ⊆ bs)
    (hf : ∀ r u, Only bs u (f r u)) : Only bs s (onNamed line n f t) ↔ Only bs s t := by
  refine Only.absorb (List.Subset.refl bs) ?_
  unfold onNamed
  split
  · exact hf _ _
  · split <;> simp [h]

theorem only_onNamedLine {b : Byte} {r : Reply} {f : Fin 8 → State → State} (h : [.lines] ⊆ bs)
    (hf : ∀ i u, Only bs u (f i u)) : Only bs s (onNamedLine b r f t) ↔ Only bs s t := by
  refine Only.absorb (List.Subset.refl bs) ?_
  unfold onNamedLine
  split
  · simp [h]
  · exact hf _ _

theorem only_onNamedStation {b : Byte} {r : Reply} {f : Fin 8 → State → State} (h : [.lines] ⊆ bs)
    (hf : ∀ i u, Only bs u (f i u)) : Only bs s (onNamedStation b r f t) ↔ Only bs s t := by
  refine Only.absorb (List.Subset.refl bs) ?_
  unfold onNamedStation
  split
  · simp [h]
  · exact hf _ _

theorem only_onVoucher {c : BitVec 40} {r : Reply} {f : Voucher → State → State} (h : [.lines] ⊆ bs)
    (hf : ∀ v u, Only bs u (f v u)) : Only bs s (onVoucher c r f t) ↔ Only bs s t := by
  refine Only.absorb (List.Subset.refl bs) ?_
  unfold onVoucher
  repeat' split
  any_goals simp [h]
  exact hf _ _

-- ## The runs of the requests and entries

@[simp] theorem only_runOpenBasket {o : Owner} {r : Reply} {n : Nat} (h : [.baskets, .nextRef, .prices, .lines] ⊆ bs) :
    Only bs s (runOpenBasket o r n t) ↔ Only bs s t :=
  Only.absorb h (by unfold runOpenBasket; dsimp only; repeat' split
                    all_goals simp)

@[simp] theorem only_startAbort {i : Fin 16} {b : Basket} {r : Reply} {line : Fin 8} {x : PayRecord}
    (h : [.baskets, .pay, .lines] ⊆ bs) : Only bs s (startAbort i b r line x t) ↔ Only bs s t :=
  Only.absorb h (by simp [startAbort])

@[simp] theorem only_startPayment {i : Fin 16} {b : Basket} {r : Reply} {line : Fin 8} {n : Nat}
    (h : [.baskets, .pay, .lines, .sales] ⊆ bs) : Only bs s (startPayment i b r line n t) ↔ Only bs s t :=
  Only.absorb h (by simp [startPayment])

@[simp] theorem only_archiveScreening {n : Nat} (h : [.screenings, .sales, .vouchers] ⊆ bs) :
    Only bs s (archiveScreening n t) ↔ Only bs s t :=
  Only.absorb h ((show Only [.screenings, .sales, .vouchers] t (removeVouchers n (lapseScreening n t)) by simp).trans
    (by intro b hb; cases b <;> simp_all [Block.same, archiveScreening]))

@[simp] theorem only_closeRequest {l : Line} {f : Frame} (h : [.outstanding, .restart] ⊆ bs) :
    Only bs s (closeRequest l f t) ↔ Only bs s t :=
  Only.absorb h (by intro b hb; cases l <;> cases b <;> simp_all [Block.same, closeRequest])

@[simp] theorem only_discardFrame {l : Line} (h : [.lines] ⊆ bs) : Only bs s (discardFrame l t) ↔ Only bs s t :=
  Only.absorb h (by simp [discardFrame])

/-- A body whose length does not suit its kind is always turned away (check 3 of R162, check 4 of R163). -/
theorem admission_unsized (s : State) (src : Link) (tag kind : Byte) (who : Requester) :
    s.admission src tag kind false ≠ .admitted who := by
  cases src <;> simp only [State.admission] <;> repeat' split
  all_goals simp_all

@[simp] theorem only_hear_unsized {src : Link} {tag kind : Byte} {ok : Bool} {run : Requester → Reply → State → State}
    (h : [.lines] ⊆ bs) : Only bs s (hear src tag kind false ok run t) ↔ Only bs s t := by
  refine Only.absorb h ?_
  unfold hear
  split
  · simp
  · next hwho => exact absurd hwho (admission_unsized _ _ _ _ _)

@[simp] theorem only_dropDoubt {i : Fin 16} {n : Nat} (h : [.pay] ⊆ bs) :
    Only bs s (dropDoubt i n t) ↔ Only bs s t := Only.absorb h (by simp [dropDoubt])

@[simp] theorem only_resolveSold {i : Fin 16} {b : Basket} {d : Doubt} {r : Reply} {c : List Byte}
    (h : [.baskets, .engine, .sales, .pay, .lines] ⊆ bs) : Only bs s (resolveSold i b d r c t) ↔ Only bs s t :=
  Only.absorb h (by unfold resolveSold; repeat' split
                    all_goals simp)

@[simp] theorem only_resolveVoid {i : Fin 16} {b : Basket} {r : Reply} (h : [.baskets, .engine, .sales, .pay] ⊆ bs) :
    Only bs s (resolveVoid i b r t) ↔ Only bs s t := Only.absorb h (by simp [resolveVoid])

@[simp] theorem only_takeApproved {line : Fin 8} {c : List Byte} {n : Nat} {r : PayRecord} (h : outcomeBlocks ⊆ bs) :
    Only bs s (takeApproved line c n r t) ↔ Only bs s t :=
  Only.absorb h (by unfold takeApproved; repeat' split
                    all_goals simp)

@[simp] theorem only_powerUp {i : Fin 8} (h : [.print, .lines] ⊆ bs) : Only bs s (powerUp i t) ↔ Only bs s t :=
  Only.absorb h (by simp [powerUp])

@[simp] theorem only_stopNow {i : Fin 8} (h : [.print, .lines] ⊆ bs) : Only bs s (stopNow i t) ↔ Only bs s t :=
  Only.absorb h (by simp [stopNow])

@[simp] theorem only_haltNow {i : Fin 8} (h : [.print, .lines] ⊆ bs) : Only bs s (haltNow i t) ↔ Only bs s t :=
  Only.absorb h (by simp [haltNow])

@[simp] theorem only_resumeLine {i : Fin 8} (h : [.print, .lines] ⊆ bs) : Only bs s (resumeLine i t) ↔ Only bs s t :=
  Only.absorb h (by simp [resumeLine])

@[simp] theorem only_runReprint {who : Requester} {r : Reply} {line : Byte} {k : Sale} {named : List Nat}
    (h : [.print, .lines, .choice, .sales] ⊆ bs) : Only bs s (runReprint who r line k named t) ↔ Only bs s t :=
  Only.absorb h (by unfold runReprint; dsimp only; repeat' split
                    all_goals simp)

@[simp] theorem only_runHoldSeats {who : Owner} {r : Reply} {slot : Byte} {ref : BitVec 16} {ws : List SeatWish}
    {o : Byte} (h : [.screenings, .baskets, .lines] ⊆ bs) :
    Only bs s (runHoldSeats who r slot ref ws o t) ↔ Only bs s t :=
  Only.absorb h (by unfold runHoldSeats; dsimp only; repeat' split
                    all_goals simp)

@[simp] theorem only_runHoldBest {who : Owner} {r : Reply} {slot : Byte} {ref : BitVec 16} {n z : Byte}
    {ts : List Byte} {o : Byte} (h : [.engine, .lines] ⊆ bs) :
    Only bs s (runHoldBest who r slot ref n z ts o t) ↔ Only bs s t :=
  Only.absorb h (by unfold runHoldBest; dsimp only; repeat' split
                    all_goals simp)

@[simp] theorem only_runSearchEnd {q : Search} (h : [.screenings, .baskets, .lines] ⊆ bs) :
    Only bs s (runSearchEnd q t) ↔ Only bs s t :=
  Only.absorb h (by unfold runSearchEnd; dsimp only; repeat' split
                    all_goals simp)

@[simp] theorem only_runReleaseSeats {who : Owner} {r : Reply} {slot : Byte} {ref : BitVec 16} {xs : List SeatRef}
    (h : [.screenings, .baskets, .lines] ⊆ bs) : Only bs s (runReleaseSeats who r slot ref xs t) ↔ Only bs s t :=
  Only.absorb h (by unfold runReleaseSeats; dsimp only; repeat' split
                    all_goals simp)

@[simp] theorem only_runSetType {who : Owner} {r : Reply} {slot : Byte} {ref : BitVec 16} {x : SeatRef} {ty : Byte}
    (h : [.baskets, .lines] ⊆ bs) : Only bs s (runSetType who r slot ref x ty t) ↔ Only bs s t :=
  Only.absorb h (by unfold runSetType; dsimp only; repeat' split
                    all_goals simp)

@[simp] theorem only_runQueryMap {who : Owner} {r : Reply} {n : BitVec 16} {a b : Byte} (h : [.lines] ⊆ bs) :
    Only bs s (runQueryMap who r n a b t) ↔ Only bs s t :=
  Only.absorb h (by unfold runQueryMap; dsimp only; repeat' split
                    all_goals simp)

@[simp] theorem only_runFlip {a b : SeatState} {r : Reply} {n : BitVec 16} {xs : List SeatRef}
    (h : [.screenings, .lines] ⊆ bs) : Only bs s (runFlip a b r n xs t) ↔ Only bs s t :=
  Only.absorb h (by unfold runFlip; dsimp only; repeat' split
                    all_goals simp)

@[simp] theorem only_runReleaseBasket {i : Fin 16} {r n : Nat}
    (h : [.screenings, .baskets, .prices, .lines, .stations, .vouchers] ⊆ bs) :
    Only bs s (runReleaseBasket i r n t) ↔ Only bs s t :=
  Only.absorb h (by unfold runReleaseBasket; dsimp only; split <;> simp)

@[simp] theorem only_runSellBasket {i : Fin 16} {r n m : Nat}
    (h : [.screenings, .sales, .vouchers, .baskets, .prices, .lines, .stations, .print, .choice] ⊆ bs) :
    Only bs s (runSellBasket i r n m t) ↔ Only bs s t :=
  Only.absorb h (by unfold runSellBasket; split <;> simp)

@[simp] theorem only_runFreeSale {n m : Nat} (h : [.screenings, .sales, .vouchers, .lines] ⊆ bs) :
    Only bs s (runFreeSale n m t) ↔ Only bs s t :=
  Only.absorb h (by unfold runFreeSale; dsimp only; repeat' split
                    all_goals simp)

@[simp] theorem only_runRestore {r : Reply} {f : SaleFields} (h : [.screenings, .sales, .vouchers, .lines] ⊆ bs) :
    Only bs s (runRestore r f t) ↔ Only bs s t :=
  Only.absorb h (by unfold runRestore; dsimp only; repeat' split
                    all_goals simp)

@[simp] theorem only_offIfUnserved {o : Option Binding} (h : [.print, .lines] ⊆ bs) :
    Only bs s (offIfUnserved o t) ↔ Only bs s t :=
  Only.absorb h (by unfold offIfUnserved; repeat' split
                    all_goals simp)

@[simp] theorem only_bindStation {n : Fin 8} {b : Binding} (h : [.print, .lines, .stations] ⊆ bs) :
    Only bs s (bindStation n b t) ↔ Only bs s t := Only.absorb h (by simp [bindStation])

@[simp] theorem only_unbindStation {n : Fin 8} (h : [.print, .lines, .stations] ⊆ bs) :
    Only bs s (unbindStation n t) ↔ Only bs s t := Only.absorb h (by simp [unbindStation])

@[simp] theorem only_stationReady {n : Fin 8} (h : [.lines] ⊆ bs) :
    Only bs s (stationReady n t) ↔ Only bs s t := Only.absorb h (by unfold stationReady; split <;> simp)

@[simp] theorem only_closeStation {n : Fin 8} (h : [.baskets, .engine, .sales, .stations] ⊆ bs) :
    Only bs s (closeStation n t) ↔ Only bs s t :=
  Only.absorb h (by unfold closeStation; dsimp only; repeat' split
                    all_goals simp)

@[simp] theorem only_restart {x : Restart} (h : [.restart] ⊆ bs) :
    Only bs s { t with ifc := { t.ifc with restart := x } } ↔ Only bs s t :=
  Only.absorb h (by intro b hb; cases b <;> simp_all [Block.same])

@[simp] theorem only_setConcession {n : Fin 4} {on : Bool} (h : [.concessions] ⊆ bs) :
    Only bs s (setConcession n on t) ↔ Only bs s t :=
  Only.absorb h (by intro b hb; cases b <;> simp_all [Block.same, setConcession])

@[simp] theorem only_runRedeem {who : Requester} {r : Reply} {v : Voucher} (h : [.vouchers, .lines] ⊆ bs) :
    Only bs s (runRedeem who r v t) ↔ Only bs s t :=
  Only.absorb h (by unfold runRedeem; dsimp only; repeat' split
                    all_goals simp)

@[simp] theorem only_foldl_onLine {f : LineState → LineState} {ls : List Line} (h : [.lines] ⊆ bs) :
    Only bs s (ls.foldl (fun u l => u.onLine l f) t) ↔ Only bs s t :=
  Only.absorb h (Only.foldl _ (fun u l => by simp) _ _)

@[simp] theorem only_foldl_onStock {f : Stock → Stock} {ks : List (Fin 8)} (h : [.vouchers] ⊆ bs) :
    Only bs s (ks.foldl (fun u k => u.onStock k f) t) ↔ Only bs s t :=
  Only.absorb h (Only.foldl _ (fun u l => by simp) _ _)

end Sys2Proof.Machine
end

section
/-! PROOFS. The pieces of the state each command touches, and the forms a command of the model takes. -/

namespace Sys2Proof.Machine

/-- The pieces of the state a command's own effect may touch, beside the lines and, for a request, its becoming
outstanding; what was due before it and the alarms after it come on top. A reset, which puts
the whole state anew, is told apart. -/
def touches : Instr → List Block
  | .restart _ _ => [.restart]
  | .secondTick => [.baskets, .clock, .print, .sales, .pay, .choice]
  | .clockSecond | .minutePulse | .setTime _ _ _ => [.clock, .screenings, .vouchers, .prices, .choice]
  | .noPulseExpiry => [.clock]
  | .holdCountdownExpiry _ => [.baskets, .engine, .sales]
  | .acceptWaitExpiry _ | .authorizationWaitExpiry _ | .reversalIntervalExpiry _ | .approved _ _ _ _
  | .declined _ _ _ | .aborted _ _ | .reversed _ _ => [.baskets, .engine, .sales, .stations, .pay]
  | .refundQuoteExpiry _ => [.sales, .vouchers]
  | .reprintWindowExpiry _ => [.sales]
  | .printerRestExpiry _ | .filteredFault _ _ | .printerState _ _ => [.print]
  | .loadPlan _ _ _ | .planRow _ _ _ _ _ => [.plans]
  | .loadScreening _ _ _ | .setScreening _ _ _ _ | .setKioskSales _ _ _ _ | .closeScreening _ _ _ => [.screenings]
  | .archive _ _ _ => [.screenings, .sales, .vouchers]
  | .dayOpen _ _ _ => [.clock, .sales, .vouchers]
  | .setSync _ _ _ | .clearPulseCount _ _ => [.clock]
  | .seatRequestJoin _ _ _ | .setLevel _ _ _ _ | .holdBest | .queryMap | .restoreSale _ _ _ => [.engine]
  | .holdSeats | .bestBlockSearchEnd | .releaseSeats => [.engine, .screenings, .baskets]
  | .setType => [.engine, .baskets]
  | .blockSeats | .unblockSeats => [.engine, .screenings]
  | .releaseBasket => [.engine, .screenings, .baskets, .prices, .stations, .vouchers]
  | .sellBasket => [.engine, .screenings, .sales, .vouchers, .baskets, .prices, .stations, .print, .choice]
  | .freeSale | .restoreSeats => [.engine, .screenings, .sales, .vouchers]
  | .openBasket _ _ _ => [.baskets, .nextRef, .prices]
  | .addVoucher _ _ _ _ _ _ | .dropVoucher _ _ _ _ _ _ => [.baskets, .vouchers]
  | .tally _ _ _ _ | .reopen _ _ _ _ | .extend _ _ _ _ => [.baskets]
  | .cancel _ _ _ _ => [.baskets, .engine, .sales, .pay]
  | .pay _ _ _ _ _ => [.baskets, .pay, .sales]
  | .settle _ _ _ _ _ => [.baskets, .engine, .sales]
  | .accepted _ _ | .progress _ _ _ | .strayMessage _ _ => [.pay]
  | .stagePrices _ _ _ _ | .setApplyMode _ _ _ _ | .applyPrices _ _ | .clearStaged _ _ => [.prices]
  | .resolve _ _ _ _ _ _ => [.baskets, .engine, .sales, .pay]
  | .refundQuote _ _ _ | .refundCancel _ _ _ => [.sales, .vouchers]
  | .refundCommit _ _ _ _ => [.sales, .engine]
  | .reprint _ _ _ _ _ _ => [.print, .choice, .sales]
  | .redeem _ _ _ | .setStock _ _ _ _ _ _ | .clearTaken _ _ _ => [.vouchers]
  | .powerOn _ _ _ | .powerOff _ _ _ | .stop _ _ _ | .halt _ _ _ | .resume _ _ _ | .clear _ _ _ => [.print]
  | .elementDone _ _ _ => [.print, .choice, .sales]
  | .bindStation _ _ _ _ _ _ | .unbind _ _ _ => [.print, .stations]
  | .openStation _ _ _ => [.stations]
  | .closeStation _ _ _ => [.baskets, .engine, .sales, .stations]
  | .openConcession _ _ _ | .closeConcession _ _ _ => [.concessions]
  | .setAlarmEnable _ _ _ _ => [.enabled, .choice]
  | .ackAlarms _ _ _ => [.latched, .choice]
  | .setParam _ _ _ _ _ _ => [.params]
  | .frameSent _ => [.outstanding, .restart]
  | .powerOnReset | .resetPin | .restartReset | .badFrame _ | .frameGapTimeout _ _ | .queryScreening _ _ _ | .queryClock _ _ | .queryBasket _ _ _ _ _
  | .queryPrices _ _ _ | .querySale _ _ _ | .check _ _ _ | .queryVoucher _ _ _ | .queryStock _ _
  | .clearFrameCount _ _ _ | .queryLine _ _ _ | .frameByte _ _ | .unrecognisedRequest _ _ _ => []

/-- The form of a command's meaning, and what its own effect can change: a reset, an event of the part, a command of the
outside, or a request, which becomes outstanding before its run. -/
inductive Form (i : Instr) : Prop
  | reset (eq : ∀ s, exec i s = event id s ∨ ∃ cause, exec i s = event (resetPart cause) s)
  | event (f : State → State) (eq : ∀ s, exec i s = event f s) (only : ∀ s, Only (.lines :: touches i) s (f s))
  | command (f : State → State) (eq : ∀ s, exec i s = command f s) (only : ∀ s, Only (.lines :: touches i) s (f s))
  | request (src : Link) (tag kind : Byte) (ok : Bool) (run : Requester → Reply → State → State)
      (eq : ∀ s, exec i s = request i src tag kind ok run s)
      (only : ∀ who r s, Only (.lines :: touches i) s (run who r s))

theorem form_message {i : Instr} {l : Line} {f : State → State} (h : ∀ s, exec i s = message l i f s)
    (hf : ∀ s, Only (.lines :: touches i) s (f s)) : Form i :=
  .command _ h fun s => (show Only _ s (takeMessage l i s) by simp).trans (hf _)

theorem form_entry {i : Instr} {run : Entry → Option (State → State)}
    (h : ∀ s, exec i s = command (arbitrate run) s) (he : .engine ∈ touches i)
    (hrun : ∀ x f, run x = some f → ∀ s, Only (.lines :: touches i) s (f s)) : Form i :=
  .command _ h fun s => (only_arbitrate (by simp [he]) hrun).2 (Only.refl _ s)

end Sys2Proof.Machine
end

section
/-! PROOFS. Every command has one of the forms, and touches no other piece than its row names. -/

namespace Sys2Proof.Machine

theorem form_powerOnReset : Form .powerOnReset :=
  .reset fun _ => .inr ⟨_, rfl⟩

theorem form_resetPin : Form .resetPin :=
  .reset fun _ => .inr ⟨_, rfl⟩

theorem form_restart (src : Link) (tag : Byte) : Form (.restart src tag) :=
  .request _ _ _ _ _ (fun _ => rfl) fun who r s => by
    unfold touches
    dsimp only
    all_goals simp

theorem exec_restartReset (s : State) : exec .restartReset s = event expireRestart s := rfl

theorem form_restartReset : Form .restartReset :=
  .reset fun s => by
    by_cases h : s.ifc.restart = .due
    · exact .inr ⟨.restart, by rw [exec_restartReset, event, expireRestart, if_pos h, event]⟩
    · exact .inl (by rw [exec_restartReset, event, expireRestart, if_neg h, event, id])

theorem form_secondTick : Form .secondTick :=
  .command _ (fun _ => rfl) fun s => by
    unfold touches
    dsimp only
    all_goals simp

theorem form_clockSecond : Form .clockSecond :=
  .command _ (fun _ => rfl) fun s => by
    unfold touches
    dsimp only
    all_goals simp

theorem form_minutePulse : Form .minutePulse :=
  .command _ (fun _ => rfl) fun s => by
    unfold touches
    dsimp only
    all_goals simp

theorem form_noPulseExpiry : Form .noPulseExpiry :=
  .event _ (fun _ => rfl) fun s => by
    unfold touches
    simp

theorem form_holdCountdownExpiry (slot : Fin 16) : Form (.holdCountdownExpiry slot) :=
  .event _ (fun _ => rfl) fun s => by
    unfold touches
    simp

theorem form_acceptWaitExpiry (line : Fin 8) : Form (.acceptWaitExpiry line) :=
  .event _ (fun _ => rfl) fun s => by
    unfold touches
    simp

theorem form_authorizationWaitExpiry (line : Fin 8) : Form (.authorizationWaitExpiry line) :=
  .event _ (fun _ => rfl) fun s => by
    unfold touches
    simp

theorem form_reversalIntervalExpiry (line : Fin 8) : Form (.reversalIntervalExpiry line) :=
  .event _ (fun _ => rfl) fun s => by
    unfold touches
    simp

theorem form_refundQuoteExpiry (sale : Nat) : Form (.refundQuoteExpiry sale) :=
  .event _ (fun _ => rfl) fun s => by
    unfold touches
    simp

theorem form_reprintWindowExpiry (station : Fin 8) : Form (.reprintWindowExpiry station) :=
  .event _ (fun _ => rfl) fun s => by
    unfold touches
    simp

theorem form_printerRestExpiry (line : Fin 8) : Form (.printerRestExpiry line) :=
  .event _ (fun _ => rfl) fun s => by
    unfold touches
    simp

theorem form_filteredFault (line : Fin 8) (input : FaultInput) : Form (.filteredFault line input) :=
  .command _ (fun _ => rfl) fun s => by
    unfold touches
    dsimp only
    all_goals simp

theorem form_badFrame (line : Line) : Form (.badFrame line) :=
  .event _ (fun _ => rfl) fun s => by
    unfold touches
    simp

theorem exec_frameGapTimeout (line : Line) (gap : Nat) (s : State) : exec (.frameGapTimeout line gap) s
    = command (fun s =>
      if s.watched line ∧ Config.maxGap < gap ∧ (s.line line).receiver ≠ .hunting then discardFrame line s else s) s := rfl

theorem form_frameGapTimeout (line : Line) (gap : Nat) : Form (.frameGapTimeout line gap) :=
  .command _ (exec_frameGapTimeout line gap) fun s => by
    unfold touches
    dsimp only
    repeat' split
    all_goals simp

theorem form_loadPlan (src : Link) (tag : Byte) (fields : PlanFields) : Form (.loadPlan src tag fields) :=
  .request _ _ _ _ _ (fun _ => rfl) fun who r s => by
    unfold touches
    dsimp only
    repeat' split
    all_goals simp

theorem form_planRow (src : Link) (tag : Byte) (plan row : Byte) (cells : List Byte) : Form (.planRow src tag plan row cells) :=
  .request _ _ _ _ _ (fun _ => rfl) fun who r s => by
    unfold touches
    dsimp only
    repeat' split
    all_goals simp

theorem form_loadScreening (src : Link) (tag : Byte) (fields : ScreeningFields) : Form (.loadScreening src tag fields) :=
  .request _ _ _ _ _ (fun _ => rfl) fun who r s => by
    unfold touches
    dsimp only
    repeat' split
    all_goals simp

theorem form_setScreening (src : Link) (tag : Byte) (id : BitVec 16) (target : Byte) : Form (.setScreening src tag id target) :=
  .request _ _ _ _ _ (fun _ => rfl) fun who r s => by
    unfold touches
    dsimp only
    repeat' split
    all_goals simp

theorem form_setKioskSales (src : Link) (tag : Byte) (id : BitVec 16) (value : Byte) : Form (.setKioskSales src tag id value) :=
  .request _ _ _ _ _ (fun _ => rfl) fun who r s => by
    unfold touches
    dsimp only
    repeat' split
    all_goals simp

theorem form_closeScreening (src : Link) (tag : Byte) (id : BitVec 16) : Form (.closeScreening src tag id) :=
  .request _ _ _ _ _ (fun _ => rfl) fun who r s => by
    unfold touches
    dsimp only
    repeat' split
    all_goals simp

theorem form_archive (src : Link) (tag : Byte) (id : BitVec 16) : Form (.archive src tag id) :=
  .request _ _ _ _ _ (fun _ => rfl) fun who r s => by
    unfold touches
    dsimp only
    repeat' split
    all_goals simp

theorem form_queryScreening (src : Link) (tag : Byte) (id : BitVec 16) : Form (.queryScreening src tag id) :=
  .request _ _ _ _ _ (fun _ => rfl) fun who r s => by
    unfold touches
    dsimp only
    repeat' split
    all_goals simp

theorem form_dayOpen (src : Link) (tag : Byte) (fields : DayFields) : Form (.dayOpen src tag fields) :=
  .request _ _ _ _ _ (fun _ => rfl) fun who r s => by
    unfold touches
    dsimp only
    split
    · simp
    · split
      · simp
      · rw [only_answer (by simp)]
        exact (show Only [.clock, .sales, .vouchers] s (putClock fields.clock.toNat s) by simp).trans
          (by intro b hb; cases b <;> simp_all [Block.same]) |>.mono (by simp)

theorem form_setTime (src : Link) (tag : Byte) (clock : BitVec 24) : Form (.setTime src tag clock) :=
  .request _ _ _ _ _ (fun _ => rfl) fun who r s => by
    unfold touches
    dsimp only
    repeat' split
    all_goals simp

theorem form_setSync (src : Link) (tag : Byte) (mode : Byte) : Form (.setSync src tag mode) :=
  .request _ _ _ _ _ (fun _ => rfl) fun who r s => by
    unfold touches
    dsimp only
    repeat' split
    all_goals simp

theorem form_clearPulseCount (src : Link) (tag : Byte) : Form (.clearPulseCount src tag) :=
  .request _ _ _ _ _ (fun _ => rfl) fun who r s => by
    unfold touches
    dsimp only
    all_goals simp

theorem form_queryClock (src : Link) (tag : Byte) : Form (.queryClock src tag) :=
  .request _ _ _ _ _ (fun _ => rfl) fun who r s => by
    unfold touches
    dsimp only
    all_goals simp

theorem form_seatRequestJoin (src : Link) (tag : Byte) (request : SeatRequest) : Form (.seatRequestJoin src tag request) :=
  .request _ _ _ _ _ (fun _ => rfl) fun who r s => by
    unfold touches
    dsimp only
    repeat' split
    all_goals simp

theorem form_holdSeats : Form .holdSeats :=
  form_entry (fun _ => rfl) (by unfold touches; simp) fun x f hf s => by
    split at hf <;> cases hf
    unfold touches
    simp

theorem form_holdBest : Form .holdBest :=
  form_entry (fun _ => rfl) (by unfold touches; simp) fun x f hf s => by
    split at hf <;> cases hf
    unfold touches
    simp

theorem exec_bestBlockSearchEnd  (s : State) : exec .bestBlockSearchEnd s
    = command (fun s => match s.engine.search with
      | none => s
      | some q => runSearchEnd q { s with engine := { s.engine with search := none } }) s := rfl

theorem form_bestBlockSearchEnd : Form .bestBlockSearchEnd :=
  .command _ exec_bestBlockSearchEnd fun s => by
    unfold touches
    dsimp only
    repeat' split
    all_goals simp

theorem form_releaseSeats : Form .releaseSeats :=
  form_entry (fun _ => rfl) (by unfold touches; simp) fun x f hf s => by
    split at hf <;> cases hf
    unfold touches
    simp

theorem form_setType : Form .setType :=
  form_entry (fun _ => rfl) (by unfold touches; simp) fun x f hf s => by
    split at hf <;> cases hf
    unfold touches
    simp

theorem form_queryMap : Form .queryMap :=
  form_entry (fun _ => rfl) (by unfold touches; simp) fun x f hf s => by
    split at hf <;> cases hf
    unfold touches
    simp

theorem form_blockSeats : Form .blockSeats :=
  form_entry (fun _ => rfl) (by unfold touches; simp) fun x f hf s => by
    split at hf <;> cases hf
    unfold touches
    simp

theorem form_unblockSeats : Form .unblockSeats :=
  form_entry (fun _ => rfl) (by unfold touches; simp) fun x f hf s => by
    split at hf <;> cases hf
    unfold touches
    simp

theorem form_setLevel (src : Link) (tag : Byte) (requester level : Byte) : Form (.setLevel src tag requester level) :=
  .request _ _ _ _ _ (fun _ => rfl) fun who r s => by
    unfold touches
    dsimp only
    repeat' split
    all_goals simp

theorem form_releaseBasket : Form .releaseBasket :=
  form_entry (fun _ => rfl) (by unfold touches; simp) fun x f hf s => by
    split at hf <;> cases hf
    unfold touches
    simp

theorem form_sellBasket : Form .sellBasket :=
  form_entry (fun _ => rfl) (by unfold touches; simp) fun x f hf s => by
    split at hf <;> cases hf
    unfold touches
    simp

theorem form_freeSale : Form .freeSale :=
  form_entry (fun _ => rfl) (by unfold touches; simp) fun x f hf s => by
    split at hf <;> cases hf
    unfold touches
    simp

theorem form_restoreSeats : Form .restoreSeats :=
  form_entry (fun _ => rfl) (by unfold touches; simp) fun x f hf s => by
    split at hf <;> cases hf
    unfold touches
    simp

theorem form_openBasket (src : Link) (tag : Byte) (screening : BitVec 16) : Form (.openBasket src tag screening) :=
  .request _ _ _ _ _ (fun _ => rfl) fun who r s => by
    unfold touches
    dsimp only
    repeat' split
    all_goals simp

theorem form_addVoucher (src : Link) (tag : Byte) (slot : Byte) (ref : BitVec 16) (kind quantity : Byte) : Form (.addVoucher src tag slot ref kind quantity) :=
  .request _ _ _ _ _ (fun _ => rfl) fun who r s => by
    unfold touches
    dsimp only
    refine (only_onOwned (by simp) fun o i b s => ?_).2 (Only.refl _ s)
    repeat' split
    all_goals simp

theorem form_dropVoucher (src : Link) (tag : Byte) (slot : Byte) (ref : BitVec 16) (kind quantity : Byte) : Form (.dropVoucher src tag slot ref kind quantity) :=
  .request _ _ _ _ _ (fun _ => rfl) fun who r s => by
    unfold touches
    dsimp only
    refine (only_onOwned (by simp) fun o i b s => ?_).2 (Only.refl _ s)
    repeat' split
    all_goals simp

theorem form_tally (src : Link) (tag : Byte) (slot : Byte) (ref : BitVec 16) : Form (.tally src tag slot ref) :=
  .request _ _ _ _ _ (fun _ => rfl) fun who r s => by
    unfold touches
    dsimp only
    refine (only_onOwned (by simp) fun o i b s => ?_).2 (Only.refl _ s)
    repeat' split
    all_goals simp

theorem form_reopen (src : Link) (tag : Byte) (slot : Byte) (ref : BitVec 16) : Form (.reopen src tag slot ref) :=
  .request _ _ _ _ _ (fun _ => rfl) fun who r s => by
    unfold touches
    dsimp only
    refine (only_onOwned (by simp) fun o i b s => ?_).2 (Only.refl _ s)
    repeat' split
    all_goals simp

theorem form_extend (src : Link) (tag : Byte) (slot : Byte) (ref : BitVec 16) : Form (.extend src tag slot ref) :=
  .request _ _ _ _ _ (fun _ => rfl) fun who r s => by
    unfold touches
    dsimp only
    refine (only_onOwned (by simp) fun o i b s => ?_).2 (Only.refl _ s)
    repeat' split
    all_goals simp

theorem form_cancel (src : Link) (tag : Byte) (slot : Byte) (ref : BitVec 16) : Form (.cancel src tag slot ref) :=
  .request _ _ _ _ _ (fun _ => rfl) fun who r s => by
    unfold touches
    dsimp only
    refine (only_onOwned (by simp) fun o i b s => ?_).2 (Only.refl _ s)
    repeat' split
    all_goals simp

theorem form_pay (src : Link) (tag : Byte) (slot : Byte) (ref : BitVec 16) (amount : BitVec 32) : Form (.pay src tag slot ref amount) :=
  .request _ _ _ _ _ (fun _ => rfl) fun who r s => by
    unfold touches
    dsimp only
    refine (only_onOwned (by simp) fun o i b s => ?_).2 (Only.refl _ s)
    repeat' split
    all_goals simp

theorem form_settle (src : Link) (tag : Byte) (slot : Byte) (ref : BitVec 16) (line : Byte) : Form (.settle src tag slot ref line) :=
  .request _ _ _ _ _ (fun _ => rfl) fun who r s => by
    unfold touches
    dsimp only
    split
    · simp
    · refine (only_onOwned (by simp) fun o i b s => ?_).2 (Only.refl _ s)
      repeat' split
      all_goals simp

theorem form_queryBasket (src : Link) (tag : Byte) (slot refPresent : Byte) (ref : BitVec 16) : Form (.queryBasket src tag slot refPresent ref) :=
  .request _ _ _ _ _ (fun _ => rfl) fun who r s => by
    unfold touches
    dsimp only
    repeat' split
    all_goals simp

theorem form_accepted (line : Fin 8) (payRef : BitVec 16) : Form (.accepted line payRef) :=
  form_message (fun _ => rfl) fun s => by
    unfold touches
    dsimp only
    refine (only_onNamed (by simp) fun r s => ?_).2 (Only.refl _ s)
    repeat' split
    all_goals simp

theorem exec_progress (line : Fin 8) (payRef : BitVec 16) (stage : Byte) (s : State) : exec (.progress line payRef stage) s
    = message (.pl line) (.progress line payRef stage) (fun s => match readStage stage with
      | none => countStray line s
      | some st => onNamed line payRef.toNat (fun r s => match r.state with
          | .sent => progressRecord line r st (acceptRecord line r s)
          | .accepted => progressRecord line r st s
          | _ => s) s) s := rfl

theorem form_progress (line : Fin 8) (payRef : BitVec 16) (stage : Byte) : Form (.progress line payRef stage) :=
  form_message (exec_progress line payRef stage) fun s => by
    unfold touches
    dsimp only
    split
    · simp
    · refine (only_onNamed (by simp) fun r s => ?_).2 (Only.refl _ s)
      split <;> simp

theorem exec_approved (line : Fin 8) (payRef : BitVec 16) (code : List Byte) (amount : BitVec 32) (s : State) : exec (.approved line payRef code amount) s
    = message (.pl line) (.approved line payRef code amount) (fun s => match readAmount amount with
      | none => countStray line s
      | some a =>
        if code.length ≠ 6 ∨ !code.all printable then countStray line s
        else if ((s.payLine line).record payRef.toNat).isNone
            && ((s.payLine line).reversal payRef.toNat).isSome then lateApproval line payRef.toNat code a s
        else onNamed line payRef.toNat (takeApproved line code a) s) s := rfl

theorem form_approved (line : Fin 8) (payRef : BitVec 16) (code : List Byte) (amount : BitVec 32) : Form (.approved line payRef code amount) :=
  form_message (exec_approved line payRef code amount) fun s => by
    unfold touches
    dsimp only
    split
    · simp
    · split
      · simp
      · split
        · simp
        · exact (only_onNamed (by simp) fun r s => by simp).2 (Only.refl _ s)

theorem exec_declined (line : Fin 8) (payRef : BitVec 16) (reason : Byte) (s : State) : exec (.declined line payRef reason) s
    = message (.pl line) (.declined line payRef reason) (fun s =>
      if reason.toNat = 0 ∨ 15 < reason.toNat then countStray line s
      else onNamed line payRef.toNat (fun r s => match r.state with
        | .sent => declineRecord line r reason.toNat s
        | .accepted => declineRecord line r reason.toNat s
        | .aborting => abortAnswered line r (fun r => { r with state := .declined, reason := some reason.toNat }) s
        | _ => s) s) s := rfl

theorem form_declined (line : Fin 8) (payRef : BitVec 16) (reason : Byte) : Form (.declined line payRef reason) :=
  form_message (exec_declined line payRef reason) fun s => by
    unfold touches
    dsimp only
    split
    · simp
    · refine (only_onNamed (by simp) fun r s => ?_).2 (Only.refl _ s)
      split <;> simp

theorem form_aborted (line : Fin 8) (payRef : BitVec 16) : Form (.aborted line payRef) :=
  form_message (fun _ => rfl) fun s => by
    unfold touches
    dsimp only
    refine (only_onNamed (by simp) fun r s => ?_).2 (Only.refl _ s)
    repeat' split
    all_goals simp

theorem exec_reversed (line : Fin 8) (payRef : BitVec 16) (s : State) : exec (.reversed line payRef) s
    = message (.pl line) (.reversed line payRef) (fun s => match (s.payLine line).reversal payRef.toNat with
      | some r => confirmReversal line r s
      | none => if ((s.payLine line).record payRef.toNat).isSome then s else countStray line s) s := rfl

theorem form_reversed (line : Fin 8) (payRef : BitVec 16) : Form (.reversed line payRef) :=
  form_message (exec_reversed line payRef) fun s => by
    unfold touches
    dsimp only
    repeat' split
    all_goals simp

theorem form_strayMessage (line : Fin 8) (body : List Byte) : Form (.strayMessage line body) :=
  form_message (fun _ => rfl) fun s => by
    unfold touches
    dsimp only
    all_goals simp

theorem form_stagePrices (src : Link) (tag : Byte) (part : Byte) (fields : List Byte) : Form (.stagePrices src tag part fields) :=
  .request _ _ _ _ _ (fun _ => rfl) fun who r s => by
    unfold touches
    dsimp only
    repeat' split
    all_goals simp

theorem form_setApplyMode (src : Link) (tag : Byte) (mode : Byte) (minute : BitVec 16) : Form (.setApplyMode src tag mode minute) :=
  .request _ _ _ _ _ (fun _ => rfl) fun who r s => by
    unfold touches
    dsimp only
    repeat' split
    all_goals simp

theorem form_applyPrices (src : Link) (tag : Byte) : Form (.applyPrices src tag) :=
  .request _ _ _ _ _ (fun _ => rfl) fun who r s => by
    unfold touches
    dsimp only
    repeat' split
    all_goals simp

theorem form_clearStaged (src : Link) (tag : Byte) : Form (.clearStaged src tag) :=
  .request _ _ _ _ _ (fun _ => rfl) fun who r s => by
    unfold touches
    dsimp only
    all_goals simp

theorem form_queryPrices (src : Link) (tag : Byte) (bank : Byte) : Form (.queryPrices src tag bank) :=
  .request _ _ _ _ _ (fun _ => rfl) fun who r s => by
    unfold touches
    dsimp only
    repeat' split
    all_goals simp

theorem form_resolve (src : Link) (tag : Byte) (slot : Byte) (ref : BitVec 16) (verdict : Byte) (code : List Byte) : Form (.resolve src tag slot ref verdict code) :=
  .request _ _ _ _ _ (fun _ => rfl) fun who r s => by
    unfold touches
    dsimp only
    repeat' split
    all_goals simp

theorem form_refundQuote (src : Link) (tag : Byte) (sale : BitVec 24) : Form (.refundQuote src tag sale) :=
  .request _ _ _ _ _ (fun _ => rfl) fun who r s => by
    unfold touches
    dsimp only
    repeat' split
    all_goals simp

theorem form_refundCommit (src : Link) (tag : Byte) (sale : BitVec 24) (amount : BitVec 32) : Form (.refundCommit src tag sale amount) :=
  .request _ _ _ _ _ (fun _ => rfl) fun who r s => by
    unfold touches
    dsimp only
    repeat' split
    all_goals simp

theorem form_refundCancel (src : Link) (tag : Byte) (sale : BitVec 24) : Form (.refundCancel src tag sale) :=
  .request _ _ _ _ _ (fun _ => rfl) fun who r s => by
    unfold touches
    dsimp only
    repeat' split
    all_goals simp

theorem form_reprint (src : Link) (tag : Byte) (sale : BitVec 24) (set line override : Byte) : Form (.reprint src tag sale set line override) :=
  .request _ _ _ _ _ (fun _ => rfl) fun who r s => by
    unfold touches
    dsimp only
    repeat' split
    all_goals simp

theorem form_restoreSale (src : Link) (tag : Byte) (fields : SaleFields) : Form (.restoreSale src tag fields) :=
  .request _ _ _ _ _ (fun _ => rfl) fun who r s => by
    unfold touches
    dsimp only
    all_goals simp

theorem form_querySale (src : Link) (tag : Byte) (sale : BitVec 24) : Form (.querySale src tag sale) :=
  .request _ _ _ _ _ (fun _ => rfl) fun who r s => by
    unfold touches
    dsimp only
    repeat' split
    all_goals simp

theorem form_redeem (src : Link) (tag : Byte) (code : BitVec 40) : Form (.redeem src tag code) :=
  .request _ _ _ _ _ (fun _ => rfl) fun who r s => by
    unfold touches
    dsimp only
    refine (only_onVoucher (by simp) fun v s => ?_).2 (Only.refl _ s)
    all_goals simp

theorem form_check (src : Link) (tag : Byte) (code : BitVec 40) : Form (.check src tag code) :=
  .request _ _ _ _ _ (fun _ => rfl) fun who r s => by
    unfold touches
    dsimp only
    refine (only_onVoucher (by simp) fun v s => ?_).2 (Only.refl _ s)
    all_goals simp

theorem form_setStock (src : Link) (tag : Byte) (kind : Byte) (allotment : BitVec 16) (lowPresent : Byte) (low : BitVec 16) : Form (.setStock src tag kind allotment lowPresent low) :=
  .request _ _ _ _ _ (fun _ => rfl) fun who r s => by
    unfold touches
    dsimp only
    repeat' split
    all_goals simp

theorem form_clearTaken (src : Link) (tag : Byte) (kind : Byte) : Form (.clearTaken src tag kind) :=
  .request _ _ _ _ _ (fun _ => rfl) fun who r s => by
    unfold touches
    dsimp only
    repeat' split
    all_goals simp

theorem form_queryVoucher (src : Link) (tag : Byte) (code : BitVec 40) : Form (.queryVoucher src tag code) :=
  .request _ _ _ _ _ (fun _ => rfl) fun who r s => by
    unfold touches
    dsimp only
    refine (only_onVoucher (by simp) fun v s => ?_).2 (Only.refl _ s)
    all_goals simp

theorem form_queryStock (src : Link) (tag : Byte) : Form (.queryStock src tag) :=
  .request _ _ _ _ _ (fun _ => rfl) fun who r s => by
    unfold touches
    dsimp only
    all_goals simp

theorem form_powerOn (src : Link) (tag : Byte) (line : Byte) : Form (.powerOn src tag line) :=
  .request _ _ _ _ _ (fun _ => rfl) fun who r s => by
    unfold touches
    dsimp only
    refine (only_onNamedLine (by simp) fun i s => ?_).2 (Only.refl _ s)
    repeat' split
    all_goals simp

theorem form_powerOff (src : Link) (tag : Byte) (line : Byte) : Form (.powerOff src tag line) :=
  .request _ _ _ _ _ (fun _ => rfl) fun who r s => by
    unfold touches
    dsimp only
    refine (only_onNamedLine (by simp) fun i s => ?_).2 (Only.refl _ s)
    all_goals simp

theorem form_stop (src : Link) (tag : Byte) (line : Byte) : Form (.stop src tag line) :=
  .request _ _ _ _ _ (fun _ => rfl) fun who r s => by
    unfold touches
    dsimp only
    refine (only_onNamedLine (by simp) fun i s => ?_).2 (Only.refl _ s)
    repeat' split
    all_goals simp

theorem form_halt (src : Link) (tag : Byte) (line : Byte) : Form (.halt src tag line) :=
  .request _ _ _ _ _ (fun _ => rfl) fun who r s => by
    unfold touches
    dsimp only
    refine (only_onNamedLine (by simp) fun i s => ?_).2 (Only.refl _ s)
    repeat' split
    all_goals simp

theorem form_resume (src : Link) (tag : Byte) (line : Byte) : Form (.resume src tag line) :=
  .request _ _ _ _ _ (fun _ => rfl) fun who r s => by
    unfold touches
    dsimp only
    refine (only_onNamedLine (by simp) fun i s => ?_).2 (Only.refl _ s)
    repeat' split
    all_goals simp

theorem form_clear (src : Link) (tag : Byte) (line : Byte) : Form (.clear src tag line) :=
  .request _ _ _ _ _ (fun _ => rfl) fun who r s => by
    unfold touches
    dsimp only
    refine (only_onNamedLine (by simp) fun i s => ?_).2 (Only.refl _ s)
    all_goals simp

theorem exec_elementDone (line : Fin 8) (element result : Byte) (s : State) : exec (.elementDone line element result) s
    = message (.tl line) (.elementDone line element result) (fun s => match s.inFlight line, readElementResult result with
      | some e, some x => if e.val = element.toNat then completeElement line e x s else s
      | _, _ => s) s := rfl

theorem form_elementDone (line : Fin 8) (element result : Byte) : Form (.elementDone line element result) :=
  form_message (exec_elementDone line element result) fun s => by
    unfold touches
    dsimp only
    repeat' split
    all_goals simp

theorem exec_printerState (line : Fin 8) (status : Byte) (s : State) : exec (.printerState line status) s
    = message (.tl line) (.printerState line status) (fun s => match readStatus status with
      | none => s
      | some (st, fault) =>
        if (s.ticketLine line).powered then
          match fault with
          | none => s.onTicketLine line (fun l => { l with status := st })
          | some c => printerFault line c (s.onTicketLine line (fun l => { l with status := st }))
        else s) s := rfl

theorem form_printerState (line : Fin 8) (status : Byte) : Form (.printerState line status) :=
  form_message (exec_printerState line status) fun s => by
    unfold touches
    dsimp only
    split
    · simp
    · split
      · split <;> simp
      · simp

theorem form_bindStation (src : Link) (tag : Byte) (station kiosk pay ticket : Byte) : Form (.bindStation src tag station kiosk pay ticket) :=
  .request _ _ _ _ _ (fun _ => rfl) fun who r s => by
    unfold touches
    dsimp only
    repeat' split
    all_goals simp

theorem form_unbind (src : Link) (tag : Byte) (station : Byte) : Form (.unbind src tag station) :=
  .request _ _ _ _ _ (fun _ => rfl) fun who r s => by
    unfold touches
    dsimp only
    refine (only_onNamedStation (by simp) fun n s => ?_).2 (Only.refl _ s)
    repeat' split
    all_goals simp

theorem form_openStation (src : Link) (tag : Byte) (station : Byte) : Form (.openStation src tag station) :=
  .request _ _ _ _ _ (fun _ => rfl) fun who r s => by
    unfold touches
    dsimp only
    refine (only_onNamedStation (by simp) fun n s => ?_).2 (Only.refl _ s)
    repeat' split
    all_goals simp

theorem form_closeStation (src : Link) (tag : Byte) (station : Byte) : Form (.closeStation src tag station) :=
  .request _ _ _ _ _ (fun _ => rfl) fun who r s => by
    unfold touches
    dsimp only
    refine (only_onNamedStation (by simp) fun n s => ?_).2 (Only.refl _ s)
    repeat' split
    all_goals simp

theorem form_openConcession (src : Link) (tag : Byte) (line : Byte) : Form (.openConcession src tag line) :=
  .request _ _ _ _ _ (fun _ => rfl) fun who r s => by
    unfold touches
    dsimp only
    repeat' split
    all_goals simp

theorem form_closeConcession (src : Link) (tag : Byte) (line : Byte) : Form (.closeConcession src tag line) :=
  .request _ _ _ _ _ (fun _ => rfl) fun who r s => by
    unfold touches
    dsimp only
    repeat' split
    all_goals simp

theorem form_clearFrameCount (src : Link) (tag : Byte) (line : Byte) : Form (.clearFrameCount src tag line) :=
  .request _ _ _ _ _ (fun _ => rfl) fun who r s => by
    unfold touches
    dsimp only
    repeat' split
    all_goals simp

theorem form_queryLine (src : Link) (tag : Byte) (line : Byte) : Form (.queryLine src tag line) :=
  .request _ _ _ _ _ (fun _ => rfl) fun who r s => by
    unfold touches
    dsimp only
    repeat' split
    all_goals simp

theorem form_setAlarmEnable (src : Link) (tag : Byte) (set : BitVec 16) (value : Byte) : Form (.setAlarmEnable src tag set value) :=
  .request _ _ _ _ _ (fun _ => rfl) fun who r s => by
    unfold touches
    dsimp only
    repeat' split
    all_goals simp

theorem form_ackAlarms (src : Link) (tag : Byte) (set : BitVec 16) : Form (.ackAlarms src tag set) :=
  .request _ _ _ _ _ (fun _ => rfl) fun who r s => by
    unfold touches
    dsimp only
    repeat' split
    all_goals simp

theorem form_setParam (src : Link) (tag : Byte) (param line present : Byte) (value : BitVec 16) : Form (.setParam src tag param line present value) :=
  .request _ _ _ _ _ (fun _ => rfl) fun who r s => by
    unfold touches
    dsimp only
    repeat' split
    all_goals simp

theorem exec_frameByte (line : Line) (byte : Byte) (s : State) : exec (.frameByte line byte) s
    = command (fun s => if s.watched line then s.onLine line (receive line byte) else s) s := rfl

theorem form_frameByte (line : Line) (byte : Byte) : Form (.frameByte line byte) :=
  .command _ (exec_frameByte line byte) fun s => by
    unfold touches
    dsimp only
    repeat' split
    all_goals simp

theorem exec_frameSent (line : Line) (s : State) : exec (.frameSent line) s
    = command (fun s => match (s.line line).sending with
      | [] => s
      | f :: rest =>
        if f.closes then closeRequest line f (s.onLine line (fun r => { r with sending := rest }))
        else s.onLine line (fun r => { r with sending := rest })) s := rfl

theorem form_frameSent (line : Line) : Form (.frameSent line) :=
  .command _ (exec_frameSent line) fun s => by
    unfold touches
    dsimp only
    repeat' split
    all_goals simp

theorem exec_unrecognisedRequest (src : Link) (tag kind : Byte) (s : State) : exec (.unrecognisedRequest src tag kind) s
    = command (fun s => hear src tag (refusedKind kind) false true (fun _ _ s => s)
      (takeMessage src.line (.unrecognisedRequest src tag kind) s)) s := rfl

theorem form_unrecognisedRequest (src : Link) (tag kind : Byte) : Form (.unrecognisedRequest src tag kind) :=
  .command _ (exec_unrecognisedRequest src tag kind) fun s => by
    unfold touches
    dsimp only
    simp

/-- Every command has one of the three forms. -/
theorem exec_form : ∀ i : Instr, Form i
  | .powerOnReset => form_powerOnReset
  | .resetPin => form_resetPin
  | .restart _ _ => form_restart _ _
  | .restartReset => form_restartReset
  | .secondTick => form_secondTick
  | .clockSecond => form_clockSecond
  | .minutePulse => form_minutePulse
  | .noPulseExpiry => form_noPulseExpiry
  | .holdCountdownExpiry _ => form_holdCountdownExpiry _
  | .acceptWaitExpiry _ => form_acceptWaitExpiry _
  | .authorizationWaitExpiry _ => form_authorizationWaitExpiry _
  | .reversalIntervalExpiry _ => form_reversalIntervalExpiry _
  | .refundQuoteExpiry _ => form_refundQuoteExpiry _
  | .reprintWindowExpiry _ => form_reprintWindowExpiry _
  | .printerRestExpiry _ => form_printerRestExpiry _
  | .filteredFault _ _ => form_filteredFault _ _
  | .badFrame _ => form_badFrame _
  | .frameGapTimeout _ _ => form_frameGapTimeout _ _
  | .loadPlan _ _ _ => form_loadPlan _ _ _
  | .planRow _ _ _ _ _ => form_planRow _ _ _ _ _
  | .loadScreening _ _ _ => form_loadScreening _ _ _
  | .setScreening _ _ _ _ => form_setScreening _ _ _ _
  | .setKioskSales _ _ _ _ => form_setKioskSales _ _ _ _
  | .closeScreening _ _ _ => form_closeScreening _ _ _
  | .archive _ _ _ => form_archive _ _ _
  | .queryScreening _ _ _ => form_queryScreening _ _ _
  | .dayOpen _ _ _ => form_dayOpen _ _ _
  | .setTime _ _ _ => form_setTime _ _ _
  | .setSync _ _ _ => form_setSync _ _ _
  | .clearPulseCount _ _ => form_clearPulseCount _ _
  | .queryClock _ _ => form_queryClock _ _
  | .seatRequestJoin _ _ _ => form_seatRequestJoin _ _ _
  | .holdSeats => form_holdSeats
  | .holdBest => form_holdBest
  | .bestBlockSearchEnd => form_bestBlockSearchEnd
  | .releaseSeats => form_releaseSeats
  | .setType => form_setType
  | .queryMap => form_queryMap
  | .blockSeats => form_blockSeats
  | .unblockSeats => form_unblockSeats
  | .setLevel _ _ _ _ => form_setLevel _ _ _ _
  | .releaseBasket => form_releaseBasket
  | .sellBasket => form_sellBasket
  | .freeSale => form_freeSale
  | .restoreSeats => form_restoreSeats
  | .openBasket _ _ _ => form_openBasket _ _ _
  | .addVoucher _ _ _ _ _ _ => form_addVoucher _ _ _ _ _ _
  | .dropVoucher _ _ _ _ _ _ => form_dropVoucher _ _ _ _ _ _
  | .tally _ _ _ _ => form_tally _ _ _ _
  | .reopen _ _ _ _ => form_reopen _ _ _ _
  | .extend _ _ _ _ => form_extend _ _ _ _
  | .cancel _ _ _ _ => form_cancel _ _ _ _
  | .pay _ _ _ _ _ => form_pay _ _ _ _ _
  | .settle _ _ _ _ _ => form_settle _ _ _ _ _
  | .queryBasket _ _ _ _ _ => form_queryBasket _ _ _ _ _
  | .accepted _ _ => form_accepted _ _
  | .progress _ _ _ => form_progress _ _ _
  | .approved _ _ _ _ => form_approved _ _ _ _
  | .declined _ _ _ => form_declined _ _ _
  | .aborted _ _ => form_aborted _ _
  | .reversed _ _ => form_reversed _ _
  | .strayMessage _ _ => form_strayMessage _ _
  | .stagePrices _ _ _ _ => form_stagePrices _ _ _ _
  | .setApplyMode _ _ _ _ => form_setApplyMode _ _ _ _
  | .applyPrices _ _ => form_applyPrices _ _
  | .clearStaged _ _ => form_clearStaged _ _
  | .queryPrices _ _ _ => form_queryPrices _ _ _
  | .resolve _ _ _ _ _ _ => form_resolve _ _ _ _ _ _
  | .refundQuote _ _ _ => form_refundQuote _ _ _
  | .refundCommit _ _ _ _ => form_refundCommit _ _ _ _
  | .refundCancel _ _ _ => form_refundCancel _ _ _
  | .reprint _ _ _ _ _ _ => form_reprint _ _ _ _ _ _
  | .restoreSale _ _ _ => form_restoreSale _ _ _
  | .querySale _ _ _ => form_querySale _ _ _
  | .redeem _ _ _ => form_redeem _ _ _
  | .check _ _ _ => form_check _ _ _
  | .setStock _ _ _ _ _ _ => form_setStock _ _ _ _ _ _
  | .clearTaken _ _ _ => form_clearTaken _ _ _
  | .queryVoucher _ _ _ => form_queryVoucher _ _ _
  | .queryStock _ _ => form_queryStock _ _
  | .powerOn _ _ _ => form_powerOn _ _ _
  | .powerOff _ _ _ => form_powerOff _ _ _
  | .stop _ _ _ => form_stop _ _ _
  | .halt _ _ _ => form_halt _ _ _
  | .resume _ _ _ => form_resume _ _ _
  | .clear _ _ _ => form_clear _ _ _
  | .elementDone _ _ _ => form_elementDone _ _ _
  | .printerState _ _ => form_printerState _ _
  | .bindStation _ _ _ _ _ _ => form_bindStation _ _ _ _ _ _
  | .unbind _ _ _ => form_unbind _ _ _
  | .openStation _ _ _ => form_openStation _ _ _
  | .closeStation _ _ _ => form_closeStation _ _ _
  | .openConcession _ _ _ => form_openConcession _ _ _
  | .closeConcession _ _ _ => form_closeConcession _ _ _
  | .clearFrameCount _ _ _ => form_clearFrameCount _ _ _
  | .queryLine _ _ _ => form_queryLine _ _ _
  | .setAlarmEnable _ _ _ _ => form_setAlarmEnable _ _ _ _
  | .ackAlarms _ _ _ => form_ackAlarms _ _ _
  | .setParam _ _ _ _ _ _ => form_setParam _ _ _ _ _ _
  | .frameByte _ _ => form_frameByte _ _
  | .frameSent _ => form_frameSent _
  | .unrecognisedRequest _ _ _ => form_unrecognisedRequest _ _ _

end Sys2Proof.Machine
end

section
/-! PROOFS. The rule for a property that reads only some pieces of the state: what keeps it through a step. -/

namespace Sys2Proof.Machine

/-- The pieces of the state an event of the part may touch. -/
def Event.touches : Event → List Block
  | .frame _ => [.lines]
  | .noPulse => [.clock]
  | .hold _ => [.baskets, .engine, .sales]
  | .accept _ | .authorization _ | .interval _ => outcomeBlocks
  | .quote _ => [.sales, .vouchers, .lines]
  | .window _ => [.sales]
  | .rest _ => [.print, .lines]

theorem carryOut_only (e : Event) (s : State) : Only e.touches s (carryOut e s) := by
  cases e <;> simp [carryOut, Event.touches]

/-- A property reads no other piece of the state than those in `D`. -/
def Reads (D : List Block) (P : State → Prop) : Prop := ∀ s t, (∀ b ∈ D, b.same s t) → P s → P t

/-- What changes no piece a property reads keeps it. -/
theorem Reads.keeps {D fp : List Block} {P : State → Prop} (hP : Reads D P) {s t : State} (h : Only fp s t)
    (hd : ∀ b ∈ D, b ∉ fp) (hs : P s) : P t := hP s t (fun b hb => h b (hd b hb)) hs

/-- A property that reads the pieces in `D`, none of which alarms or free choices touch, and that every reset and every
event of the part keeps. -/
structure Lasting (D : List Block) (P : State → Prop) : Prop where
  reads : Reads D P
  apart : ∀ b ∈ D, b ∉ [Block.pending, .lines, .latched, .choice]
  reset : P State.reset
  events : ∀ e s, (∃ b ∈ D, b ∈ e.touches) → P s → P (carryOut e s)

namespace Lasting

variable {D : List Block} {P : State → Prop}

theorem keeps (k : Lasting D P) {fp : List Block} {s t : State} (h : Only fp s t)
    (hd : ∀ b ∈ D, b ∉ fp) (hs : P s) : P t := k.reads.keeps h hd hs

theorem latch (k : Lasting D P) {s : State} (hs : P s) : P (latchAlarms s) :=
  k.keeps (only_latch s) (fun b hb hm => k.apart b hb (by simp_all)) hs

theorem spend (k : Lasting D P) (n : Nat) {s : State} (hs : P s) : P (s.spend n) :=
  k.keeps (fp := [.choice]) ((only_spend (by simp)).2 (Only.refl _ s))
    (fun b hb hm => k.apart b hb (by simp_all)) hs

theorem pending (k : Lasting D P) (q : List Instr) {s : State} (hs : P s) : P { s with pending := q } :=
  k.keeps (fp := [.pending]) ((only_pending (by simp)).2 (Only.refl _ s))
    (fun b hb hm => k.apart b hb (by simp_all)) hs

theorem resetPart (k : Lasting D P) (c : StartCause) (s : State) : P (resetPart c s) := by
  have h : Only [.pending, .choice, .lines] State.reset (Sys2Proof.Machine.resetPart c s) := by
    unfold Sys2Proof.Machine.resetPart
    rw [only_notifyOffice (by simp)]
    intro b hb
    cases b <;> simp_all [Block.same]
  exact k.keeps h (fun b hb hm => k.apart b hb (by simp_all; tauto)) k.reset

theorem carryOut (k : Lasting D P) (e : Event) {s : State} (hs : P s) : P (carryOut e s) := by
  by_cases h : ∃ b ∈ D, b ∈ e.touches
  · exact k.events e s h hs
  · exact k.keeps (carryOut_only e s) (fun b hb hm => h ⟨b, hb, hm⟩) hs

/-- What is due is settled by events, each followed by the latching of alarms, or by a reset. -/
theorem settle (k : Lasting D P) {s : State} (hs : P s) : P s.settle := by
  unfold State.settle
  split
  · exact k.resetPart _ _
  · split
    · exact hs
    · refine List.foldlRecOn _ _ (k.spend _ hs) fun u hu e _ => ?_
      exact k.latch (k.carryOut e hu)

theorem event (k : Lasting D P) {f : State → State} {s t : State} (h : event f s = .next t) (hf : P s → P (f s))
    (hs : P s) : P t := by
  cases h
  exact k.latch (hf hs)

theorem command (k : Lasting D P) {f : State → State} {s t : State} (h : command f s = .next t)
    (hf : ∀ u, P u → P (f u)) (hs : P s) : P t := by
  cases h
  exact k.latch (hf _ (k.settle hs))

theorem takeMessage (k : Lasting D P) (l : Line) (i : Instr) {s : State} (hs : P s) : P (takeMessage l i s) :=
  k.keeps (fp := [.lines]) (by simp) (fun b hb hm => k.apart b hb (by simp_all)) hs

theorem message (k : Lasting D P) {l : Line} {i : Instr} {f : State → State} {s t : State}
    (h : message l i f s = .next t) (hf : ∀ u, P u → P (f u)) (hs : P s) : P t :=
  k.command h (fun _ hu => hf _ (k.takeMessage l i hu)) hs

theorem send (k : Lasting D P) {l : Line} {x : Frame} {s : State} (hs : P s) : P (send l x s) :=
  k.keeps (fp := [.lines]) (by simp) (fun b hb hm => k.apart b hb (by simp_all)) hs

theorem answer (k : Lasting D P) {r : Reply} {res : Result} {fs : List Byte} {s : State} (hs : P s) :
    P (answer r res fs s) := k.send hs

theorem request (k : Lasting D P) (ho : Block.outstanding ∉ D) {i : Instr} {src : Link} {tag kind : Byte} {ok : Bool}
    {run : Requester → Reply → State → State} {s t : State} (h : request i src tag kind ok run s = .next t)
    (hrun : ∀ who r u, P u → P (run who r u)) (hs : P s) : P t := by
  refine k.command h (fun u hu => ?_) hs
  unfold hear
  split
  · exact k.send (k.takeMessage _ _ hu)
  · have hout : P ((Sys2Proof.Machine.takeMessage src.line i u).outstand src ⟨kind, tag⟩) :=
      k.keeps (fp := [.outstanding]) ((only_outstand (by simp)).2 (Only.refl _ _)) (fun b hb hm => ho (by simp_all))
        (k.takeMessage _ _ hu)
    dsimp only
    split
    · exact hrun _ _ _ hout
    · exact k.answer hout

theorem arbitrate (k : Lasting D P) (he : Block.engine ∉ D) {run : Entry → Option (State → State)}
    (hrun : ∀ x f, run x = some f → ∀ u, P u → P (f u)) {s : State} (hs : P s) : P (arbitrate run s) := by
  unfold Sys2Proof.Machine.arbitrate
  split
  · exact hs
  · split
    · exact hs
    · split
      · exact hs
      · next x e _ _ f hf =>
        exact hrun _ _ hf _ (k.keeps (fp := [.engine]) (by simp) (fun b hb hm => he (by simp_all)) hs)

/-- A command that touches no piece the property reads keeps it. -/
theorem exec_apart (k : Lasting D P) (ho : Block.outstanding ∉ D) {i : Instr} (hi : ∀ b ∈ D, b ∉ touches i)
    {s t : State} (h : exec i s = .next t) (hs : P s) : P t := by
  have hfp : ∀ b ∈ D, b ∉ Block.lines :: touches i := fun b hb hm => by
    rcases List.mem_cons.1 hm with rfl | hm
    · exact k.apart _ hb (by simp)
    · exact hi b hb hm
  cases exec_form i with
  | reset eq =>
    rcases eq s with e | ⟨c, e⟩
    · exact k.event (e ▸ h) id hs
    · exact k.event (e ▸ h) (fun _ => k.resetPart c s) hs
  | event f eq only => exact k.event (eq s ▸ h) (k.keeps (only s) hfp) hs
  | command f eq only => exact k.command (eq s ▸ h) (fun u => k.keeps (only u) hfp) hs
  | request src tag kind ok run eq only =>
    exact k.request ho (eq s ▸ h) (fun who r u => k.keeps (only who r u) hfp) hs

/-- A property is kept by every step where the commands that touch what it reads keep it, and the idle step does. -/
theorem step (k : Lasting D P) (hidle : ∀ s, P s → P (idle s)) (hexec : ∀ i s t, exec i s = .next t → P s → P t)
    {s t : State} (hs : P s) (h : step s = .next t) : P t := by
  unfold Sys2Proof.Machine.step at h
  split at h
  · cases h
    exact hidle s hs
  · exact hexec _ _ _ h (k.pending _ hs)

/-- The idle step touches the clock alone. -/
theorem idle_only (s : State) : Only [.clock] s (Sys2Proof.Machine.idle s) := by
  unfold Sys2Proof.Machine.idle
  split <;> simp

theorem idle (k : Lasting D P) (hc : Block.clock ∉ D) (s : State) (hs : P s) : P (idle s) :=
  k.keeps (idle_only s) (fun b hb hm => hc (by simp_all)) hs

end Lasting

end Sys2Proof.Machine
end

section
/-! PROOFS. The clock, the parameters and the sizes of tables and queues (R7, R19, R20, R103, R141, R142, R146, R154,
R163, R176): every step keeps them in their ranges. -/

namespace Sys2Proof.Machine

-- ## The clock (R19, R20)

/-- The law of R19 and R20 of a clock. -/
def Clock.lawful (c : Clock) : Prop :=
  c.value ≤ 172799 ∧ c.fraction ≤ 999 ∧ (c.value = 172799 → c.fraction = 0)

theorem clockLaw_iff (s : State) : ClockLaw s ↔ s.clock.lawful := Iff.rfl

theorem reads_clockLaw : Reads [.clock] ClockLaw := fun s t h hs => by
  have hc : t.clock = s.clock := h .clock (by simp)
  rwa [clockLaw_iff, hc]

theorem clockLaw_expireNoPulse {s : State} (hs : ClockLaw s) : ClockLaw (expireNoPulse s) := by
  unfold expireNoPulse
  split <;> exact hs

theorem lasting_clockLaw : Lasting [.clock] ClockLaw where
  reads := reads_clockLaw
  apart := by simp
  reset := by simp [ClockLaw, State.reset, Clock.reset]
  events e s h hs := by
    cases e with
    | noPulse => exact clockLaw_expireNoPulse hs
    | _ => simp [Event.touches] at h

theorem clockRuns_iff (s : State) : s.clockRuns = true ↔ s.clock.value < 172799 := decide_eq_true_iff

/-- A clock set to a value of the day keeps the law: F is 0 where that value is its end. -/
theorem clockLaw_putClock {s : State} {v : Nat} (hs : ClockLaw s) (hv : v ≤ 172799) : ClockLaw (putClock v s) := by
  obtain ⟨-, hf, -⟩ := hs
  refine ⟨hv, ?_, fun he => if_pos he⟩
  show (if v = Config.clockEnd then 0 else s.clock.fraction) ≤ 999
  split <;> omega

theorem clockLaw_moveClock {s : State} {v : Nat} (hs : ClockLaw s) (hv : v ≤ 172799) : ClockLaw (moveClock v s) := by
  unfold moveClock
  dsimp only
  split
  · exact reads_clockLaw.keeps (fp := minuteBlocks) ((only_minuteCheck (by simp)).2 (Only.refl _ _)) (by simp)
      (clockLaw_putClock hs hv)
  · exact clockLaw_putClock hs hv

theorem moveClock_value (s : State) (v : Nat) : (moveClock v s).clock.value = v := by
  have h : Only minuteBlocks (putClock v s) (moveClock v s) := by
    unfold moveClock
    dsimp only
    split <;> simp
  rw [show (moveClock v s).clock = (putClock v s).clock from h .clock (by simp)]
  rfl

/-- F set to 0 keeps the law. -/
theorem clockLaw_zero {s : State} (hs : ClockLaw s) :
    ClockLaw { s with clock := { s.clock with fraction := 0 } } := by
  obtain ⟨hv, -, -⟩ := hs
  exact ⟨hv, Nat.zero_le _, fun _ => rfl⟩

theorem clockLaw_clockSecond {s : State} (hs : ClockLaw s) : ClockLaw (clockSecond s) := by
  unfold clockSecond
  split
  · next h =>
    have hv := (clockRuns_iff s).1 h
    exact clockLaw_moveClock (clockLaw_zero hs) (by dsimp only; omega)
  · exact hs

/-- R27: the minute an alignment goes to is one of the day. -/
theorem clockLaw_align {s : State} (hs : ClockLaw s) : ClockLaw (align s) := by
  unfold align
  dsimp only
  split
  · exact hs
  · next h =>
    obtain ⟨hv, hf, -⟩ := id hs
    refine clockLaw_zero (clockLaw_moveClock hs ?_)
    simp only [nearestMinute, Clock.reading] at h ⊢
    omega

theorem clockLaw_takePulse {s : State} (hs : ClockLaw s) : ClockLaw (takePulse s) := by
  unfold takePulse
  dsimp only
  split
  · exact hs
  · split
    · split
      · split
        · exact clockLaw_align hs
        · exact hs
      · exact clockLaw_align (s := { s with clock := _ }) hs
      · exact hs
    · exact hs

theorem clockLaw_idle {s : State} (hs : ClockLaw s) : ClockLaw (idle s) := by
  unfold idle
  split
  · next h =>
    obtain ⟨hv, hf⟩ : s.clock.value < 172799 ∧ s.clock.fraction < 999 := by
      simpa [clockRuns_iff] using h
    exact ⟨hs.1, hf, fun he => absurd he (Nat.ne_of_lt hv)⟩
  · exact hs

theorem clockLaw_secondTick {s : State} (hs : ClockLaw s) : ClockLaw (secondTick s) :=
  reads_clockLaw.keeps (fp := [.baskets, .lines, .choice]) (s := tickClock (tickPrint (tickSales (tickPay s))))
    (by simp [secondTick]) (by simp) hs

theorem clockLaw_exec {i : Instr} {s t : State} (h : exec i s = .next t) (hs : ClockLaw s) : ClockLaw t := by
  have k := lasting_clockLaw
  cases i
  case secondTick => exact k.command h (fun _ => clockLaw_secondTick) hs
  case clockSecond => exact k.command h (fun _ => clockLaw_clockSecond) hs
  case minutePulse => exact k.command h (fun _ => clockLaw_takePulse) hs
  case noPulseExpiry => exact k.event h clockLaw_expireNoPulse hs
  case setTime =>
    refine k.request (by simp) h (fun who r u hu => ?_) hs
    split
    · exact k.answer hu
    · split
      · exact k.answer hu
      · next hv => exact k.answer (clockLaw_moveClock hu (not_lt.1 hv))
  case dayOpen src tag f =>
    refine k.request (by simp) h (fun who r u hu => ?_) hs
    split
    · exact k.answer hu
    · next hr =>
      split
      · exact k.answer hu
      · refine k.answer ?_
        have hv : f.clock.toNat ≤ 172799 := by
          simp only [dayInRange, Bool.not_eq_true', Bool.not_eq_false, Bool.and_eq_true, decide_eq_true_eq] at hr
          exact hr.1.1.2
        exact clockLaw_putClock hu hv
  case setSync =>
    refine k.request (by simp) h (fun who r u hu => ?_) hs
    split <;> exact k.answer hu
  case clearPulseCount => exact k.request (by simp) h (fun who r u hu => k.answer hu) hs
  all_goals exact k.exec_apart (by simp) (by unfold touches; simp) h hs

/-- Every step keeps the clock in its range. -/
theorem clockLaw_step {s t : State} (hs : ClockLaw s) (h : step s = .next t) : ClockLaw t :=
  lasting_clockLaw.step (fun _ => clockLaw_idle) (fun _ _ _ => clockLaw_exec) hs h

-- ## The parameters (R146, R154, R176)

theorem lasting_paramsLaw : Lasting [.params] ParamsLaw where
  reads s t h hs := by
    have hp : t.params = s.params := h .params (by simp)
    unfold ParamsLaw at hs ⊢
    rwa [hp]
  apart := by simp
  reset := by simp [ParamsLaw, State.reset, Params.reset, within]
  events e s h hs := by cases e <;> simp [Event.touches] at h

theorem within_clamp {lo hi : Nat} (h : lo ≤ hi) (n : Nat) : within lo hi (clamp lo hi n) := by
  simp only [within, clamp]
  omega

theorem clamp_le {lo hi : Nat} (h : lo ≤ hi) (n : Nat) : clamp lo hi n ≤ hi := (within_clamp h n).2

theorem clampFilter_mem (n : Nat) : clampFilter n ∈ [50, 100, 200, 400] := by
  unfold clampFilter
  repeat' split
  all_goals simp

theorem le_foldl_max (l : List Nat) (a : Nat) : a ≤ l.foldl max a ∧ ∀ x ∈ l, x ≤ l.foldl max a := by
  induction l generalizing a with
  | nil => simp
  | cons y l ih =>
    obtain ⟨hle, hmem⟩ := ih (max a y)
    refine ⟨(le_max_left a y).trans hle, fun x hx => ?_⟩
    rcases List.mem_cons.1 hx with rfl | hx
    · exact (le_max_right a x).trans hle
    · exact hmem x hx

theorem le_largestDraw (p : Params) (i : Fin 8) : p.draws.get i ≤ p.largestDraw :=
  (le_foldl_max p.draws.list 0).2 _ ((p.draws.mem_list _).2 ⟨i, rfl⟩)

theorem largestDraw_le {p : Params} {n : Nat} (h : ∀ i, p.draws.get i ≤ n) : p.largestDraw ≤ n := by
  have key : ∀ (l : List Nat) a, a ≤ n → (∀ x ∈ l, x ≤ n) → l.foldl max a ≤ n := by
    intro l
    induction l with
    | nil => exact fun a ha _ => ha
    | cons y l ih =>
      exact fun a ha hl => ih _ (max_le ha (hl y (by simp))) fun x hx => hl x (by simp [hx])
  refine key _ _ (Nat.zero_le n) fun x hx => ?_
  obtain ⟨i, rfl⟩ := (p.draws.mem_list x).1 hx
  exact h i

end Sys2Proof.Machine
end

section
/-! PROOFS. Every step keeps the parameters within their ranges (R146, R154, R176). -/

namespace Sys2Proof.Machine

/-- The law of R146, R154 and R176, of the parameters alone. -/
def Params.lawful (p : Params) : Prop := ParamsLaw { State.reset with params := p }

theorem paramsLaw_iff (s : State) : ParamsLaw s ↔ s.params.lawful := Iff.rfl

/-- R176: a value taken leaves every parameter in its range, whichever parameter it is. -/
theorem parameter_take_lawful {place : Nat} {line : Option (Fin 8)} {q : Parameter} {p p' : Params} {n : Nat}
    (hq : parameter place line = some q) (ht : q.take p n = some p') (hp : p.lawful) : p'.lawful := by
  unfold parameter at hq
  split at hq <;> cases hq
  case h_16 =>
    cases ht
    obtain ⟨h1, h2, h3, h4, h5, h6, h7, h8, h9, h10, h11, h12, h13, h14, hbudget, h16, h17, h18, hdraws⟩ := hp
    have hlargest : p.largestDraw ≤ 200 := largestDraw_le fun i => by
      obtain ⟨⟨-, h⟩, -⟩ := hdraws i
      exact h.trans (by norm_num)
    obtain ⟨hlo, hhi⟩ := within_clamp (lo := max 10 p.largestDraw) (hi := 200) (by omega) n
    exact ⟨h1, h2, h3, h4, h5, h6, h7, h8, h9, h10, h11, h12, h13, h14, ⟨(le_max_left _ _).trans hlo, hhi⟩, h16, h17, h18,
      fun i => ⟨(hdraws i).1, (le_largestDraw p i).trans ((le_max_right _ _).trans hlo)⟩⟩
  case h_17 i =>
    cases ht
    obtain ⟨h1, h2, h3, h4, h5, h6, h7, h8, h9, h10, h11, h12, h13, h14, hbudget, h16, h17, h18, hdraws⟩ := hp
    obtain ⟨hlo, hhi⟩ := within_clamp (lo := 5) (hi := min 40 p.budget) (by have := hbudget.1; simp at this; omega) n
    refine ⟨h1, h2, h3, h4, h5, h6, h7, h8, h9, h10, h11, h12, h13, h14, hbudget, h16, h17, h18, fun j => ?_⟩
    show within 5 40 ((p.draws.set i _).get j) ∧ (p.draws.set i _).get j ≤ p.budget
    rw [Tab.get_set]
    split
    · exact ⟨⟨hlo, hhi.trans (min_le_left _ _)⟩, hhi.trans (min_le_right _ _)⟩
    · exact hdraws j
  case h_10 =>
    obtain ⟨c, -, rfl⟩ := Option.map_eq_some_iff.1 ht
    exact hp
  case h_18 =>
    obtain ⟨c, -, rfl⟩ := Option.map_eq_some_iff.1 ht
    exact hp
  case h_21 =>
    cases ht
    obtain ⟨h1, h2, h3, h4, h5, h6, h7, h8, h9, h10, h11, h12, h13, h14, hbudget, h16, h17, -, hdraws⟩ := hp
    exact ⟨h1, h2, h3, h4, h5, h6, h7, h8, h9, h10, h11, h12, h13, h14, hbudget, h16, h17, clampFilter_mem n, hdraws⟩
  all_goals
    cases ht
    simp_all [Params.lawful, ParamsLaw, within_clamp, clamp_le]

theorem namedParameter_parameter {place : Nat} {line : Byte} {q : Parameter} (h : namedParameter place line = some q) :
    ∃ l, parameter place l = some q := by
  unfold namedParameter at h
  split at h
  · obtain ⟨i, -, hi⟩ := Option.bind_eq_some_iff.1 h
    exact ⟨_, hi⟩
  · split at h
    · exact ⟨_, h⟩
    · cases h

theorem paramsLaw_exec {i : Instr} {s t : State} (h : exec i s = .next t) (hs : ParamsLaw s) : ParamsLaw t := by
  have k := lasting_paramsLaw
  cases i
  case setParam src tag param line present value =>
    refine k.request (by simp) h (fun who r u hu => ?_) hs
    dsimp only
    split
    · exact k.answer hu
    · next q hq =>
      obtain ⟨l, hl⟩ := namedParameter_parameter hq
      split
      · exact k.answer hu
      · next p hp =>
        split
        · exact k.answer hu
        · refine k.answer ?_
          split at hp
          · exact parameter_take_lawful hl hp hu
          · cases hp
            exact hu
  all_goals exact k.exec_apart (by simp) (by unfold touches; simp) h hs

/-- Every step keeps the parameters in their ranges. -/
theorem paramsLaw_step {s t : State} (hs : ParamsLaw s) (h : step s = .next t) : ParamsLaw t :=
  lasting_paramsLaw.step (lasting_paramsLaw.idle (by simp)) (fun _ _ _ => paramsLaw_exec) hs h

end Sys2Proof.Machine
end

section
/-! PROOFS. What the commands do to the screenings: each record keeps its id and its plan, and its array, where it is
replaced, keeps its shape and is counted anew (R30, R31). -/

namespace Sys2Proof.Machine

-- ## The shape of an array

/-- Two arrays have their GAPs at the same places. -/
def Grid.Alike (g h : Grid) : Prop := g.map (fun row => row.map Option.isSome) = h.map (fun row => row.map Option.isSome)

theorem Grid.Alike.refl (g : Grid) : Grid.Alike g g := Eq.refl _

theorem Grid.Alike.trans {g h k : Grid} (a : Grid.Alike g h) (b : Grid.Alike h k) : Grid.Alike g k := Eq.trans a b

theorem Grid.put_alike (g : Grid) (x : Seat) (v : SeatState) : Grid.Alike (Grid.put g x v) g := by
  unfold Grid.put Grid.Alike
  split
  · rfl
  · refine List.ext_getElem? fun n => ?_
    simp only [List.getElem?_map, List.getElem?_modify]
    split
    · cases g[n]? with
      | none => rfl
      | some row =>
        simp only [Option.map_some, Option.map_eq_map, Option.some.injEq]
        refine List.ext_getElem? fun m => ?_
        simp only [List.getElem?_map, List.getElem?_modify]
        split
        · cases row[m]? <;> simp
        · simp
    · simp

theorem Grid.foldl_alike {α : Type} (f : Grid → α → Grid) (h : ∀ g x, Grid.Alike (f g x) g) (l : List α) (g : Grid) :
    Grid.Alike (l.foldl f g) g := by
  induction l generalizing g with
  | nil => exact Grid.Alike.refl g
  | cons x l ih => exact (ih _).trans (h g x)

theorem Grid.change_alike (g : Grid) (f : SeatState → SeatState) : Grid.Alike (Grid.change g f) g := by
  simp [Grid.Alike, Grid.change, Function.comp_def]

theorem Grid.freeHeld_alike (g : Grid) (slot ref : Nat) : Grid.Alike (Grid.freeHeld g slot ref) g :=
  Grid.change_alike g _

theorem Grid.freeSold_alike (g : Grid) (n : Nat) : Grid.Alike (Grid.freeSold g n) g := Grid.change_alike g _

theorem Grid.sell_alike (g : Grid) (n : Nat) (seats : List Seat) : Grid.Alike (Grid.sell g n seats) g :=
  Grid.foldl_alike _ (fun g x => Grid.put_alike g _ _) _ g

theorem Grid.flip_alike (g : Grid) (a b : SeatState) (seats : List Seat) : Grid.Alike (Grid.flip g a b seats) g :=
  Grid.foldl_alike _ (fun g x => by
    split
    · exact Grid.put_alike g _ _
    · exact Grid.Alike.refl g) _ g

-- ## What a command can do to the screenings

/-- All that a command but LOAD_SCREENING and ARCHIVE does to the screenings: it marks records with a state and a kiosk
sales flag, or replaces the array of one by an array alike, the counts with it (R31), or that of every record with an
id by a function that keeps an array's shape. -/
inductive Rescreens (s t : State) : Prop
  | marks (f : Screening → Screening) (hf : ∀ c, ∃ st k, f c = { c with state := st, kioskSales := k })
      (h : t.screenings = s.screenings.map f) (hp : t.plans = s.plans)
  | reseats (c : Screening) (hc : c ∈ s.screenings) (g : Grid) (hg : Grid.Alike g c.seats)
      (h : t.screenings = (s.putSeats c.id g).screenings) (hp : t.plans = s.plans)
  | sweeps (n : Nat) (F : Grid → Grid) (hF : ∀ g, Grid.Alike (F g) g)
      (h : t.screenings = (s.onScreening n (fun c => c.withSeats (F c.seats))).screenings) (hp : t.plans = s.plans)

variable {s t u : State}

theorem Rescreens.of_eq (h : t.screenings = s.screenings) (hp : t.plans = s.plans) : Rescreens s t :=
  .marks id (fun c => ⟨c.state, c.kioskSales, rfl⟩) (by rw [h, List.map_id]) hp

/-- What comes before and after and touches no screening adds nothing. -/
theorem Rescreens.congr {s' t' : State} (h : Rescreens s t) (hs : s.screenings = s'.screenings)
    (ht : t'.screenings = t.screenings) (ps : s.plans = s'.plans) (pt : t'.plans = t.plans) : Rescreens s' t' := by
  cases h with
  | marks f hf e p => exact .marks f hf (by rw [ht, e, hs]) (by rw [pt, p, ps])
  | reseats c hc g hg e p =>
    refine .reseats c (hs ▸ hc) g hg ?_ (by rw [pt, p, ps])
    rw [ht, e]
    simp only [State.putSeats, State.onScreening, hs]
  | sweeps n F hF e p =>
    refine .sweeps n F hF ?_ (by rw [pt, p, ps])
    rw [ht, e]
    simp only [State.onScreening, hs]

theorem Rescreens.of_only {bs : List Block} (h : Only bs s t) (hb : .screenings ∉ bs ∧ .plans ∉ bs) : Rescreens s t :=
  .of_eq (h .screenings hb.1) (h .plans hb.2)

theorem Rescreens.then_only {bs : List Block} (h : Rescreens s t) (k : Only bs t u) (hb : .screenings ∉ bs ∧ .plans ∉ bs) :
    Rescreens s u := h.congr rfl (k .screenings hb.1) rfl (k .plans hb.2)

theorem Rescreens.after_only {bs : List Block} (k : Only bs s t) (hb : .screenings ∉ bs ∧ .plans ∉ bs) (h : Rescreens t u) :
    Rescreens s u := h.congr (k .screenings hb.1) rfl (k .plans hb.2) rfl

theorem Rescreens.before {f : State → State} (hf : ∀ u, Rescreens u (f u)) (h : u.screenings = s.screenings)
    (hp : u.plans = s.plans) : Rescreens s (f u) := (hf u).congr h rfl hp rfl

theorem rescreens_putSeats {c : Screening} {g : Grid} (hc : c ∈ s.screenings) (hg : Grid.Alike g c.seats) :
    Rescreens s (s.putSeats c.id g) := .reseats c hc g hg rfl rfl

theorem screening_mem {n : Nat} {c : Screening} (h : s.screening n = some c) : c ∈ s.screenings :=
  List.mem_of_find?_eq_some h

theorem screening_id {n : Nat} {c : Screening} (h : s.screening n = some c) : c.id = n := by
  simpa using List.find?_some h

/-- R36: what a request naming a basket reaches is there. -/
theorem reach_eq {who : Owner} {slot : Byte} {ref : BitVec 16} {x : Reach} (h : s.reach who slot ref = some x) :
    readSlot slot = some x.slot ∧ s.basket x.slot ref.toNat = some x.basket ∧ x.basket.owner = who
      ∧ s.screening x.basket.screening = some x.screening
      ∧ s.plan x.screening.plan = some (x.header, x.rows) := by
  unfold State.reach at h
  split at h
  · cases h
  · next i hi =>
    split at h
    · cases h
    · next b hb =>
      split at h
      · cases h
      · next hw =>
        split at h
        · cases h
        · next c hc =>
          obtain ⟨p, hp, rfl⟩ := Option.map_eq_some_iff.1 h
          exact ⟨hi, hb, by simpa using hw, hc, hp⟩

theorem reachScreening_eq {id : BitVec 16} {c : Screening} {h : PlanHeader} {rows : List (List Cell)}
    (e : s.reachScreening id = some (c, h, rows)) : s.screening id.toNat = some c ∧ s.plan c.plan = some (h, rows) := by
  unfold State.reachScreening at e
  split at e
  · cases e
  · next d hd =>
    obtain ⟨p, hp, hq⟩ := Option.map_eq_some_iff.1 e
    cases hq
    exact ⟨hd, hp⟩

theorem rescreens_holdFor {i : Fin 16} {b : Basket} {c : Screening} {lines : List SeatLine} (hc : c ∈ s.screenings) :
    Rescreens s (holdFor i b c lines s) :=
  (rescreens_putSeats hc (g := lines.foldl (fun g l => Grid.put g (l.row, l.pos) (.held i.val b.ref)) c.seats)
    (Grid.foldl_alike _ (fun g _ => Grid.put_alike g _ _) _ _)).then_only (bs := [.baskets]) (by simp [holdFor]) (by simp)

theorem rescreens_releaseFor {i : Fin 16} {b : Basket} {c : Screening} {xs : List Seat} (hc : c ∈ s.screenings) :
    Rescreens s (releaseFor i b c xs s) :=
  (rescreens_putSeats hc (g := xs.foldl (fun g x => Grid.put g x .free) c.seats)
    (Grid.foldl_alike _ (fun g _ => Grid.put_alike g _ _) _ _)).then_only (bs := [.baskets]) (by simp [releaseFor])
    (by simp)

theorem Rescreens.answer {r : Reply} {res : Result} {fs : List Byte} (h : Rescreens s t) :
    Rescreens s (answer r res fs t) := h.then_only (bs := [.lines]) (by simp) (by simp)

theorem Rescreens.refl (s : State) : Rescreens s s := .of_eq rfl rfl

theorem rescreens_runHoldSeats (who : Owner) (r : Reply) (slot : Byte) (ref : BitVec 16) (ws : List SeatWish) (o : Byte)
    (s : State) : Rescreens s (runHoldSeats who r slot ref ws o s) := by
  unfold runHoldSeats
  split
  · exact (Rescreens.refl s).answer
  · split
    · exact (Rescreens.refl s).answer
    · next x hx =>
      obtain ⟨-, -, -, hc, -⟩ := reach_eq hx
      dsimp only
      repeat' split
      any_goals exact (Rescreens.refl s).answer
      exact (rescreens_holdFor (screening_mem hc)).answer

theorem rescreens_runSearchEnd (q : Search) (s : State) : Rescreens s (runSearchEnd q s) := by
  unfold runSearchEnd
  split
  · exact (Rescreens.refl s).answer
  · next x hx =>
    obtain ⟨-, -, -, hc, -⟩ := reach_eq hx
    split
    · exact (Rescreens.refl s).answer
    · dsimp only
      split
      · exact (Rescreens.refl s).answer
      · exact (rescreens_holdFor (screening_mem hc)).answer

theorem rescreens_runReleaseSeats (who : Owner) (r : Reply) (slot : Byte) (ref : BitVec 16) (xs : List SeatRef)
    (s : State) : Rescreens s (runReleaseSeats who r slot ref xs s) := by
  unfold runReleaseSeats
  dsimp only
  split
  · exact (Rescreens.refl s).answer
  · split
    · exact (Rescreens.refl s).answer
    · next x hx =>
      obtain ⟨-, -, -, hc, -⟩ := reach_eq hx
      split
      · exact (Rescreens.refl s).answer
      · split
        · exact (Rescreens.refl s).answer
        · split
          · exact (Rescreens.refl s).answer
          · exact (rescreens_releaseFor (screening_mem hc)).answer

theorem rescreens_runFlip (a b : SeatState) (r : Reply) (n : BitVec 16) (xs : List SeatRef) (s : State) :
    Rescreens s (runFlip a b r n xs s) := by
  unfold runFlip
  dsimp only
  split
  · exact (Rescreens.refl s).answer
  · split
    · exact (Rescreens.refl s).answer
    · next c h rows hc =>
      split
      · exact (Rescreens.refl s).answer
      · split
        · exact (Rescreens.refl s).answer
        · exact (rescreens_putSeats (screening_mem (reachScreening_eq hc).1) (Grid.flip_alike _ _ _ _)).answer

theorem rescreens_runReleaseBasket (i : Fin 16) (ref n : Nat) (s : State) :
    Rescreens s (runReleaseBasket i ref n s) := by
  have h : Rescreens s (s.onScreening n (fun c => c.withSeats (Grid.freeHeld c.seats i.val ref))) :=
    .sweeps n _ (fun g => Grid.freeHeld_alike g _ _) rfl rfl
  unfold runReleaseBasket
  dsimp only
  split
  · exact h
  · exact h.then_only (bs := [.baskets, .prices, .lines, .stations, .vouchers]) (by simp) (by simp)

theorem rescreens_runSellBasket (i : Fin 16) (ref n sale : Nat) (s : State) :
    Rescreens s (runSellBasket i ref n sale s) := by
  unfold runSellBasket
  split
  · next b c _ _ =>
    exact (Rescreens.sweeps n (fun g => Grid.sell g sale (lineSeats b.lines)) (fun g => Grid.sell_alike g _ _) rfl rfl).then_only
      (bs := [.sales, .vouchers, .baskets, .prices, .lines, .stations, .print, .choice]) (by simp) (by simp)
  · exact Rescreens.refl s

theorem rescreens_runFreeSale (n sale : Nat) (s : State) : Rescreens s (runFreeSale n sale s) := by
  have h : Rescreens s (s.onScreening n (fun c => c.withSeats (Grid.freeSold c.seats sale))) :=
    .sweeps n _ (fun g => Grid.freeSold_alike g _) rfl rfl
  unfold runFreeSale
  dsimp only
  split
  · exact h
  · split
    · exact h
    · exact h.then_only (bs := [.sales, .vouchers, .lines]) (by simp) (by simp)

theorem rescreens_runRestore (r : Reply) (f : SaleFields) (s : State) : Rescreens s (runRestore r f s) := by
  unfold runRestore
  split
  · exact (Rescreens.refl s).answer
  · next sale vs _ =>
    split
    · exact (Rescreens.refl s).answer
    · next c hc =>
      dsimp only
      repeat' split
      any_goals exact (Rescreens.refl s).answer
      refine ((rescreens_putSeats (screening_mem hc) (Grid.sell_alike c.seats sale.number
        (sale.tickets.map (fun t => (t.row, t.pos))))).then_only (bs := [.sales, .vouchers]) ?_ (by simp)).answer
      rw [only_restoreVouchers (by simp), only_sales (by simp)]
      exact Only.refl _ _

/-- R24: what a minute check does before its notices and the activation: screenings close, vouchers lapse. -/
def minuteSwept (v : Nat) (s : State) : State :=
  minuteVouchers v { s with screenings := s.screenings.map (fun c =>
    if c.closesAt v then { c with state := .closed } else c) }

/-- R12, R82: the acts of a minute check that send notices. -/
def minuteActs (v : Nat) (s : State) : List (State → State) :=
  (s.screenings.filter (fun c => c.closesAt v)).map screeningClosed
    ++ (if (minuteSwept v s).pricesDue v then [minutePrices v] else [])

theorem minuteCheck_eq (v : Nat) (s : State) : minuteCheck v s
    = ((minuteSwept v s).arranged (minuteActs v s)).foldl (fun s f => f s)
        ((minuteSwept v s).spend (minuteActs v s).length) := rfl

theorem minuteActs_only {v : Nat} {s : State} {x : State → State} (h : x ∈ minuteActs v s) (w : State) :
    Only [.prices, .lines] w (x w) := by
  rcases List.mem_append.1 h with h | h
  · obtain ⟨c, -, rfl⟩ := List.mem_map.1 h
    simp
  · split at h
    · rw [List.mem_singleton.1 h]
      simp
    · cases h

/-- The notices and the activation touch the price book and the lines alone. -/
theorem minuteCheck_only (v : Nat) (s : State) : Only [.prices, .lines, .choice] (minuteSwept v s) (minuteCheck v s) := by
  rw [minuteCheck_eq]
  refine (show Only [.prices, .lines, .choice] (minuteSwept v s) _ by simp).trans (Only.foldl_mem _ _ (fun w x hx => ?_) _)
  exact (minuteActs_only (arrangeFrom_subset _ _ _ x hx) w).mono (by simp)

/-- R12: a minute check closes screenings, and does nothing else to them. -/
theorem minuteCheck_screenings (v : Nat) (s : State) : (minuteCheck v s).screenings
    = s.screenings.map (fun c => if c.closesAt v then { c with state := .closed } else c) := by
  have h : (minuteCheck v s).screenings = (minuteSwept v s).screenings :=
    minuteCheck_only v s .screenings (by simp)
  rw [h]
  exact (only_minuteVouchers (bs := [.vouchers]) (by simp)).2 (Only.refl _ _) .screenings (by simp)

theorem minuteCheck_plans (v : Nat) (s : State) : (minuteCheck v s).plans = s.plans := by
  have h : (minuteCheck v s).plans = (minuteSwept v s).plans := minuteCheck_only v s .plans (by simp)
  rw [h]
  exact (only_minuteVouchers (bs := [.vouchers]) (by simp)).2 (Only.refl _ _) .plans (by simp)

theorem rescreens_minuteCheck (v : Nat) (s : State) : Rescreens s (minuteCheck v s) :=
  .marks _ (fun c => by
    split
    · exact ⟨.closed, c.kioskSales, rfl⟩
    · exact ⟨c.state, c.kioskSales, rfl⟩) (minuteCheck_screenings v s) (minuteCheck_plans v s)

theorem rescreens_moveClock (v : Nat) (s : State) : Rescreens s (moveClock v s) := by
  unfold moveClock
  dsimp only
  split
  · exact .after_only (bs := [.clock]) (by simp) (by simp) (rescreens_minuteCheck v (putClock v s))
  · exact .of_only (bs := [.clock]) (by simp) (by simp)

theorem rescreens_clockSecond (s : State) : Rescreens s (clockSecond s) := by
  unfold clockSecond
  split
  · exact .before (rescreens_moveClock _) rfl rfl
  · exact .refl s

theorem rescreens_align (s : State) : Rescreens s (align s) := by
  unfold align
  dsimp only
  split
  · exact .refl s
  · exact .congr (rescreens_moveClock _ s) rfl rfl rfl rfl

theorem rescreens_takePulse (s : State) : Rescreens s (takePulse s) := by
  unfold takePulse
  dsimp only
  split
  · exact .refl s
  · split
    · split
      · split
        · exact .before rescreens_align rfl rfl
        · exact .of_eq rfl rfl
      · exact .before (f := fun u => { align u with clock := { (align u).clock with sync := .watch } })
          (fun u => (rescreens_align u).congr rfl rfl rfl rfl) rfl rfl
      · exact .of_eq rfl rfl
    · exact .of_eq rfl rfl

/-- A property of the screenings, or of them and the plans, that is kept by what `Rescreens` says is kept by every
command but LOAD_SCREENING and ARCHIVE, and those that touch the plans. -/
theorem exec_rescreens {D : List Block} {P : State → Prop} (k : Lasting D P) (hD : ∀ b ∈ D, b = .screenings ∨ b = .plans)
    (hP : ∀ s t, Rescreens s t → P s → P t) {i : Instr} (hl : ∀ src tag f, i ≠ .loadScreening src tag f)
    (ha : ∀ src tag n, i ≠ .archive src tag n) (hi : .plans ∈ D → .plans ∉ touches i) {s t : State} (h : exec i s = .next t) (hs : P s) : P t := by
  have ho : Block.outstanding ∉ D := fun hm => by simpa using hD _ hm
  have he : Block.engine ∉ D := fun hm => by simpa using hD _ hm
  have entry : ∀ {run : Entry → Option (State → State)}, (∀ x f, run x = some f → ∀ u, Rescreens u (f u)) →
      command (arbitrate run) s = .next t → P t := fun hrun h =>
    k.command h (fun u => k.arbitrate he fun x f hf w => hP w _ (hrun x f hf w)) hs
  cases i
  case loadScreening => exact absurd rfl (hl _ _ _)
  case archive => exact absurd rfl (ha _ _ _)
  case clockSecond => exact k.command h (fun u => hP u _ (rescreens_clockSecond u)) hs
  case minutePulse => exact k.command h (fun u => hP u _ (rescreens_takePulse u)) hs
  case setTime =>
    refine k.request ho h (fun who r u hu => ?_) hs
    repeat' split
    · exact k.answer hu
    · exact k.answer hu
    · exact k.answer (hP u _ (rescreens_moveClock _ u) hu)
  case setScreening =>
    refine k.request ho h (fun who r u hu => ?_) hs
    split
    · exact k.answer hu
    · split
      · exact k.answer hu
      · exact k.answer (hP u _ (.marks _ (fun c => by
          split
          · exact ⟨_, c.kioskSales, rfl⟩
          · exact ⟨c.state, c.kioskSales, rfl⟩) rfl rfl) hu)
    · exact k.answer hu
  case setKioskSales =>
    refine k.request ho h (fun who r u hu => ?_) hs
    split
    · exact k.answer hu
    · split
      · exact k.answer hu
      · exact k.answer (hP u _ (.marks _ (fun c => by
          split
          · exact ⟨c.state, _, rfl⟩
          · exact ⟨c.state, c.kioskSales, rfl⟩) rfl rfl) hu)
  case closeScreening =>
    refine k.request ho h (fun who r u hu => ?_) hs
    split
    · exact k.answer hu
    · exact k.answer (hP u _ (.marks _ (fun c => by
        split
        · exact ⟨_, c.kioskSales, rfl⟩
        · exact ⟨c.state, c.kioskSales, rfl⟩) rfl rfl) hu)
  case holdSeats => exact entry (fun x f hf u => by split at hf <;> cases hf; exact rescreens_runHoldSeats ..) h
  case bestBlockSearchEnd =>
    refine k.command (exec_bestBlockSearchEnd s ▸ h) (fun u hu => ?_) hs
    split
    · exact hu
    · exact hP u _ (.before (rescreens_runSearchEnd _) rfl rfl) hu
  case releaseSeats => exact entry (fun x f hf u => by split at hf <;> cases hf; exact rescreens_runReleaseSeats ..) h
  case blockSeats => exact entry (fun x f hf u => by split at hf <;> cases hf; exact rescreens_runFlip ..) h
  case unblockSeats => exact entry (fun x f hf u => by split at hf <;> cases hf; exact rescreens_runFlip ..) h
  case releaseBasket => exact entry (fun x f hf u => by split at hf <;> cases hf; exact rescreens_runReleaseBasket ..) h
  case sellBasket => exact entry (fun x f hf u => by split at hf <;> cases hf; exact rescreens_runSellBasket ..) h
  case freeSale => exact entry (fun x f hf u => by split at hf <;> cases hf; exact rescreens_runFreeSale ..) h
  case restoreSeats => exact entry (fun x f hf u => by split at hf <;> cases hf; exact rescreens_runRestore ..) h
  all_goals exact k.exec_apart ho (fun b hb => by
    rcases hD b hb with rfl | rfl
    · unfold touches; simp
    · exact hi hb) h hs

end Sys2Proof.Machine
end

section
/-! PROOFS. The law of the seats (R5, R30, R31): every step keeps it. -/

namespace Sys2Proof.Machine

-- ## The law of one record, by its array and its plan

/-- A screening's record agrees with a plan (R5, R30, R31). -/
def Screening.agrees (c : Screening) (rows : List (List Cell)) : Prop :=
  c.seats.map (fun row => row.map Option.isSome) = rows.map (fun row => row.map (fun x => x != .gap))
    ∧ c.counts = Grid.counts c.seats

theorem length_reduceOption_flatten (g : Grid) :
    (Grid.entries g).length = ((g.map (fun row => row.map Option.isSome)).map (fun row => row.countP id)).sum := by
  unfold Grid.entries
  induction g with
  | nil => rfl
  | cons row g ih =>
    rw [List.flatten_cons, List.reduceOption_append, List.length_append, ih]
    simp only [List.map_cons, List.sum_cons, Nat.add_right_cancel_iff]
    induction row with
    | nil => rfl
    | cons o row ih => cases o <;> simp_all [List.reduceOption]

theorem seatCount_eq (rows : List (List Cell)) :
    seatCount rows = ((rows.map (fun row => row.map (fun x => x != .gap))).map (fun row => row.countP id)).sum := by
  simp only [seatCount, List.map_map]
  congr 1
  refine List.map_congr_left fun row _ => ?_
  simp [seatsIn, List.countP_map, Function.comp_def]

/-- R30: an entry is in exactly one of the four states. -/
theorem counts_sum (g : Grid) :
    (Grid.counts g).free + (Grid.counts g).held + (Grid.counts g).sold + (Grid.counts g).blocked
      = (Grid.entries g).length := by
  unfold Grid.counts
  dsimp only
  induction Grid.entries g with
  | nil => rfl
  | cons x xs ih =>
    cases x <;> simp_all [List.countP_cons, SeatState.isFree, SeatState.isHeld, SeatState.isSold, SeatState.isBlocked] <;> omega

/-- R5, R30, R31: a record is lawful when its plan is READY and it agrees with it. -/
theorem lawful_iff (s : State) (c : Screening) :
    c.lawful s ↔ ∃ h rows, s.plan c.plan = some (h, rows) ∧ c.agrees rows := by
  constructor
  · rintro ⟨h, rows, hp, hshape, hfree, hheld, hsold, hblocked, -⟩
    refine ⟨h, rows, hp, hshape, ?_⟩
    cases hc : c.counts
    simp_all [Grid.counts]
  · rintro ⟨h, rows, hp, hshape, hcounts⟩
    refine ⟨h, rows, hp, hshape, by rw [hcounts]; rfl, by rw [hcounts]; rfl, by rw [hcounts]; rfl,
      by rw [hcounts]; rfl, ?_⟩
    rw [hcounts, counts_sum, length_reduceOption_flatten, seatCount_eq, hshape]

theorem Screening.agrees_withSeats {c : Screening} {rows : List (List Cell)} {g : Grid} (h : c.agrees rows)
    (hg : Grid.Alike g c.seats) : (c.withSeats g).agrees rows := ⟨Eq.trans hg h.1, rfl⟩

theorem freshGrid_shape (rows : List (List Cell)) :
    (freshGrid rows).map (fun row => row.map Option.isSome) = rows.map (fun row => row.map (fun x => x != .gap)) := by
  unfold freshGrid
  rw [List.map_map]
  refine List.map_congr_left fun row _ => ?_
  simp only [Function.comp_apply, List.map_map]
  refine List.map_congr_left fun x _ => ?_
  cases x <;> rfl

-- ## What keeps the law

theorem plan_congr {s t : State} (h : t.plans = s.plans) (n : Nat) : t.plan n = s.plan n := by
  simp only [State.plan, h]

/-- The law where the records are those of a list that keeps ids and agreement. -/
theorem SeatLaw.of_map {s t : State} (hs : SeatLaw s) (hp : t.plans = s.plans) {f : Screening → Screening}
    (hf : ∀ c ∈ s.screenings, (f c).id = c.id ∧ (f c).plan = c.plan ∧ ∀ rows, c.agrees rows → (f c).agrees rows)
    (ht : t.screenings = s.screenings.map f) : SeatLaw t := by
  obtain ⟨hids, hlaw⟩ := hs
  constructor
  · have he : (s.screenings.map f).map (·.id) = s.screenings.map (·.id) := by
      rw [List.map_map]
      exact List.map_congr_left fun c hc => (hf c hc).1
    rwa [ht, he]
  · intro d hd
    rw [ht] at hd
    obtain ⟨c, hc, rfl⟩ := List.mem_map.1 hd
    obtain ⟨-, hplan, hagrees⟩ := hf c hc
    obtain ⟨h, rows, hp', ha⟩ := (lawful_iff s c).1 (hlaw c hc)
    exact (lawful_iff t _).2 ⟨h, rows, by rw [hplan, plan_congr hp, hp'], hagrees rows ha⟩

theorem SeatLaw.rescreens {s t : State} (h : Rescreens s t) (hs : SeatLaw s) : SeatLaw t := by
  cases h with
  | marks f hf e hp =>
    refine hs.of_map hp (fun c _ => ?_) e
    obtain ⟨st, k, he⟩ := hf c
    rw [he]
    exact ⟨rfl, rfl, fun rows h => h⟩
  | reseats c hc g hg e hp =>
    refine hs.of_map hp (f := fun d => if d.id == c.id then d.withSeats g else d) (fun d hd => ?_) e
    split
    · next he =>
      obtain rfl : d = c := List.inj_on_of_nodup_map hs.1 hd hc (by simpa using he)
      exact ⟨rfl, rfl, fun rows h => Screening.agrees_withSeats h hg⟩
    · exact ⟨rfl, rfl, fun rows h => h⟩
  | sweeps n F hF e hp =>
    refine hs.of_map hp (f := fun d => if d.id == n then d.withSeats (F d.seats) else d) (fun d hd => ?_) e
    split
    · exact ⟨rfl, rfl, fun rows h => Screening.agrees_withSeats h (hF _)⟩
    · exact ⟨rfl, rfl, fun rows h => h⟩

theorem lasting_seatLaw : Lasting [.screenings, .plans] SeatLaw where
  reads s t h hs :=
    hs.of_map (f := id) (h .plans (by simp)) (fun c _ => ⟨rfl, rfl, fun _ h => h⟩)
      (by rw [List.map_id]; exact h .screenings (by simp))
  apart := by simp
  reset := by simp [SeatLaw, State.reset]
  events e s h hs := by
    obtain ⟨b, hb, he⟩ := h
    exfalso
    revert b
    cases e <;> simp [Event.touches]

/-- R5: a plan slot that no record's plan names can be filled anew. -/
theorem SeatLaw.setPlan {s : State} (hs : SeatLaw s) {i : Fin 12} (hfree : ∀ c ∈ s.screenings, readPlan c.plan ≠ some i)
    (p : PlanSlot) : SeatLaw { s with plans := s.plans.set i p } := by
  refine ⟨hs.1, fun c hc => ?_⟩
  obtain ⟨h, rows, hp, ha⟩ := (lawful_iff s c).1 (hs.2 c hc)
  refine (lawful_iff _ c).2 ⟨h, rows, ?_, ha⟩
  rw [← hp]
  simp only [State.plan]
  split
  · rfl
  · next j hj =>
    have hij : j ≠ i := fun e => hfree c hc (by rw [hj, e])
    rw [Tab.get_set_ne _ _ hij.symm]

/-- A lawful record's plan stands in a READY slot. -/
theorem SeatLaw.ready {s : State} (hs : SeatLaw s) {c : Screening} (hc : c ∈ s.screenings) {i : Fin 12}
    (hi : readPlan c.plan = some i) : ∃ h rows, s.plans.get i = .ready h rows := by
  obtain ⟨h, rows, hp, -⟩ := hs.2 c hc
  simp only [State.plan, hi] at hp
  split at hp
  · next e => exact ⟨_, _, e⟩
  · cases hp

/-- R7, R8: a record of a free id, with the fresh array of a READY plan, joins lawfully. -/
theorem SeatLaw.join {s : State} (hs : SeatLaw s) {c : Screening} (hid : s.screening c.id = none)
    (hc : c.lawful s) : SeatLaw { s with screenings := s.screenings ++ [c] } := by
  constructor
  · rw [List.map_append, List.nodup_append]
    refine ⟨hs.1, by simp, ?_⟩
    simp only [State.screening, List.find?_eq_none] at hid
    simp only [List.mem_map, List.map_cons, List.map_nil, List.mem_singleton]
    rintro _ ⟨d, hd, rfl⟩ _ rfl e
    exact hid d hd (by simp [e])
  · intro d hd
    rcases List.mem_append.1 hd with hd | hd
    · exact hs.2 d hd
    · rw [List.mem_singleton.1 hd]
      exact hc

theorem SeatLaw.filter {s : State} (hs : SeatLaw s) (p : Screening → Bool) :
    SeatLaw { s with screenings := s.screenings.filter p } :=
  ⟨hs.1.sublist (List.filter_sublist.map _), fun c hc => hs.2 c (List.mem_of_mem_filter hc)⟩

theorem SeatLaw.archive {s : State} (hs : SeatLaw s) (n : Nat) : SeatLaw (archiveScreening n s) := by
  have hv : SeatLaw (removeVouchers n (lapseScreening n s)) :=
    lasting_seatLaw.keeps (fp := [.vouchers]) (by simp [removeVouchers]) (by simp) hs
  exact lasting_seatLaw.keeps (fp := [.sales]) ((only_sales (by simp)).2 (Only.refl _ _)) (by simp)
    (hv.filter (fun c => c.id != n))

theorem readPlan_inj {m n : Nat} {i : Fin 12} (hm : readPlan m = some i) (hn : readPlan n = some i) : m = n := by
  simp only [readPlan, offset] at hm hn
  split at hm <;> split at hn <;> simp_all [Fin.ext_iff]
  omega

theorem seatLaw_exec {i : Instr} {s t : State} (h : exec i s = .next t) (hs : SeatLaw s) : SeatLaw t := by
  have k := lasting_seatLaw
  have others := exec_rescreens k (by simp) (fun _ _ => SeatLaw.rescreens) (i := i) (s := s) (t := t)
  cases i
  case loadPlan src tag f =>
    refine k.request (by simp) h (fun who r u hu => ?_) hs
    split
    · exact k.answer hu
    · next i hi =>
      split
      · exact k.answer hu
      · split
        · exact k.answer hu
        · next hany =>
          refine k.answer (hu.setPlan (fun c hc e => hany ?_) _)
          exact List.any_eq_true.2 ⟨c, hc, by simp [readPlan_inj e hi]⟩
  case planRow src tag plan row cells =>
    refine k.request (by simp) h (fun who r u hu => ?_) hs
    split
    · exact k.answer hu
    · next i hi =>
      split
      · next hload =>
        have hfree : ∀ c ∈ u.screenings, readPlan c.plan ≠ some i := fun c hc e => by
          obtain ⟨h, rows, hr⟩ := hu.ready hc e
          simp [hload] at hr
        dsimp only
        split
        · exact k.answer hu
        · split
          · exact k.answer hu
          · split
            · exact k.answer hu
            · split
              · exact k.answer (hu.setPlan hfree _)
              · exact k.answer (hu.setPlan hfree _)
      · exact k.answer hu
  case loadScreening src tag f =>
    refine k.request (by simp) h (fun who r u hu => ?_) hs
    split
    · exact k.answer hu
    · split
      · exact k.answer hu
      · split
        · exact k.answer hu
        · next hid =>
          split
          · next h rows hplan =>
            split
            · exact k.answer hu
            · split
              · exact k.answer hu
              · refine k.answer (hu.join (by simpa using hid) ((lawful_iff u _).2 ⟨h, rows, ?_, freshGrid_shape rows, rfl⟩))
                obtain ⟨i, hi, hg⟩ := Option.map_eq_some_iff.1 hplan
                simp [State.plan, hi, hg]
          · exact k.answer hu
          · exact k.answer hu
  case archive src tag n =>
    refine k.request (by simp) h (fun who r u hu => ?_) hs
    dsimp only
    split
    · exact k.answer hu
    · split
      · exact k.answer hu
      · split
        · exact k.answer hu
        · split
          · exact k.answer hu
          · exact k.answer (hu.archive _)
  all_goals exact others (by simp) (by simp) (fun _ => by unfold touches; simp) h hs

/-- Settles O9, by what each command can do to the records: none (`Lasting`), marks and arrays alike (`Rescreens`), or
one record more or less. -/
theorem seatLawKept : Obligations.SeatLawKept := by
  unfold Obligations.SeatLawKept
  exact fun s t hs h =>
    lasting_seatLaw.step (lasting_seatLaw.idle (by simp)) (fun _ _ _ => seatLaw_exec) hs h

end Sys2Proof.Machine
end

section
/-! PROOFS. What the commands do to the print controller, cut into the few kinds of change its laws have to stand. -/

namespace Sys2Proof.Machine

/-- The first elements of a line's jobs, in order. -/
def TicketLine.jobs (l : TicketLine) : List (Fin 256) := l.queue.map Job.first

/-- Whether a line holds a grant or waits for one (R145). -/
def TicketLineState.atPower (x : TicketLineState) : Prop := x = .waitPower ∨ x = .printing

/-- R145: the head of the order is granted. -/
def grantHead (i : Fin 8) (rest : List (Fin 8)) (s : State) : State :=
  State.onTicketLine i (fun l => { l with state := .printing }) { s with print := { s.print with order := rest } }

/-- R145: a line joins the tail of the order. -/
def enterOrder (i : Fin 8) (f : TicketLine → TicketLine) (s : State) : State :=
  let u := s.onTicketLine i (fun l => { f l with state := .waitPower })
  { u with print := { u.print with order := u.print.order ++ [i] } }

/-- R139, R140: a job's chain is written and the job joins its line's queue. -/
def queueJob (i : Fin 8) (job : Job) (numbers : List (Fin 256)) (plans : List ElementPlan) (s : State) : State :=
  State.onTicketLine i (fun l => { l with queue := l.queue ++ [job] })
    { s with print := { s.print with pool := writeChain job.sale numbers plans s.print.pool } }

/-- R148: the head job of a line leaves its queue, its elements free. -/
def dropJob (i : Fin 8) (j : Job) (rest : List Job) (s : State) : State :=
  let u := s.onTicketLine i (fun l => { l with queue := rest })
  { u with print := { u.print with
      pool := (j.chain s.print.pool).foldl (fun p e => p.set e none) s.print.pool } }

/-- All that the commands do to the print controller, but for the parameters: each kind of change with what its place in
the model guards it by. -/
inductive PrintWork : State → State → Prop
  | marks {s t : State}
      (hl : ∀ k, (t.ticketLine k).state = (s.ticketLine k).state ∧ (t.ticketLine k).jobs = (s.ticketLine k).jobs)
      (ho : t.print.order = s.print.order) (hw : t.print.waiting = s.print.waiting)
      (hn : ∀ e, (t.print.pool.get e).map (·.next) = (s.print.pool.get e).map (·.next))
      (hp : t.params = s.params) : PrintWork s t
  | shifts {s : State} (i : Fin 8) (f : TicketLine → TicketLine) (hq : ∀ l, (f l).queue = l.queue)
      (hold : ¬ (s.ticketLine i).state.atPower) (hnew : ¬ (f (s.ticketLine i)).state.atPower)
      (hidle : (f (s.ticketLine i)).state = .idle → (s.ticketLine i).queue = []) : PrintWork s (s.onTicketLine i f)
  | vacates {s : State} (i : Fin 8) (f : TicketLine → TicketLine) (hq : ∀ l, (f l).queue = l.queue)
      (hnew : ¬ (f (s.ticketLine i)).state.atPower)
      (hidle : (f (s.ticketLine i)).state = .idle → (s.ticketLine i).queue = []) : PrintWork s (vacate i f s)
  | grants {s : State} (i : Fin 8) (rest : List (Fin 8)) (ho : s.print.order = i :: rest)
      (hfit : s.grantedSum + s.params.draws.get i ≤ s.params.budget) : PrintWork s (grantHead i rest s)
  | joins {s : State} (i : Fin 8) (f : TicketLine → TicketLine) (hq : ∀ l, (f l).queue = l.queue)
      (hold : ¬ (s.ticketLine i).state.atPower) : PrintWork s (enterOrder i f s)
  | queues {s : State} (i : Fin 8) (job : Job) (numbers : List (Fin 256)) (plans : List ElementPlan)
      (hlen : (s.ticketLine i).queue.length < 6) (hfree : ∀ e ∈ numbers, e ∈ s.freeElements) (hnd : numbers.Nodup)
      (hle : numbers.length ≤ plans.length) (hfirst : numbers.head? = some job.first)
      (hidle : (s.ticketLine i).state ≠ .idle) : PrintWork s (queueJob i job numbers plans s)
  | starts {s : State} (i : Fin 8) (job : Job) (numbers : List (Fin 256)) (plans : List ElementPlan)
      (hlen : (s.ticketLine i).queue.length < 6) (hfree : ∀ e ∈ numbers, e ∈ s.freeElements) (hnd : numbers.Nodup)
      (hle : numbers.length ≤ plans.length) (hfirst : numbers.head? = some job.first)
      (hidle : (s.ticketLine i).state = .idle) : PrintWork s (enterOrder i id (queueJob i job numbers plans s))
  | waits {s : State} (e : WaitEntry) (hlen : s.print.waiting.length < 16) :
      PrintWork s { s with print := { s.print with waiting := s.print.waiting ++ [e] } }
  | serves {s : State} (e : WaitEntry) (rest : List WaitEntry) (hw : s.print.waiting = e :: rest) :
      PrintWork s { s with print := { s.print with waiting := rest } }
  | completes {s : State} (i : Fin 8) (j : Job) (rest : List Job) (hq : (s.ticketLine i).queue = j :: rest) :
      PrintWork s (dropJob i j rest s)
  | trans {s t u : State} (h : PrintWork s t) (k : PrintWork t u) : PrintWork s u

namespace PrintWork

variable {s t u : State}

theorem refl (s : State) : PrintWork s s :=
  .marks (fun _ => ⟨rfl, rfl⟩) rfl rfl (fun _ => rfl) rfl

theorem of_eq (h : t.print = s.print) (hp : t.params = s.params) : PrintWork s t :=
  .marks (fun k => by simp [State.ticketLine, h]) (by rw [h]) (by rw [h]) (by simp [h]) hp

theorem of_only {bs : List Block} (h : Only bs s t) (hb : .print ∉ bs ∧ .params ∉ bs) : PrintWork s t :=
  .of_eq (h .print hb.1) (h .params hb.2)

theorem then_only {bs : List Block} (h : PrintWork s t) (k : Only bs t u) (hb : .print ∉ bs ∧ .params ∉ bs) :
    PrintWork s u := h.trans (.of_only k hb)

theorem after_only {bs : List Block} (k : Only bs s t) (hb : .print ∉ bs ∧ .params ∉ bs) (h : PrintWork t u) :
    PrintWork s u := (of_only k hb).trans h

theorem onLine (i : Fin 8) (f : TicketLine → TicketLine)
    (h : (f (s.ticketLine i)).state = (s.ticketLine i).state ∧ (f (s.ticketLine i)).jobs = (s.ticketLine i).jobs) :
    PrintWork s (s.onTicketLine i f) := by
  refine .marks (fun k => ?_) rfl rfl (fun _ => rfl) rfl
  by_cases hk : i = k
  · subst hk
    simpa using h
  · simp [hk]

/-- The results of an element are written. -/
theorem onElement (e : Fin 256) (f : Option Element → Option Element) (h : ∀ x, (f x).map (·.next) = x.map (·.next)) :
    PrintWork s { s with print := { s.print with pool := s.print.pool.modify e f } } := by
  refine .marks (fun k => ⟨rfl, rfl⟩) rfl rfl (fun k => ?_) rfl
  by_cases hk : e = k
  · subst hk
    simp [h]
  · simp [hk]

end PrintWork

open PrintWork

variable {s : State}

theorem jobs_started (l : TicketLine) : TicketLine.jobs { l with
    queue := match l.queue with
      | j :: rest => { j with started := true } :: rest
      | [] => [] } = l.jobs := by
  unfold TicketLine.jobs
  cases l.queue <;> rfl

theorem printWork_sendElement (i : Fin 8) (s : State) : PrintWork s (sendElement i s) := by
  unfold sendElement
  split
  · exact .refl s
  · split
    · exact .refl s
    · refine PrintWork.trans ?_ (.of_only (bs := [.lines]) ((only_send (by simp)).2 (Only.refl _ _)) (by simp))
      exact .onLine i _ ⟨rfl, jobs_started _⟩

theorem printWork_judgeFrom (n : Nat) (s : State) : PrintWork s (judgeFrom n s) := by
  induction n generalizing s with
  | zero => exact .refl s
  | succ n ih =>
    unfold judgeFrom
    split
    · exact .refl s
    · next i rest ho =>
      split
      · next hfit => exact ((PrintWork.grants i rest ho hfit).trans (printWork_sendElement i _)).trans (ih _)
      · exact .refl s

theorem printWork_judge (s : State) : PrintWork s (judge s) := printWork_judgeFrom 8 s

theorem printWork_release {i : Fin 8} {f : TicketLine → TicketLine} (hq : ∀ l, (f l).queue = l.queue)
    (hnew : ¬ (f (s.ticketLine i)).state.atPower)
    (hidle : (f (s.ticketLine i)).state = .idle → (s.ticketLine i).queue = []) : PrintWork s (release i f s) := by
  unfold release
  dsimp only
  split
  · exact (PrintWork.vacates i f hq hnew hidle).trans (printWork_judge _)
  · exact .vacates i f hq hnew hidle

theorem joinOrder_eq (i : Fin 8) (s : State) :
    joinOrder i s = if s.print.order.isEmpty then judge (enterOrder i id s) else enterOrder i id s := rfl

theorem printWork_joinOrder {u : State} {i : Fin 8} (h : PrintWork u (enterOrder i id s)) :
    PrintWork u (joinOrder i s) := by
  rw [joinOrder_eq]
  split
  · exact h.trans (printWork_judge _)
  · exact h

theorem onTicketLine_onTicketLine (i : Fin 8) (f g : TicketLine → TicketLine) (s : State) :
    (s.onTicketLine i f).onTicketLine i g = s.onTicketLine i (fun l => g (f l)) := by
  simp only [State.onTicketLine, Tab.modify, Tab.set, Tab.get]
  simp [List.getElem_set]

theorem enterOrder_onTicketLine (i : Fin 8) (f : TicketLine → TicketLine) (s : State) :
    enterOrder i id (s.onTicketLine i f) = enterOrder i f s := by
  simp only [enterOrder, onTicketLine_onTicketLine]
  rfl

/-- R143: a line that becomes IDLE with a job in its queue waits for power at once. -/
theorem printWork_wake {i : Fin 8} {f : TicketLine → TicketLine} (hq : ∀ l, (f l).queue = l.queue)
    (hold : ¬ (s.ticketLine i).state.atPower) (hidle : (f (s.ticketLine i)).state = .idle) :
    PrintWork s (wake i (s.onTicketLine i f)) := by
  unfold wake
  dsimp only
  split
  · refine printWork_joinOrder ?_
    rw [enterOrder_onTicketLine]
    exact .joins i f hq hold
  · next h =>
    refine .shifts i f hq hold (by simp [hidle, TicketLineState.atPower]) fun _ => ?_
    simpa [hidle, hq] using h

theorem arrangeFrom_nodup {α : Type} (c n : Nat) (l : List α) (h : l.Nodup) : (arrangeFrom c n l).Nodup := by
  induction n generalizing c l with
  | zero => exact h
  | succ n ih =>
    unfold arrangeFrom
    split
    · exact h
    · dsimp only
      split
      · exact h
      · next x hx =>
        refine List.nodup_cons.2 ⟨fun hm => ?_, ih _ _ (h.eraseIdx _)⟩
        obtain ⟨j, hne, hj⟩ := List.mem_eraseIdx_iff_getElem?.1 (arrangeFrom_subset _ _ _ _ hm)
        have hlt := (List.getElem?_eq_some_iff.1 hj).1
        exact hne ((List.getElem?_inj hlt h).1 (hj.trans hx.symm))

theorem freeElements_nodup (s : State) : s.freeElements.Nodup := (List.nodup_finRange 256).filter _

/-- R139, R140: a job with its chain of free elements joins the queue, and a line in IDLE waits for power with it. -/
theorem printWork_queueJob {i : Fin 8} {job : Job} {numbers : List (Fin 256)} {plans : List ElementPlan}
    (hlen : (s.ticketLine i).queue.length < 6) (hfree : ∀ e ∈ numbers, e ∈ s.freeElements) (hnd : numbers.Nodup)
    (hle : numbers.length ≤ plans.length) (hfirst : numbers.head? = some job.first) :
    PrintWork s (wake i (queueJob i job numbers plans s)) := by
  unfold wake
  dsimp only
  have hst : ((queueJob i job numbers plans s).ticketLine i).state = (s.ticketLine i).state := by
    simp only [queueJob, ticketLine_onTicketLine_self]
    rfl
  split
  · next h => exact printWork_joinOrder (.starts i job numbers plans hlen hfree hnd hle hfirst (hst ▸ h.1))
  · next h =>
    refine .queues i job numbers plans hlen hfree hnd hle hfirst fun hi => h ⟨by rw [hst, hi], ?_⟩
    simp [queueJob]

theorem printWork_makeJob {i : Fin 8} {sale : Sale} {origin : Owner} {makeUp : MakeUp} {n : Nat}
    (h : s.jobFits i n = true) : PrintWork s (makeJob i sale origin makeUp s) := by
  have hlen : (s.ticketLine i).queue.length < 6 := by
    unfold State.jobFits at h
    exact of_decide_eq_true (Bool.and_eq_true_iff.1 h).2
  unfold makeJob
  dsimp only
  generalize composeJob s sale makeUp = plans
  generalize hnum : (arrangeFrom s.choice plans.length s.freeElements).take plans.length = numbers
  have hfree : ∀ e ∈ numbers, e ∈ s.freeElements := fun e he =>
    arrangeFrom_subset _ _ _ _ (List.mem_of_mem_take (hnum ▸ he))
  have hnd : numbers.Nodup :=
    hnum ▸ (arrangeFrom_nodup _ _ _ (freeElements_nodup s)).sublist (List.take_sublist _ _)
  have hle : numbers.length ≤ plans.length := hnum ▸ List.length_take_le _ _
  cases numbers with
  | nil => exact .refl s
  | cons first tail =>
    dsimp only
    by_cases hone : s.freeElements.length ≤ 1
    · rw [if_pos hone]
      exact printWork_queueJob (job := ⟨sale.number, origin, first, plans.length, _, false⟩) hlen hfree hnd hle rfl
    · rw [if_neg hone]
      have hf : State.freeElements { s with choice := s.choice + plans.length } = s.freeElements := by
        simp only [State.freeElements]
      refine .trans (t := { s with choice := s.choice + plans.length }) (.of_eq rfl rfl) ?_
      exact printWork_queueJob (job := ⟨sale.number, origin, first, plans.length, _, false⟩) hlen (hf ▸ hfree) hnd hle
        rfl

theorem printWork_requestJob (i : Fin 8) (sale : Sale) (origin : Owner) (makeUp : MakeUp) (s : State) :
    PrintWork s (requestJob i sale origin makeUp s).2 := by
  unfold requestJob
  dsimp only
  split
  · next hw =>
    split
    · next h => exact printWork_makeJob h
    · exact .waits _ (by simp [hw])
  · split
    · next h => exact .waits _ h
    · exact .refl s

theorem printWork_serveFrom (n : Nat) (s : State) : PrintWork s (serveFrom n s) := by
  induction n generalizing s with
  | zero => exact .refl s
  | succ n ih =>
    unfold serveFrom
    split
    · exact .refl s
    · next e rest hw =>
      dsimp only
      split
      · exact (PrintWork.serves e rest hw).trans (ih _)
      · split
        · next h => exact ((PrintWork.serves e rest hw).trans (printWork_makeJob h)).trans (ih _)
        · exact .refl s

theorem printWork_completeJob (i : Fin 8) (s : State) : PrintWork s (completeJob i s) := by
  unfold completeJob
  split
  · exact .refl s
  · next j rest hq =>
    refine ((PrintWork.completes i j rest hq).trans (.of_eq ?_ ?_)).trans (printWork_serveFrom _ _) <;> rfl

theorem sendElement_order (i : Fin 8) (s : State) : (sendElement i s).print.order = s.print.order := by
  unfold sendElement
  split
  · rfl
  · split <;> rfl

theorem sendElement_ticketLine_ne {i k : Fin 8} (h : i ≠ k) (s : State) :
    (sendElement i s).ticketLine k = s.ticketLine k := by
  unfold sendElement
  split
  · rfl
  · split
    · rfl
    · exact ticketLine_onTicketLine_ne _ _ h

/-- The arbiter's grants reach the lines of the order alone. -/
theorem judgeFrom_ticketLine {k : Fin 8} (n : Nat) {s : State} (h : k ∉ s.print.order) :
    (judgeFrom n s).ticketLine k = s.ticketLine k := by
  induction n generalizing s with
  | zero => rfl
  | succ n ih =>
    unfold judgeFrom
    split
    · rfl
    · next i rest ho =>
      rw [ho, List.mem_cons, not_or] at h
      split
      · have hi : i ≠ k := fun e => h.1 e.symm
        rw [ih (by rw [sendElement_order]; exact h.2), sendElement_ticketLine_ne hi, ticketLine_onTicketLine_ne _ _ hi]
        rfl
      · rfl

theorem release_ticketLine_self (i : Fin 8) (f : TicketLine → TicketLine) (s : State) :
    (release i f s).ticketLine i = f (s.ticketLine i) := by
  have hv : (vacate i f s).ticketLine i = f (s.ticketLine i) := ticketLine_onTicketLine_self i f s
  unfold release
  dsimp only
  split
  · rw [judge, judgeFrom_ticketLine 8 (by simp [vacate]), hv]
  · exact hv

theorem printWork_leaveRest {i : Fin 8} (h : (s.ticketLine i).state = .resting) : PrintWork s (leaveRest i s) :=
  printWork_wake (fun _ => rfl) (by simp [h, TicketLineState.atPower]) rfl

theorem printWork_enterRest (i : Fin 8) (s : State) : PrintWork s (enterRest i s) := by
  unfold enterRest
  dsimp only
  have hr : ∀ rest, PrintWork s (release i (fun l => { l with state := .resting, sinceRest := 0, rest := rest }) s) :=
    fun rest => printWork_release (fun _ => rfl) (by simp [TicketLineState.atPower]) (by simp)
  split
  · exact (hr _).trans (printWork_leaveRest (by rw [release_ticketLine_self]))
  · exact hr _

theorem printWork_goOn (i : Fin 8) (done : Bool) (s : State) : PrintWork s (goOn i done s) := by
  unfold goOn
  dsimp only
  split
  · exact printWork_release (fun _ => rfl) (by simp [TicketLineState.atPower]) (by simp)
  · split
    · exact printWork_release (fun _ => rfl) (by simp [TicketLineState.atPower]) (by simp)
    · split
      · exact printWork_enterRest i s
      · split
        · exact printWork_sendElement i s
        · next h => exact printWork_release (fun _ => rfl) (by simp [TicketLineState.atPower]) (fun _ => by simpa using h)

theorem jobs_counted (l : TicketLine) (n : Nat) : TicketLine.jobs { l with
    sinceRest := n
    queue := match l.queue with
      | j :: rest => { j with remaining := j.remaining - 1 } :: rest
      | [] => [] } = l.jobs := by
  unfold TicketLine.jobs
  cases l.queue <;> rfl

theorem printWork_completeElement (i : Fin 8) (e : Fin 256) (x : ElementResult) (s : State) :
    PrintWork s (completeElement i e x s) := by
  unfold completeElement
  dsimp only
  refine PrintWork.trans (.onElement (s := s) e (fun y => y.map (fun y => { y with result := x }))
    (fun y => by cases y <;> rfl)) ?_
  generalize ({ s with print := { s.print with pool := _ } } : State) = u
  generalize hw : u.onTicketLine i _ = w
  have hmarks : PrintWork u w := by
    rw [← hw]
    exact .onLine i _ ⟨rfl, jobs_counted _ _⟩
  split
  · exact hmarks
  · split
    · exact hmarks.trans ((printWork_completeJob i _).trans (printWork_goOn i true _))
    · exact hmarks.trans (printWork_goOn i false _)

theorem printWork_spoilInFlight (i : Fin 8) (s : State) : PrintWork s (spoilInFlight i s) := by
  unfold spoilInFlight
  split
  · exact .refl s
  · exact .onElement _ _ (fun y => by cases y <;> rfl)

theorem printWork_powerDown (i : Fin 8) (s : State) : PrintWork s (powerDown i s) := by
  unfold powerDown
  split
  · exact .refl s
  · exact (printWork_spoilInFlight i s).trans
      (printWork_release (fun _ => rfl) (by simp [TicketLineState.atPower]) (by simp))

theorem printWork_printerFault (i : Fin 8) (c : Cause) (s : State) : PrintWork s (printerFault i c s) := by
  unfold printerFault
  dsimp only
  split
  · exact .onLine i _ ⟨rfl, rfl⟩
  · exact (printWork_spoilInFlight i s).trans
      (printWork_release (fun _ => rfl) (by simp [TicketLineState.atPower]) (by simp))

theorem printWork_cutSupply (i : Fin 8) (c : Cause) (s : State) : PrintWork s (cutSupply i c s) :=
  (printWork_spoilInFlight i s).trans (.vacates i _ (fun _ => rfl) (by simp [TicketLineState.atPower]) (by simp))

theorem printWork_filteredFault (i : Fin 8) (s : State) : PrintWork s (filteredFault i s) := by
  unfold filteredFault
  dsimp only
  split
  · split
    · exact (printWork_cutSupply i _ s).trans (printWork_judge _)
    · exact printWork_cutSupply i _ s
  · exact List.foldlRecOn _ _ (printWork_cutSupply i _ s) fun u hu k _ => hu.trans (printWork_cutSupply k _ u)

theorem printWork_faultInput (i : Fin 8) (x : FaultInput) (s : State) : PrintWork s (faultInput i x s) := by
  unfold faultInput
  dsimp only
  split
  · split
    · exact .refl s
    · exact .onLine i _ ⟨rfl, rfl⟩
  · split
    · exact .refl s
    · split
      · exact printWork_filteredFault i s
      · exact .refl s
  · exact .onLine i _ ⟨rfl, rfl⟩

end Sys2Proof.Machine
end

section
/-! PROOFS. Every command's work on the print controller, and with it the laws of power and of the pool's jobs. -/

namespace Sys2Proof.Machine

open PrintWork

variable {s : State}

theorem PrintWork.answer {s t : State} {r : Reply} {res : Result} {fs : List Byte} (h : PrintWork s t) :
    PrintWork s (answer r res fs t) := h.then_only (bs := [.lines]) (by simp) (by simp)

/-- A sale that has its job marked so has nothing to do with the printers. -/
theorem printWork_jobLive {p : PrintOutcome × State} (h : PrintWork s p.2) (n : Nat) (f : Sale → Sale) :
    PrintWork s (if p.1 = .notQueued then p.2 else p.2.onSale n f) := by
  split
  · exact h
  · exact h.then_only (bs := [.sales]) (by simp) (by simp)

theorem printWork_commitJob (line : Option (Fin 8)) (n : Nat) (s : State) : PrintWork s (commitJob line n s).2 := by
  unfold commitJob
  split
  · exact printWork_jobLive (printWork_requestJob ..) n _
  · exact .refl s

theorem printWork_completeCommit (slot : Fin 16) (b : Basket) (c : Commit) (s : State) :
    PrintWork s (completeCommit slot b c s) := by
  have hrec : PrintWork s (freeSlot slot b (recordSale b c s)) :=
    .of_only (bs := [.sales, .vouchers, .baskets, .prices, .lines, .stations]) (by simp) (by simp)
  have hjob := hrec.trans (printWork_commitJob ((freeSlot slot b (recordSale b c s)).commitLine b.owner c) c.number _)
  unfold completeCommit
  dsimp only
  split
  · exact hjob
  · exact hjob.then_only (bs := [.lines, .sales]) (by simp) (by simp)

theorem printWork_runSellBasket (slot : Fin 16) (ref n sale : Nat) (s : State) :
    PrintWork s (runSellBasket slot ref n sale s) := by
  unfold runSellBasket
  split
  · exact .after_only (bs := [.screenings]) (by simp) (by simp) (printWork_completeCommit _ _ _ _)
  · exact .refl s

theorem printWork_runReprint (who : Requester) (r : Reply) (line : Byte) (k : Sale) (named : List Nat) (s : State) :
    PrintWork s (runReprint who r line k named s) := by
  unfold runReprint
  split
  · exact .of_only (bs := [.lines]) (by simp) (by simp)
  · dsimp only
    exact PrintWork.answer (printWork_jobLive (printWork_requestJob ..) k.number _)

theorem printWork_offIfUnserved (former : Option Binding) (s : State) : PrintWork s (offIfUnserved former s) := by
  unfold offIfUnserved
  split
  · exact .refl s
  · split
    · exact printWork_powerDown _ s
    · exact .refl s

theorem printWork_bindStation (n : Fin 8) (b : Binding) (s : State) : PrintWork s (bindStation n b s) :=
  .trans (t := s.onStation n (fun _ => ⟨some b, .locked⟩)) (.of_eq rfl rfl) (printWork_offIfUnserved _ _)

theorem printWork_unbindStation (n : Fin 8) (s : State) : PrintWork s (unbindStation n s) :=
  .trans (t := s.onStation n (fun _ => ⟨none, .unbound⟩)) (.of_eq rfl rfl) (printWork_offIfUnserved _ _)

theorem printWork_tickPrint (s : State) : PrintWork s (tickPrint s) :=
  .marks (fun k => by simp [tickPrint, State.ticketLine, TicketLine.jobs]) rfl rfl (fun _ => rfl) rfl

theorem printWork_secondTick (s : State) : PrintWork s (secondTick s) := by
  have hbefore : PrintWork s (tickSales (tickPay s)) := .of_only (bs := [.pay, .sales]) (by simp) (by simp)
  exact (hbefore.trans (printWork_tickPrint _)).then_only (bs := [.clock, .baskets, .lines, .choice])
    (by simp [secondTick]) (by simp)

theorem printWork_powerUp {i : Fin 8} (h : (s.ticketLine i).state = .off) : PrintWork s (powerUp i s) :=
  printWork_wake (fun _ => rfl) (by simp [h, TicketLineState.atPower]) rfl

theorem printWork_resumeLine {i : Fin 8} (h : s.mayResume i = true) : PrintWork s (resumeLine i s) := by
  refine printWork_wake (fun l => ?_) ?_ rfl
  · dsimp only
    split <;> rfl
  · rintro (e | e) <;> simp [State.mayResume, e] at h

theorem printWork_stopNow (i : Fin 8) (s : State) : PrintWork s (stopNow i s) :=
  printWork_release (fun _ => rfl) (by simp [TicketLineState.atPower]) (by simp)

theorem printWork_haltNow (i : Fin 8) (s : State) : PrintWork s (haltNow i s) :=
  printWork_release (fun _ => rfl) (by simp [TicketLineState.atPower]) (by simp)

/-- R152: CLEAR empties the capture, and takes a line stopped for OVERCURRENT to OFF. -/
theorem printWork_cleared (i : Fin 8) (s : State) : PrintWork s (s.onTicketLine i TicketLine.cleared) := by
  by_cases h : (s.ticketLine i).state = .stopped ∧ (s.ticketLine i).cause = some .overcurrent
  · refine .shifts i _ (fun l => ?_) (by simp [h.1, TicketLineState.atPower]) ?_ ?_
    · unfold TicketLine.cleared
      split <;> rfl
    · simp [TicketLine.cleared, h, TicketLineState.atPower]
    · simp [TicketLine.cleared, h]
  · exact .onLine i _ (by simp [TicketLine.cleared, h, TicketLine.jobs])

theorem printWork_expireRest (i : Fin 8) (s : State) : PrintWork s (expireRest i s) := by
  unfold expireRest
  split
  · next h =>
    refine printWork_leaveRest ?_
    simp only [State.restOver, Bool.and_eq_true, beq_iff_eq] at h
    exact h.1
  · exact .refl s

theorem printWork_carryOut (e : Event) (s : State) (h : .print ∈ e.touches) : PrintWork s (carryOut e s) := by
  cases e
  case rest i => exact printWork_expireRest i s
  all_goals simp [Event.touches] at h

theorem printWork_onNamedLine {b : Byte} {r : Reply} {f : Fin 8 → State → State} (h : ∀ i, PrintWork s (f i s)) :
    PrintWork s (onNamedLine b r f s) := by
  unfold onNamedLine
  split
  · exact .of_only (bs := [.lines]) (by simp) (by simp)
  · exact h _

/-- A property of the print controller, or of it and the parameters, that is kept by its work. -/
theorem lasting_printWork {D : List Block} {P : State → Prop} (hD : ∀ b ∈ D, b = .print ∨ b = .params)
    (hP : ∀ s t, PrintWork s t → P s → P t) (hreset : P State.reset) (hprint : .print ∈ D) (hreads : Reads D P) :
    Lasting D P where
  reads := hreads
  apart b hb := by rcases hD b hb with rfl | rfl <;> simp
  reset := hreset
  events e s h hs := by
    obtain ⟨b, hb, he⟩ := h
    rcases hD b hb with rfl | rfl
    · exact hP _ _ (printWork_carryOut e s he) hs
    · cases e <;> simp [Event.touches] at he

/-- Every command does to the print controller what `PrintWork` says: a property kept by that is kept by every command
but SET_PARAM, where it reads the parameters too. -/
theorem exec_printWork {D : List Block} {P : State → Prop} (k : Lasting D P) (hD : ∀ b ∈ D, b = .print ∨ b = .params)
    (hP : ∀ s t, PrintWork s t → P s → P t) {i : Instr} (hi : .params ∈ D → .params ∉ touches i)
    {s t : State} (h : exec i s = .next t) (hs : P s) : P t := by
  have ho : Block.outstanding ∉ D := fun hm => by simpa using hD _ hm
  have he : Block.engine ∉ D := fun hm => by simpa using hD _ hm
  have named : ∀ {i : Instr} {src : Link} {tag kind : Byte} {ok : Bool} {line : Byte}
      {f : Reply → Fin 8 → State → State}, (∀ r n u, PrintWork u (f r n u)) →
      request i src tag kind ok (fun _ r => onNamedLine line r (f r)) s = .next t → P t := fun hf h =>
    k.request ho h (fun _ r u hu => hP _ _ (printWork_onNamedLine (hf r · u)) hu) hs
  cases i
  case secondTick => exact k.command h (fun u => hP _ _ (printWork_secondTick u)) hs
  case printerRestExpiry => exact k.event h (hP _ _ (printWork_expireRest _ s)) hs
  case filteredFault => exact k.command h (fun u => hP _ _ (printWork_faultInput _ _ u)) hs
  case sellBasket =>
    exact k.command h (fun u => k.arbitrate he fun x f hf w => hP _ _ (by
      split at hf <;> cases hf
      exact printWork_runSellBasket ..)) hs
  case reprint =>
    refine k.request ho h (fun who r u hu => hP _ _ ?_ hu) hs
    dsimp only
    repeat' split
    any_goals exact (PrintWork.refl u).answer
    exact printWork_runReprint ..
  case powerOn =>
    refine named (fun r n u => ?_) h
    split
    · next hoff => exact (printWork_powerUp hoff.1).answer
    · exact (PrintWork.refl u).answer
  case powerOff => exact named (fun r n u => (printWork_powerDown n u).answer) h
  case stop =>
    refine named (fun r n u => ?_) h
    split
    · exact (PrintWork.onLine n _ ⟨rfl, rfl⟩).answer
    · exact (PrintWork.refl u).answer
    · exact (PrintWork.refl u).answer
    · exact (PrintWork.refl u).answer
    · exact (printWork_stopNow n u).answer
  case halt =>
    refine named (fun r n u => ?_) h
    have hmark : PrintWork u (u.onTicketLine n (fun l => { l with haltPending := true })) := .onLine n _ ⟨rfl, rfl⟩
    dsimp only
    repeat' split
    any_goals exact (PrintWork.refl u).answer
    any_goals exact hmark.answer
    all_goals exact (printWork_haltNow n u).answer
  case resume =>
    refine named (fun r n u => ?_) h
    split
    · next hm => exact (printWork_resumeLine hm).answer
    · exact (PrintWork.refl u).answer
  case clear => exact named (fun r n u => (printWork_cleared n u).answer) h
  case elementDone =>
    refine k.message (exec_elementDone _ _ _ s ▸ h) (fun u => hP _ _ ?_) hs
    split
    · split
      · exact printWork_completeElement _ _ _ u
      · exact .refl u
    · exact .refl u
  case printerState =>
    refine k.message (exec_printerState _ _ s ▸ h) (fun u => hP _ _ ?_) hs
    split
    · exact .refl u
    · split
      · split
        · exact .onLine _ _ ⟨rfl, rfl⟩
        · exact (PrintWork.onLine _ _ ⟨rfl, rfl⟩).trans (printWork_printerFault _ _ _)
      · exact .refl u
  case bindStation =>
    refine k.request ho h (fun who r u hu => hP _ _ ?_ hu) hs
    dsimp only
    repeat' split
    any_goals exact (PrintWork.refl u).answer
    exact (printWork_bindStation _ _ u).answer
  case unbind =>
    refine k.request ho h (fun who r u hu => hP _ _ ?_ hu) hs
    unfold onNamedStation
    dsimp only
    repeat' split
    any_goals exact (PrintWork.refl u).answer
    exact (printWork_unbindStation _ u).answer
  all_goals exact k.exec_apart ho (fun b hb => by
    rcases hD b hb with rfl | rfl
    · unfold touches; simp
    · exact hi hb) h hs

-- ## The lines after each kind of change

theorem onTicketLine_ticketLine (i k : Fin 8) (f : TicketLine → TicketLine) (s : State) :
    (s.onTicketLine i f).ticketLine k = if i = k then f (s.ticketLine k) else s.ticketLine k :=
  Tab.get_modify ..

theorem vacate_ticketLine (i k : Fin 8) (f : TicketLine → TicketLine) (s : State) :
    (vacate i f s).ticketLine k = if i = k then f (s.ticketLine k) else s.ticketLine k := Tab.get_modify ..

theorem grantHead_ticketLine (i k : Fin 8) (rest : List (Fin 8)) (s : State) : (grantHead i rest s).ticketLine k
    = if i = k then { s.ticketLine k with state := .printing } else s.ticketLine k := Tab.get_modify ..

theorem enterOrder_ticketLine (i k : Fin 8) (f : TicketLine → TicketLine) (s : State) : (enterOrder i f s).ticketLine k
    = if i = k then { f (s.ticketLine k) with state := .waitPower } else s.ticketLine k := Tab.get_modify ..

theorem queueJob_ticketLine (i k : Fin 8) (j : Job) (ns : List (Fin 256)) (ps : List ElementPlan) (s : State) :
    (queueJob i j ns ps s).ticketLine k
      = if i = k then { s.ticketLine k with queue := (s.ticketLine k).queue ++ [j] } else s.ticketLine k :=
  Tab.get_modify ..

theorem dropJob_ticketLine (i k : Fin 8) (j : Job) (rest : List Job) (s : State) : (dropJob i j rest s).ticketLine k
    = if i = k then { s.ticketLine k with queue := rest } else s.ticketLine k := Tab.get_modify ..

-- ## The power law (R143, R145)

theorem grantedSum_eq (s : State) :
    s.grantedSum = ∑ i, if (s.ticketLine i).granted then s.params.draws.get i else 0 := by
  rw [Fin.sum_univ_def, State.grantedSum]
  unfold indices
  induction List.finRange 8 with
  | nil => rfl
  | cons i l ih =>
    rw [List.filter_cons, List.map_cons, List.sum_cons, ← ih]
    split <;> simp

/-- R145: the draws granted rise only by that of a line newly granted. -/
theorem grantedSum_le_add {s t : State} {i : Fin 8} (hp : t.params = s.params)
    (h : ∀ k, (t.ticketLine k).granted = true → k = i ∨ (s.ticketLine k).granted = true) :
    t.grantedSum ≤ s.grantedSum + s.params.draws.get i := by
  have hi : s.params.draws.get i = ∑ k, if k = i then s.params.draws.get k else 0 := by simp
  rw [grantedSum_eq, grantedSum_eq, hp, hi, ← Finset.sum_add_distrib]
  refine Finset.sum_le_sum fun k _ => ?_
  split
  · next hk =>
    rcases h k hk with rfl | hg
    · simp
    · simp [hg]
  · exact Nat.zero_le _

theorem grantedSum_le {s t : State} (hp : t.params = s.params)
    (h : ∀ k, (t.ticketLine k).granted = true → (s.ticketLine k).granted = true) : t.grantedSum ≤ s.grantedSum := by
  rw [grantedSum_eq, grantedSum_eq, hp]
  refine Finset.sum_le_sum fun k _ => ?_
  split
  · next hk => simp [h k hk]
  · exact Nat.zero_le _

theorem granted_iff (l : TicketLine) : l.granted = true ↔ l.state = .printing := by
  simp [TicketLine.granted]

theorem jobs_eq_nil (l : TicketLine) : l.jobs = [] ↔ l.queue = [] := by simp [TicketLine.jobs]

/-- The law with one line changed. -/
theorem PowerLaw.of_line {s t : State} {i : Fin 8} (hs : PowerLaw s) (hb : t.grantedSum ≤ t.params.budget)
    (hk : ∀ k, k ≠ i → t.ticketLine k = s.ticketLine k) (hn : t.print.order.Nodup)
    (ho : ∀ k, k ≠ i → (k ∈ t.print.order ↔ k ∈ s.print.order))
    (hoi : i ∈ t.print.order ↔ (t.ticketLine i).state = .waitPower)
    (hi : (t.ticketLine i).state = .idle → (t.ticketLine i).queue = []) : PowerLaw t := by
  obtain ⟨-, -, hord, hidle⟩ := hs
  refine ⟨hb, hn, fun k => ?_, fun k => ?_⟩ <;> by_cases h : k = i
  · exact h ▸ hoi
  · rw [ho k h, hk k h, hord]
  · exact h ▸ hi
  · rw [hk k h]
    exact hidle k

/-- With one line changed, and not granted anew, the draws granted still fit. -/
theorem PowerLaw.fits {s t : State} {i : Fin 8} (hs : PowerLaw s) (hp : t.params = s.params)
    (hk : ∀ k, k ≠ i → t.ticketLine k = s.ticketLine k)
    (hg : (t.ticketLine i).state = .printing → (s.ticketLine i).state = .printing) :
    t.grantedSum ≤ t.params.budget := by
  rw [hp]
  refine (grantedSum_le hp fun k => ?_).trans hs.1
  by_cases h : k = i
  · subst h
    simpa only [granted_iff] using hg
  · rw [hk k h]
    exact id

theorem PowerLaw.marks {s t : State} (hs : PowerLaw s)
    (hl : ∀ k, (t.ticketLine k).state = (s.ticketLine k).state ∧ (t.ticketLine k).jobs = (s.ticketLine k).jobs)
    (ho : t.print.order = s.print.order) (hp : t.params = s.params) : PowerLaw t := by
  obtain ⟨hb, hnd, hord, hidle⟩ := hs
  refine ⟨?_, ho ▸ hnd, fun k => ?_, fun k hk => ?_⟩
  · rw [hp]
    exact (grantedSum_le hp fun k => by rw [granted_iff, granted_iff, (hl k).1]; exact id).trans hb
  · rw [ho, (hl k).1]
    exact hord k
  · rw [← jobs_eq_nil, (hl k).2, jobs_eq_nil]
    exact hidle k ((hl k).1 ▸ hk)

theorem PowerLaw.shifts {s : State} {i : Fin 8} {f : TicketLine → TicketLine} (hs : PowerLaw s)
    (hq : ∀ l, (f l).queue = l.queue) (hold : ¬ (s.ticketLine i).state.atPower)
    (hnew : ¬ (f (s.ticketLine i)).state.atPower)
    (hid : (f (s.ticketLine i)).state = .idle → (s.ticketLine i).queue = []) : PowerLaw (s.onTicketLine i f) := by
  simp only [TicketLineState.atPower, not_or] at hold hnew
  have hk : ∀ k, k ≠ i → (s.onTicketLine i f).ticketLine k = s.ticketLine k := fun k h =>
    ticketLine_onTicketLine_ne _ _ (Ne.symm h)
  refine hs.of_line (hs.fits rfl hk ?_) hk hs.2.1 (fun k _ => Iff.rfl) ?_ ?_
  · simp [hnew]
  · have hni : i ∉ s.print.order := fun h => hold.1 ((hs.2.2.1 i).1 h)
    have ho : (s.onTicketLine i f).print.order = s.print.order := rfl
    simp [ho, hni, hnew]
  · simpa [hq] using hid

theorem PowerLaw.vacates {s : State} {i : Fin 8} {f : TicketLine → TicketLine} (hs : PowerLaw s)
    (hq : ∀ l, (f l).queue = l.queue) (hnew : ¬ (f (s.ticketLine i)).state.atPower)
    (hid : (f (s.ticketLine i)).state = .idle → (s.ticketLine i).queue = []) : PowerLaw (vacate i f s) := by
  simp only [TicketLineState.atPower, not_or] at hnew
  have hk : ∀ k, k ≠ i → (vacate i f s).ticketLine k = s.ticketLine k := fun k h => by
    rw [vacate_ticketLine, if_neg (Ne.symm h)]
  have hi : (vacate i f s).ticketLine i = f (s.ticketLine i) := by rw [vacate_ticketLine, if_pos rfl]
  have ho : (vacate i f s).print.order = s.print.order.filter (fun k => k != i) := rfl
  refine hs.of_line (hs.fits rfl hk ?_) hk ?_ (fun k h => ?_) ?_ ?_
  · simp [hi, hnew]
  · exact ho ▸ hs.2.1.filter _
  · simp [ho, h]
  · simp [ho, hi, hnew]
  · simpa [hi, hq] using hid

theorem PowerLaw.grants {s : State} {i : Fin 8} {rest : List (Fin 8)} (hs : PowerLaw s)
    (ho : s.print.order = i :: rest) (hfit : s.grantedSum + s.params.draws.get i ≤ s.params.budget) :
    PowerLaw (grantHead i rest s) := by
  have hk : ∀ k, k ≠ i → (grantHead i rest s).ticketLine k = s.ticketLine k := fun k h => by
    rw [grantHead_ticketLine, if_neg (Ne.symm h)]
  have hi : ((grantHead i rest s).ticketLine i).state = .printing := by rw [grantHead_ticketLine, if_pos rfl]
  have ho' : (grantHead i rest s).print.order = rest := rfl
  have hnd := List.nodup_cons.1 (ho ▸ hs.2.1)
  have hsum : (grantHead i rest s).grantedSum ≤ s.grantedSum + s.params.draws.get i :=
    grantedSum_le_add rfl fun k hg => by
      by_cases h : k = i
      · exact .inl h
      · exact .inr (hk k h ▸ hg)
  refine hs.of_line (hsum.trans hfit) hk ?_ (fun k h => ?_) ?_ ?_
  · exact ho' ▸ hnd.2
  · simp [ho', ho, h]
  · simp [ho', hi, hnd.1]
  · simp [hi]

theorem PowerLaw.joins {s : State} {i : Fin 8} {f : TicketLine → TicketLine} (hs : PowerLaw s)
    (hold : ¬ (s.ticketLine i).state.atPower) : PowerLaw (enterOrder i f s) := by
  simp only [TicketLineState.atPower, not_or] at hold
  have hk : ∀ k, k ≠ i → (enterOrder i f s).ticketLine k = s.ticketLine k := fun k h => by
    rw [enterOrder_ticketLine, if_neg (Ne.symm h)]
  have hi : ((enterOrder i f s).ticketLine i).state = .waitPower := by rw [enterOrder_ticketLine, if_pos rfl]
  have ho : (enterOrder i f s).print.order = s.print.order ++ [i] := rfl
  have hni : i ∉ s.print.order := fun h => hold.1 ((hs.2.2.1 i).1 h)
  refine hs.of_line (hs.fits rfl hk ?_) hk ?_ (fun k h => ?_) ?_ ?_
  · simp [hi]
  · rw [ho]
    exact hs.2.1.append (List.nodup_singleton i) (by simpa using hni)
  · simp [ho, h]
  · simp [ho, hi]
  · simp [hi]

theorem PowerLaw.queues {s : State} {i : Fin 8} {job : Job} {numbers : List (Fin 256)} {plans : List ElementPlan}
    (hs : PowerLaw s) (hidle : (s.ticketLine i).state ≠ .idle) : PowerLaw (queueJob i job numbers plans s) := by
  have hk : ∀ k, k ≠ i → (queueJob i job numbers plans s).ticketLine k = s.ticketLine k := fun k h => by
    rw [queueJob_ticketLine, if_neg (Ne.symm h)]
  have hi : ((queueJob i job numbers plans s).ticketLine i).state = (s.ticketLine i).state := by
    rw [queueJob_ticketLine, if_pos rfl]
  exact hs.of_line (hs.fits rfl hk (by rw [hi]; exact id)) hk hs.2.1 (fun k _ => Iff.rfl)
    (by rw [hi]; exact hs.2.2.1 i) fun h => absurd (hi ▸ h) hidle

/-- A line in IDLE that a job reaches waits with it, as if it had waited before the job came. -/
theorem PowerLaw.starts {s : State} {i : Fin 8} {job : Job} {numbers : List (Fin 256)} {plans : List ElementPlan}
    (hs : PowerLaw s) (hidle : (s.ticketLine i).state = .idle) :
    PowerLaw (enterOrder i id (queueJob i job numbers plans s)) := by
  have hjoin : PowerLaw (enterOrder i id s) := hs.joins (by simp [hidle, TicketLineState.atPower])
  have hq : PowerLaw (queueJob i job numbers plans (enterOrder i id s)) := hjoin.queues (by
    rw [enterOrder_ticketLine, if_pos rfl]
    simp)
  refine hq.marks (fun k => ?_) rfl rfl
  simp only [enterOrder_ticketLine, queueJob_ticketLine]
  split <;> exact ⟨rfl, rfl⟩

theorem PowerLaw.completes {s : State} {i : Fin 8} {j : Job} {rest : List Job} (hs : PowerLaw s)
    (hq : (s.ticketLine i).queue = j :: rest) : PowerLaw (dropJob i j rest s) := by
  have hk : ∀ k, k ≠ i → (dropJob i j rest s).ticketLine k = s.ticketLine k := fun k h => by
    rw [dropJob_ticketLine, if_neg (Ne.symm h)]
  have hi : ((dropJob i j rest s).ticketLine i).state = (s.ticketLine i).state := by
    rw [dropJob_ticketLine, if_pos rfl]
  refine hs.of_line (hs.fits rfl hk (by rw [hi]; exact id)) hk hs.2.1 (fun k _ => Iff.rfl)
    (by rw [hi]; exact hs.2.2.1 i) fun h => ?_
  have hnil := hs.2.2.2 i (hi ▸ h)
  simp [hq] at hnil

theorem PowerLaw.printWork {s t : State} (h : PrintWork s t) (hs : PowerLaw s) : PowerLaw t := by
  induction h with
  | trans _ _ ih₁ ih₂ => exact ih₂ (ih₁ hs)
  | marks hl ho hw hn hp => exact hs.marks hl ho hp
  | shifts i f hq hold hnew hid => exact hs.shifts hq hold hnew hid
  | vacates i f hq hnew hid => exact hs.vacates hq hnew hid
  | grants i rest ho hfit => exact hs.grants ho hfit
  | joins i f hq hold => exact hs.joins hold
  | queues i job numbers plans hlen hfree hnd hle hfirst hidle => exact hs.queues hidle
  | starts i job numbers plans hlen hfree hnd hle hfirst hidle => exact hs.starts hidle
  | waits e hlen => exact hs
  | serves e rest hw => exact hs
  | completes i j rest hq => exact hs.completes hq

theorem powerLaw_reset : PowerLaw State.reset := by
  refine ⟨by decide +kernel, by decide +kernel, fun n => ?_, fun n _ => ?_⟩
  · simp [State.reset, State.ticketLine, PrintUnit.reset, TicketLine.reset]
  · simp [State.reset, State.ticketLine, PrintUnit.reset, TicketLine.reset]

theorem lasting_powerLaw : Lasting [.print, .params] PowerLaw :=
  lasting_printWork (by simp) (fun _ _ => PowerLaw.printWork) powerLaw_reset (by simp) fun s t h hs =>
    PowerLaw.printWork (.of_eq (h .print (by simp)) (h .params (by simp))) hs

/-- R146: a parameter that is no power parameter leaves the budget and the declared draws. -/
theorem parameter_take_power {place : Nat} {line : Option (Fin 8)} {q : Parameter} {p p' : Params} {n : Nat}
    (hq : parameter place line = some q) (ht : q.take p n = some p') (hp : isPower place = false) :
    p'.budget = p.budget ∧ p'.draws = p.draws := by
  unfold parameter at hq
  split at hq <;> cases hq
  case h_10 =>
    obtain ⟨c, -, rfl⟩ := Option.map_eq_some_iff.1 ht
    exact ⟨rfl, rfl⟩
  case h_16 => simp [isPower] at hp
  case h_17 => simp [isPower] at hp
  case h_18 => simp [isPower] at hp
  all_goals
    cases ht
    exact ⟨rfl, rfl⟩

theorem PowerLaw.setParams {s : State} (hs : PowerLaw s) {p : Params}
    (h : p.budget = s.params.budget ∧ p.draws = s.params.draws ∨ s.anyGrant = false) :
    PowerLaw { s with params := p } := by
  refine ⟨?_, hs.2⟩
  rcases h with ⟨hb, hd⟩ | h
  · have hsum : State.grantedSum { s with params := p } = s.grantedSum := by
      unfold State.grantedSum
      dsimp only
      rw [hd]
      rfl
    rw [hsum]
    exact hb ▸ hs.1
  · have hsum : State.grantedSum { s with params := p } = 0 := by
      rw [grantedSum_eq]
      refine Finset.sum_eq_zero fun k _ => if_neg fun hk => ?_
      have := (Tab.any_list s.print.lines TicketLine.granted).2 ⟨k, hk⟩
      simp only [State.anyGrant, this, Bool.true_eq_false] at h
    rw [hsum]
    exact Nat.zero_le _

theorem powerLaw_exec {i : Instr} {s t : State} (h : exec i s = .next t) (hs : PowerLaw s) : PowerLaw t := by
  have k := lasting_powerLaw
  have others := exec_printWork k (by simp) (fun _ _ => PowerLaw.printWork) (i := i) (s := s) (t := t)
  cases i
  case setParam src tag param line present value =>
    refine k.request (by simp) h (fun who r u hu => ?_) hs
    split
    · exact k.answer hu
    · next q hq =>
      obtain ⟨l, hl⟩ := namedParameter_parameter hq
      dsimp only
      split
      · exact k.answer hu
      · next p hp =>
        split
        · exact k.answer hu
        · next hg =>
          refine k.answer (hu.setParams ?_)
          cases hpower : isPower param.toNat with
          | true => exact .inr (by simpa [hpower] using hg)
          | false =>
            refine .inl ?_
            split at hp
            · exact parameter_take_power hl hp hpower
            · cases hp
              exact ⟨rfl, rfl⟩
  all_goals exact others (fun _ => by unfold touches; simp) h hs

/-- Settles O10, by the kinds of change that a command makes to the print controller (`PrintWork`); SET_PARAM of a power
parameter is refused while a grant is held. -/
theorem powerLawKept : Obligations.PowerLawKept := by
  unfold Obligations.PowerLawKept
  exact fun s t hs h =>
    lasting_powerLaw.step (lasting_powerLaw.idle (by simp)) (fun _ _ _ => powerLaw_exec) hs h

end Sys2Proof.Machine
end

section
/-! PROOFS. The law of the element pool (R139, R141): the chains of the jobs in the queues are the elements in use. -/

namespace Sys2Proof.Machine

-- ## Chains

variable {pool pool' : Tab (Option Element) 256}

theorem chainFrom_congr (h : ∀ e, (pool'.get e).bind (·.next) = (pool.get e).bind (·.next)) (n : Nat) (e : Fin 256) :
    chainFrom pool' n e = chainFrom pool n e := by
  induction n generalizing e with
  | zero => rfl
  | succ n ih =>
    simp only [chainFrom, h, ih]

/-- A chain is as it was while none of its elements has changed. -/
theorem chainFrom_congr_of_mem {n : Nat} {e : Fin 256}
    (h : ∀ x ∈ chainFrom pool n e, pool'.get x = pool.get x) : chainFrom pool' n e = chainFrom pool n e := by
  induction n generalizing e with
  | zero => rfl
  | succ n ih =>
    simp only [chainFrom] at h ⊢
    rw [h e (by simp)]
    cases hb : (pool.get e).bind (·.next) with
    | none => rfl
    | some e' =>
      dsimp only
      rw [ih fun x hx => h x (by simp [hb, hx])]

theorem writeChain_get_of_not_mem (sale : Nat) {numbers : List (Fin 256)} (plans : List ElementPlan)
    (pool : Tab (Option Element) 256) {e : Fin 256} (h : e ∉ numbers) :
    (writeChain sale numbers plans pool).get e = pool.get e := by
  induction numbers generalizing plans pool with
  | nil => cases plans <;> rfl
  | cons x xs ih =>
    cases plans with
    | nil => rfl
    | cons p ps =>
      rw [List.mem_cons, not_or] at h
      rw [writeChain, ih _ _ h.2, Tab.get_set_ne _ _ (Ne.symm h.1)]

theorem writeChain_isSome (sale : Nat) {numbers : List (Fin 256)} {plans : List ElementPlan}
    (pool : Tab (Option Element) 256) (hnd : numbers.Nodup) (hle : numbers.length ≤ plans.length) {e : Fin 256}
    (h : e ∈ numbers) : ((writeChain sale numbers plans pool).get e).isSome = true := by
  induction numbers generalizing plans pool with
  | nil => cases h
  | cons x xs ih =>
    cases plans with
    | nil => simp at hle
    | cons p ps =>
      obtain ⟨hx, hnd⟩ := List.nodup_cons.1 hnd
      rw [writeChain]
      rcases List.mem_cons.1 h with rfl | h
      · rw [writeChain_get_of_not_mem _ _ _ hx]
        simp
      · exact ih _ hnd (by simpa using hle) h

/-- R139: a chain written is read back. -/
theorem chainFrom_writeChain (sale : Nat) {numbers : List (Fin 256)} {plans : List ElementPlan}
    (pool : Tab (Option Element) 256) (hnd : numbers.Nodup) (hle : numbers.length ≤ plans.length) {n : Nat}
    (hn : numbers.length ≤ n) {e : Fin 256} (he : numbers.head? = some e) :
    chainFrom (writeChain sale numbers plans pool) n e = numbers := by
  induction numbers generalizing plans pool n e with
  | nil => cases he
  | cons x xs ih =>
    obtain rfl : x = e := by simpa using he
    obtain ⟨hx, hnd⟩ := List.nodup_cons.1 hnd
    cases n with
    | zero => simp at hn
    | succ n =>
      cases plans with
      | nil => simp at hle
      | cons p ps =>
        rw [writeChain, chainFrom, writeChain_get_of_not_mem _ _ _ hx, Tab.get_set_self]
        dsimp only [Option.bind_some]
        cases hxs : xs with
        | nil => rfl
        | cons y ys =>
          rw [← hxs]
          have := ih (pool.set x (some ⟨p.kind, sale, p.index, xs.head?, ps.isEmpty, .waiting, p.text⟩)) hnd
            (by simpa using hle) (by simpa using hn) (e := y) (by simp [hxs])
          simp only [hxs, List.head?_cons] at this ⊢
          rw [this]

theorem foldl_set_none_get (l : List (Fin 256)) (pool : Tab (Option Element) 256) (e : Fin 256) :
    (l.foldl (fun p x => p.set x none) pool).get e = if e ∈ l then none else pool.get e := by
  induction l generalizing pool with
  | nil => simp
  | cons x l ih =>
    rw [List.foldl_cons, ih]
    by_cases h : x = e
    · subst h; simp
    · simp [h, Ne.symm h, Tab.get_set]

-- ## The elements in use

/-- The elements of the jobs that begin with the given elements, line by line. -/
def chainsOf (pool : Tab (Option Element) 256) (jobs : Fin 8 → List (Fin 256)) : List (Fin 256) :=
  (indices 8).flatMap (fun i => (jobs i).flatMap (chainFrom pool 256))

theorem elementsInUse_eq (s : State) : s.elementsInUse = chainsOf s.print.pool (fun i => (s.ticketLine i).jobs) := by
  simp only [State.elementsInUse, chainsOf, TicketLine.jobs, List.flatMap_map]
  rfl

/-- R139, R141: the law of the pool by the pool and the jobs. -/
def Pooled (pool : Tab (Option Element) 256) (jobs : Fin 8 → List (Fin 256)) : Prop :=
  (chainsOf pool jobs).Nodup ∧ ∀ e, e ∈ chainsOf pool jobs ↔ (pool.get e).isSome = true

theorem poolLaw_iff (s : State) : PoolLaw s ↔ Pooled s.print.pool (fun i => (s.ticketLine i).jobs) := by
  rw [PoolLaw, elementsInUse_eq]
  rfl

/-- One line's part of a list grows by `extra`, and so does the list. -/
theorem flatMap_perm_append {α β : Type} [DecidableEq α] {A B : α → List β} {extra : List β} {i : α} :
    ∀ {l : List α}, l.Nodup → i ∈ l → (∀ k, k ≠ i → B k = A k) → (B i).Perm (A i ++ extra) →
      (l.flatMap B).Perm (l.flatMap A ++ extra)
  | [], _, hi, _, _ => by cases hi
  | k :: l, hnd, hi, hk, hB => by
    obtain ⟨hkl, hnd⟩ := List.nodup_cons.1 hnd
    simp only [List.flatMap_cons]
    by_cases h : k = i
    · subst h
      have hrest : l.flatMap B = l.flatMap A := by
        simp only [List.flatMap_def]
        exact congrArg _ (List.map_congr_left fun x hx => hk x fun e => hkl (e ▸ hx))
      rw [hrest]
      refine (hB.append_right _).trans ?_
      rw [List.append_assoc, List.append_assoc]
      exact List.Perm.append_left _ List.perm_append_comm
    · rw [hk k h, List.append_assoc]
      exact List.Perm.append_left _
        (flatMap_perm_append hnd ((List.mem_cons.1 hi).resolve_left (Ne.symm h)) hk hB)

theorem chainsOf_congr {jobs : Fin 8 → List (Fin 256)}
    (h : ∀ i, ∀ j ∈ jobs i, chainFrom pool' 256 j = chainFrom pool 256 j) : chainsOf pool' jobs = chainsOf pool jobs := by
  simp only [chainsOf, List.flatMap_def]
  refine congrArg _ (List.map_congr_left fun i _ => congrArg _ (List.map_congr_left (h i)))

theorem mem_chainsOf {jobs : Fin 8 → List (Fin 256)} {i : Fin 8} {j e : Fin 256} (hj : j ∈ jobs i)
    (he : e ∈ chainFrom pool 256 j) : e ∈ chainsOf pool jobs :=
  List.mem_flatMap.2 ⟨i, mem_indices i, List.mem_flatMap.2 ⟨j, hj, he⟩⟩

/-- R139, R140: a job of free elements joins a queue. -/
theorem Pooled.queue {jobs jobs' : Fin 8 → List (Fin 256)} (h : Pooled pool jobs) {numbers : List (Fin 256)}
    {plans : List ElementPlan} {sale : Nat} {first : Fin 256} {i : Fin 8} (hfree : ∀ e ∈ numbers, pool.get e = none)
    (hnd : numbers.Nodup) (hle : numbers.length ≤ plans.length) (hfirst : numbers.head? = some first)
    (hi : jobs' i = jobs i ++ [first]) (hk : ∀ k, k ≠ i → jobs' k = jobs k) :
    Pooled (writeChain sale numbers plans pool) jobs' := by
  have hlen : numbers.length ≤ 256 := by simpa using hnd.length_le_card
  have hold : ∀ k, ∀ j ∈ jobs k,
      chainFrom (writeChain sale numbers plans pool) 256 j = chainFrom pool 256 j := fun k j hj =>
    chainFrom_congr_of_mem fun x hx => writeChain_get_of_not_mem _ _ _ fun hm => by
      have := (h.2 x).1 (mem_chainsOf hj hx)
      simp [hfree x hm] at this
  have hperm : (chainsOf (writeChain sale numbers plans pool) jobs').Perm (chainsOf pool jobs ++ numbers) := by
    rw [← chainsOf_congr hold]
    refine flatMap_perm_append (i := i) (List.nodup_finRange 8) (mem_indices i) (fun k hk' => by rw [hk k hk']) ?_
    rw [hi, List.flatMap_append, List.flatMap_singleton, chainFrom_writeChain sale pool hnd hle hlen hfirst]
  constructor
  · rw [hperm.nodup_iff]
    refine h.1.append hnd fun e he hm => ?_
    have := (h.2 e).1 he
    simp [hfree e hm] at this
  · intro e
    rw [hperm.mem_iff, List.mem_append, h.2]
    by_cases hm : e ∈ numbers
    · simp [hm, writeChain_isSome sale pool hnd hle hm]
    · simp [hm, writeChain_get_of_not_mem sale plans pool hm]

/-- R148: the head job of a queue leaves it, its elements free. -/
theorem Pooled.drop {jobs jobs' : Fin 8 → List (Fin 256)} (h : Pooled pool jobs) {first : Fin 256} {i : Fin 8}
    (hi : jobs i = first :: jobs' i) (hk : ∀ k, k ≠ i → jobs' k = jobs k) :
    Pooled ((chainFrom pool 256 first).foldl (fun p e => p.set e none) pool) jobs' := by
  have hperm : (chainsOf pool jobs).Perm (chainsOf pool jobs' ++ chainFrom pool 256 first) := by
    refine flatMap_perm_append (i := i) (List.nodup_finRange 8) (mem_indices i) (fun k hk' => by rw [hk k hk']) ?_
    rw [hi, List.flatMap_cons]
    exact List.perm_append_comm
  have hnd := hperm.nodup_iff.1 h.1
  have hdisj : ∀ e ∈ chainsOf pool jobs', e ∉ chainFrom pool 256 first := fun e he hm =>
    List.disjoint_of_nodup_append hnd he hm
  have heq : chainsOf ((chainFrom pool 256 first).foldl (fun p e => p.set e none) pool) jobs' = chainsOf pool jobs' :=
    chainsOf_congr fun k j hj => chainFrom_congr_of_mem fun x hx => by
      rw [foldl_set_none_get, if_neg (hdisj x (mem_chainsOf hj hx))]
  constructor
  · rw [heq]
    exact hnd.of_append_left
  · intro e
    rw [heq, foldl_set_none_get]
    have hmem : e ∈ chainsOf pool jobs' ∨ e ∈ chainFrom pool 256 first ↔ (pool.get e).isSome = true := by
      rw [← h.2 e, hperm.mem_iff, List.mem_append]
    by_cases hm : e ∈ chainFrom pool 256 first
    · simp only [hm, if_true, Option.isSome_none, Bool.false_eq_true, iff_false]
      exact fun he => hdisj e he hm
    · simpa [hm] using hmem

-- ## The law under the work of the print controller

theorem Pooled.congr {jobs jobs' : Fin 8 → List (Fin 256)} (h : Pooled pool jobs)
    (hn : ∀ e, (pool'.get e).map (·.next) = (pool.get e).map (·.next)) (hj : jobs' = jobs) : Pooled pool' jobs' := by
  have hnext : ∀ e, (pool'.get e).bind (·.next) = (pool.get e).bind (·.next) := fun e => by
    have := hn e
    revert this
    cases pool'.get e <;> cases pool.get e <;> simp
  have hsome : ∀ e, (pool'.get e).isSome = (pool.get e).isSome := fun e => by
    have := congrArg Option.isSome (hn e)
    simpa using this
  have hc : chainsOf pool' jobs' = chainsOf pool jobs :=
    hj ▸ chainsOf_congr fun i j _ => chainFrom_congr hnext 256 j
  exact ⟨hc ▸ h.1, fun e => by rw [hc, hsome, h.2]⟩

theorem PoolLaw.congr {s t : State} (h : PoolLaw s) (hp : t.print.pool = s.print.pool)
    (hj : ∀ k, (t.ticketLine k).queue = (s.ticketLine k).queue) : PoolLaw t := by
  rw [poolLaw_iff] at h ⊢
  exact h.congr (fun e => by rw [hp]) (funext fun k => by simp only [TicketLine.jobs, hj])

theorem PoolLaw.queues {s : State} {i : Fin 8} {job : Job} {numbers : List (Fin 256)} {plans : List ElementPlan}
    (hs : PoolLaw s) (hfree : ∀ e ∈ numbers, e ∈ s.freeElements) (hnd : numbers.Nodup)
    (hle : numbers.length ≤ plans.length) (hfirst : numbers.head? = some job.first) :
    PoolLaw (queueJob i job numbers plans s) := by
  rw [poolLaw_iff] at hs ⊢
  refine hs.queue (i := i) (fun e he => ?_) hnd hle hfirst ?_ (fun k hk => ?_)
  · have := hfree e he
    simpa [State.freeElements] using this
  · simp only [queueJob_ticketLine, TicketLine.jobs, if_true, List.map_append]
    rfl
  · simp only [queueJob_ticketLine, if_neg (Ne.symm hk)]

theorem PoolLaw.printWork {s t : State} (h : PrintWork s t) (hs : PoolLaw s) : PoolLaw t := by
  induction h with
  | trans _ _ ih₁ ih₂ => exact ih₂ (ih₁ hs)
  | marks hl ho hw hn hp =>
    rw [poolLaw_iff] at hs ⊢
    exact hs.congr hn (funext fun k => (hl k).2)
  | shifts i f hq hold hnew hid =>
    refine hs.congr rfl fun k => ?_
    rw [onTicketLine_ticketLine]
    split <;> simp [hq]
  | vacates i f hq hnew hid =>
    refine hs.congr rfl fun k => ?_
    rw [vacate_ticketLine]
    split <;> simp [hq]
  | grants i rest ho hfit =>
    refine hs.congr rfl fun k => ?_
    rw [grantHead_ticketLine]
    split <;> rfl
  | joins i f hq hold =>
    refine hs.congr rfl fun k => ?_
    rw [enterOrder_ticketLine]
    split <;> simp [hq]
  | queues i job numbers plans hlen hfree hnd hle hfirst hidle => exact hs.queues hfree hnd hle hfirst
  | starts i job numbers plans hlen hfree hnd hle hfirst hidle =>
    have hqueued : PoolLaw (queueJob i job numbers plans _) := hs.queues hfree hnd hle hfirst
    refine hqueued.congr rfl fun k => ?_
    rw [enterOrder_ticketLine]
    split <;> rfl
  | waits e hlen => exact hs
  | serves e rest hw => exact hs
  | completes i j rest hq =>
    rw [poolLaw_iff] at hs ⊢
    refine hs.drop (i := i) (first := j.first) ?_ fun k hk => ?_
    · simp [dropJob_ticketLine, TicketLine.jobs, hq]
    · simp only [dropJob_ticketLine, if_neg (Ne.symm hk)]

theorem poolLaw_reset : PoolLaw State.reset := by
  rw [poolLaw_iff]
  have h : chainsOf State.reset.print.pool (fun i => (State.reset.ticketLine i).jobs) = [] := by
    simp [chainsOf, State.reset, State.ticketLine, PrintUnit.reset, TicketLine.reset, TicketLine.jobs]
  refine ⟨h ▸ List.nodup_nil, fun e => ?_⟩
  rw [h]
  simp [State.reset, PrintUnit.reset]

theorem lasting_poolLaw : Lasting [.print] PoolLaw :=
  lasting_printWork (by simp) (fun _ _ => PoolLaw.printWork) poolLaw_reset (by simp) fun s t h hs => by
    have hp : t.print = s.print := h .print (by simp)
    exact hs.congr (by rw [hp]) fun k => by simp only [State.ticketLine, hp]

/-- Every step keeps the elements in use each in one job. -/
theorem poolLaw_step {s t : State} (hs : PoolLaw s) (h : step s = .next t) : PoolLaw t :=
  lasting_poolLaw.step (lasting_poolLaw.idle (by simp))
    (fun _ _ _ => exec_printWork lasting_poolLaw (by simp) (fun _ _ => PoolLaw.printWork) (by simp)) hs h

/-- R141: the free elements and those of the jobs are 256 together. -/
theorem poolLaw_count {s : State} (hs : PoolLaw s) : s.freeElements.length + s.elementsInUse.length = 256 := by
  have hused : s.elementsInUse.Perm ((indices 256).filter (fun e => (s.print.pool.get e).isSome)) := by
    refine (List.perm_ext_iff_of_nodup hs.1 ((List.nodup_finRange 256).filter _)).2 fun e => ?_
    simp [hs.2 e]
  have hsplit := List.length_eq_length_filter_add (l := indices 256) (fun e => (s.print.pool.get e).isNone)
  have hnot : (fun e : Fin 256 => !(s.print.pool.get e).isNone) = fun e => (s.print.pool.get e).isSome := by
    funext e
    cases s.print.pool.get e <;> rfl
  rw [hused.length_eq, State.freeElements, ← hnot, ← hsplit]
  exact List.length_finRange

-- ## The sizes of the waiting list and of the queues (R141, R142)

/-- R141, R142: at most 16 entries wait, and at most 6 jobs stand in a line's queue. -/
def PrintSizes (s : State) : Prop := s.print.waiting.length ≤ 16 ∧ ∀ i, (s.ticketLine i).queue.length ≤ 6

theorem PrintSizes.congr {s t : State} (hs : PrintSizes s) (hw : t.print.waiting = s.print.waiting)
    (hj : ∀ k, (t.ticketLine k).queue = (s.ticketLine k).queue) : PrintSizes t :=
  ⟨hw ▸ hs.1, fun k => (hj k).symm ▸ hs.2 k⟩

theorem PrintSizes.queues {s : State} {i : Fin 8} {job : Job} {numbers : List (Fin 256)} {plans : List ElementPlan}
    (hs : PrintSizes s) (hlen : (s.ticketLine i).queue.length < 6) : PrintSizes (queueJob i job numbers plans s) := by
  refine ⟨hs.1, fun k => ?_⟩
  rw [queueJob_ticketLine]
  split
  · next h =>
    subst h
    simpa using hlen
  · exact hs.2 k

theorem PrintSizes.printWork {s t : State} (h : PrintWork s t) (hs : PrintSizes s) : PrintSizes t := by
  induction h with
  | trans _ _ ih₁ ih₂ => exact ih₂ (ih₁ hs)
  | marks hl ho hw hn hp =>
    refine ⟨hw ▸ hs.1, fun k => ?_⟩
    have := congrArg List.length (hl k).2
    simp only [TicketLine.jobs, List.length_map] at this
    exact this ▸ hs.2 k
  | shifts i f hq hold hnew hid =>
    refine hs.congr rfl fun k => ?_
    rw [onTicketLine_ticketLine]
    split <;> simp [hq]
  | vacates i f hq hnew hid =>
    refine hs.congr rfl fun k => ?_
    rw [vacate_ticketLine]
    split <;> simp [hq]
  | grants i rest ho hfit =>
    refine hs.congr rfl fun k => ?_
    rw [grantHead_ticketLine]
    split <;> rfl
  | joins i f hq hold =>
    refine hs.congr rfl fun k => ?_
    rw [enterOrder_ticketLine]
    split <;> simp [hq]
  | queues i job numbers plans hlen hfree hnd hle hfirst hidle => exact hs.queues hlen
  | starts i job numbers plans hlen hfree hnd hle hfirst hidle =>
    have hqueued : PrintSizes (queueJob i job numbers plans _) := hs.queues hlen
    refine hqueued.congr rfl fun k => ?_
    rw [enterOrder_ticketLine]
    split <;> rfl
  | waits e hlen => exact ⟨by simpa using hlen, hs.2⟩
  | serves e rest hw =>
    have := hs.1
    simp only [hw, List.length_cons] at this
    exact ⟨Nat.le_of_succ_le this, hs.2⟩
  | completes i j rest hq =>
    refine ⟨hs.1, fun k => ?_⟩
    rw [dropJob_ticketLine]
    split
    · next h =>
      subst h
      have := hs.2 i
      simp only [hq, List.length_cons] at this
      exact Nat.le_of_succ_le this
    · exact hs.2 k

theorem lasting_printSizes : Lasting [.print] PrintSizes :=
  lasting_printWork (by simp) (fun _ _ => PrintSizes.printWork)
    (by simp [PrintSizes, State.reset, State.ticketLine, PrintUnit.reset, TicketLine.reset]) (by simp)
    fun s t h hs => by
      have hp : t.print = s.print := h .print (by simp)
      exact hs.congr (by rw [hp]) fun k => by simp only [State.ticketLine, hp]

theorem printSizes_step {s t : State} (hs : PrintSizes s) (h : step s = .next t) : PrintSizes t :=
  lasting_printSizes.step (lasting_printSizes.idle (by simp))
    (fun _ _ _ => exec_printWork lasting_printSizes (by simp) (fun _ _ => PrintSizes.printWork) (by simp)) hs h

end Sys2Proof.Machine
end

section
/-! PROOFS. What the commands do to the pay lines (R93, R94, R103), and the law of their records. -/

namespace Sys2Proof.Machine

-- ## What a command does to one pay line

/-- What tells an attempt apart: its pay ref and its state. -/
def PayRecord.key (r : PayRecord) : Nat × PayState := (r.payRef, r.state)

/-- What tells an exchange apart: its kind and its pay ref. -/
def Exchange.key (e : Exchange) : ExchangeKind × Nat := (e.kind, e.payRef)

/-- R94: no authorization and no abort is in flight on a line. -/
def PayLine.idle (l : PayLine) : Prop := ∀ e ∈ l.exchange, e.kind = .reversal

/-- One change of a pay line: what is not told apart may change, a reversal's exchange begins or ends, the attempt in
flight ends or moves on, or an attempt starts. -/
inductive PayStep (l : PayLine) : PayLine → Prop
  | stays (m : PayLine) (hr : m.records.map PayRecord.key = l.records.map PayRecord.key)
      (he : m.exchange.map Exchange.key = l.exchange.map Exchange.key) (hq : m.queue.length ≤ max l.queue.length 4) :
      PayStep l m
  | frees (m : PayLine) (hr : m.records.map PayRecord.key = l.records.map PayRecord.key) (hl : l.idle) (hm : m.idle)
      (hq : m.queue.length ≤ max l.queue.length 4) : PayStep l m
  | ends (p : Nat) (f : PayRecord → PayRecord)
      (hp : (∃ r ∈ l.records, r.payRef = p ∧ r.state.inFlight = true) ∨ ∃ e ∈ l.exchange, e.payRef = p)
      (hf : ∀ r, (f r).payRef = r.payRef ∧ (f r).state.inFlight = false) :
      PayStep l { l.onRecord p f with exchange := none }
  | moves (p : Nat) (f : PayRecord → PayRecord) (e : Exchange)
      (hp : ∃ r ∈ l.records, r.payRef = p ∧ r.state.inFlight = true) (he : e.payRef = p) (hk : e.kind ≠ .reversal)
      (hf : ∀ r, (f r).payRef = r.payRef ∧ (f r).state.inFlight = true
        ∧ e.kind = if (f r).state = .aborting then .abort else .authorization) :
      PayStep l { l.onRecord p f with exchange := some e }
  | starts (r : PayRecord) (e : Exchange) (hl : l.idle) (hr : r.state = .sent) (he : e.key = (.authorization, r.payRef)) :
      PayStep l { l with records := addRecord r l.records, exchange := some e }

/-- What a command does to the pay lines. -/
def PayWork (s t : State) : Prop := ∀ k, Relation.ReflTransGen PayStep (s.payLine k) (t.payLine k)

namespace PayWork

variable {s t u : State}

theorem refl (s : State) : PayWork s s := fun _ => .refl

theorem trans (h : PayWork s t) (k : PayWork t u) : PayWork s u := fun i => (h i).trans (k i)

theorem of_lines (h : t.pay.lines = s.pay.lines) : PayWork s t := fun k => by
  simp only [State.payLine, h]
  exact .refl

theorem of_only {bs : List Block} (h : Only bs s t) (hb : .pay ∉ bs) : PayWork s t :=
  .of_lines (congrArg PayUnit.lines (h .pay hb))

theorem then_only {bs : List Block} (h : PayWork s t) (k : Only bs t u) (hb : .pay ∉ bs) : PayWork s u :=
  h.trans (.of_only k hb)

theorem onLine {i : Fin 8} {f : PayLine → PayLine} (h : PayStep (s.payLine i) (f (s.payLine i))) :
    PayWork s (s.onPayLine i f) := fun k => by
  by_cases hk : i = k
  · subst hk
    rw [payLine_onPayLine_self]
    exact .single h
  · rw [payLine_onPayLine_ne _ _ hk]

end PayWork

theorem onPayLine_onPayLine (i : Fin 8) (f g : PayLine → PayLine) (s : State) :
    (s.onPayLine i f).onPayLine i g = s.onPayLine i (fun l => g (f l)) := by
  simp only [State.onPayLine, Tab.modify, Tab.set, Tab.get]
  simp [List.getElem_set]

variable {s : State}

theorem payLine_mem {l : PayLine} {p : Nat} {r : PayRecord} (h : l.record p = some r) : r ∈ l.records ∧ r.payRef = p :=
  ⟨List.mem_of_find?_eq_some h, by simpa using List.find?_some h⟩

/-- R94: the attempt of a line ends. -/
theorem payWork_ends {i : Fin 8} {p : Nat} {f : PayRecord → PayRecord}
    (hp : (∃ r ∈ (s.payLine i).records, r.payRef = p ∧ r.state.inFlight = true)
      ∨ ∃ e ∈ (s.payLine i).exchange, e.payRef = p)
    (hf : ∀ r, (f r).payRef = r.payRef ∧ (f r).state.inFlight = false) :
    PayWork s (endExchange i (setRecord i p f s)) := by
  unfold endExchange setRecord
  rw [onPayLine_onPayLine]
  exact .onLine (.ends p f hp hf)

theorem payWork_pump (i : Fin 8) (s : State) : PayWork s (pump i s) := by
  unfold pump
  split
  · next h _ =>
    refine PayWork.trans ?_ (.of_only (bs := [.lines]) ((only_tellTerminal (by simp)).2 (Only.refl _ _)) (by simp))
    exact .onLine (.frees _ rfl (by simp [PayLine.idle, h]) (by simp [PayLine.idle]) (by simp))
  · exact .refl s

theorem payWork_dispose (i : Fin 8) (r : Reversal) (s : State) : PayWork s (dispose i r s) := by
  unfold dispose
  split
  · exact .refl s
  · next slot b _ =>
    split
    · exact .of_only (bs := [.baskets, .engine, .sales]) (by simp) (by simp)
    · have h : PayWork s (payResult slot b r.payRef .doubt {} (doubtBasket slot b s)) :=
        .of_only (bs := [.baskets, .sales, .engine, .stations, .lines]) (by simp) (by simp)
      exact h.trans (.of_lines rfl)

theorem payWork_needReversal (i : Fin 8) (r : Reversal) (s : State) : PayWork s (needReversal i r s) := by
  unfold needReversal
  dsimp only
  split
  · exact .onLine (.stays _ rfl rfl (by simp))
  · split
    · next h => exact .onLine (.stays _ rfl rfl (by simp only [List.length_append, List.length_singleton]; exact le_max_of_le_right h))
    · exact .trans (.of_only (bs := [.lines]) (by simp) (by simp)) (payWork_dispose i r _)

theorem payWork_withBasket {r : PayRecord} {f : Basket → State → State} {bs : List Block} (hb : .pay ∉ bs)
    (h : ∀ b, Only bs s (f b s)) : PayWork s (withBasket r f s) := by
  unfold withBasket
  split
  · exact .refl s
  · exact .of_only (h _) hb

/-- A record found by its pay ref, with an attempt in flight. -/
def PayLine.attempts (l : PayLine) (r : PayRecord) : Prop := l.record r.payRef = some r ∧ r.state.inFlight = true

theorem PayLine.attempts.found {l : PayLine} {r : PayRecord} (h : l.attempts r) :
    ∃ x ∈ l.records, x.payRef = r.payRef ∧ x.state.inFlight = true := ⟨r, (payLine_mem h.1).1, rfl, h.2⟩

theorem payWork_acceptRecord {i : Fin 8} {r : PayRecord} (h : (s.payLine i).attempts r) :
    PayWork s (acceptRecord i r s) := by
  unfold acceptRecord
  refine PayWork.trans ?_ (payWork_withBasket (bs := [.lines]) (by simp) (by simp))
  exact .onLine (.moves r.payRef _ _ h.found rfl (by simp) fun _ => ⟨rfl, rfl, rfl⟩)

theorem setRecord_key {l : PayLine} {p : Nat} {f : PayRecord → PayRecord} (h : ∀ r, (f r).key = r.key) :
    (l.onRecord p f).records.map PayRecord.key = l.records.map PayRecord.key := by
  simp only [PayLine.onRecord, List.map_map]
  refine List.map_congr_left fun r _ => ?_
  simp only [Function.comp_apply]
  split <;> simp [h]

theorem payWork_progressRecord (i : Fin 8) (r : PayRecord) (st : Stage) (s : State) :
    PayWork s (progressRecord i r st s) := by
  unfold progressRecord
  refine PayWork.trans ?_ (payWork_withBasket (bs := [.lines]) (by simp) (by simp))
  exact .onLine (.stays _ (setRecord_key fun _ => rfl) rfl (by simp [PayLine.onRecord]))

theorem payWork_approveRecord {i : Fin 8} {r : PayRecord} (h : (s.payLine i).attempts r) (code : List Byte) :
    PayWork s (approveRecord i r code s) := by
  unfold approveRecord
  refine PayWork.trans (PayWork.trans ?_ (payWork_withBasket (bs := [.baskets, .engine, .sales, .lines]) (by simp)
    (by simp))) (payWork_pump i _)
  exact payWork_ends (.inl h.found) fun _ => ⟨rfl, rfl⟩

theorem payWork_declineRecord {i : Fin 8} {r : PayRecord} (h : (s.payLine i).attempts r) (n : Nat) :
    PayWork s (declineRecord i r n s) := by
  unfold declineRecord
  refine PayWork.trans (PayWork.trans ?_ (payWork_withBasket (bs := [.baskets, .engine, .sales, .lines]) (by simp)
    (by simp))) (payWork_pump i _)
  exact payWork_ends (.inl h.found) fun _ => ⟨rfl, rfl⟩

theorem payWork_mismatchRecord {i : Fin 8} {r : PayRecord} (h : (s.payLine i).attempts r) (code : List Byte) (n : Nat) :
    PayWork s (mismatchRecord i r code n s) := by
  unfold mismatchRecord
  refine PayWork.trans (PayWork.trans (PayWork.trans ?_ (payWork_needReversal i _ _)) (payWork_withBasket
    (bs := [.baskets, .engine, .sales, .lines]) (by simp) (by simp))) (payWork_pump i _)
  exact payWork_ends (.inl h.found) fun _ => ⟨rfl, rfl⟩

theorem payWork_abortAnswered {i : Fin 8} {r : PayRecord} (h : (s.payLine i).attempts r) {f : PayRecord → PayRecord}
    (hf : ∀ r, (f r).payRef = r.payRef ∧ (f r).state.inFlight = false) : PayWork s (abortAnswered i r f s) := by
  unfold abortAnswered
  refine ((payWork_ends (.inl h.found) hf).trans ?_).trans (payWork_pump i _)
  exact payWork_withBasket (bs := [.baskets, .engine, .sales]) (by simp) (by simp)

theorem payWork_abortApproved {i : Fin 8} {r : PayRecord} (h : (s.payLine i).attempts r) (code : List Byte) (n : Nat) :
    PayWork s (abortApproved i r code n s) := by
  unfold abortApproved
  refine PayWork.trans (PayWork.trans (PayWork.trans ?_ (payWork_needReversal i _ _)) (payWork_withBasket
    (bs := [.baskets, .engine, .sales]) (by simp) (by simp))) (payWork_pump i _)
  exact payWork_ends (.inl h.found) fun _ => ⟨rfl, rfl⟩

theorem payWork_timeOut {i : Fin 8} {r : PayRecord} (h : ∃ e ∈ (s.payLine i).exchange, e.payRef = r.payRef) :
    PayWork s (timeOut i r s) := by
  unfold timeOut
  refine PayWork.trans (PayWork.trans (PayWork.trans ?_ (payWork_withBasket (bs := [.baskets, .lines]) (by simp)
    (by simp [reverseBasket]))) (payWork_needReversal i _ _)) (payWork_pump i _)
  exact payWork_ends (.inr h) fun _ => ⟨rfl, rfl⟩

theorem payWork_silentAbort {i : Fin 8} {r : PayRecord} (h : ∃ e ∈ (s.payLine i).exchange, e.payRef = r.payRef) :
    PayWork s (silentAbort i r s) := by
  unfold silentAbort
  refine PayWork.trans (PayWork.trans (PayWork.trans ?_ (payWork_withBasket (bs := [.baskets, .lines]) (by simp)
    fun b => ?_)) (payWork_needReversal i _ _)) (payWork_pump i _)
  · exact payWork_ends (.inr h) fun _ => ⟨rfl, rfl⟩
  · dsimp only
    split <;> simp [reverseBasket]

theorem payWork_lateApproval (i : Fin 8) (p : Nat) (code : List Byte) (n : Nat) (s : State) :
    PayWork s (lateApproval i p code n s) := by
  have hstore : PayWork s (storeCode i p code s) := by
    have hset : ∀ f : PayRecord → PayRecord, (∀ r, (f r).key = r.key) → PayWork s (setRecord i p f s) := fun f hf =>
      .onLine (.stays _ (setRecord_key hf) rfl (le_max_left _ _))
    exact .trans (t := setRecord i p (fun r => { r with code := match r.code with
      | none => some code
      | some old => some old }) s) (hset _ fun _ => rfl) (.of_lines rfl)
  exact (hstore.trans (payWork_needReversal i _ _)).trans (payWork_pump i _)

/-- R104: a reversal confirmed leaves the queue, and its exchange ends, but none of another pay ref and no attempt. -/
theorem payStep_confirmed (l : PayLine) (r : Reversal) : PayStep l { l with
    queue := l.queue.filter (fun q => q.payRef != r.payRef)
    exchange := match l.exchange with
      | some ⟨.reversal, p, n⟩ => if p = r.payRef then none else some ⟨.reversal, p, n⟩
      | other => other } := by
  have hq : (l.queue.filter (fun q => q.payRef != r.payRef)).length ≤ max l.queue.length 4 :=
    (List.length_filter_le _ _).trans (le_max_left _ _)
  split
  · next p n he =>
    refine .frees _ rfl (by simp [PayLine.idle, he]) ?_ hq
    simp only [PayLine.idle]
    split <;> simp
  · exact .stays _ rfl rfl hq

theorem payWork_confirmReversal (i : Fin 8) (r : Reversal) (s : State) : PayWork s (confirmReversal i r s) := by
  unfold confirmReversal
  dsimp only
  refine PayWork.trans ?_ (payWork_pump i _)
  split
  · exact .onLine (payStep_confirmed _ r)
  · refine PayWork.trans ?_ (.of_only (bs := [.baskets, .engine, .sales, .lines])
      ((only_judgeAttempt (by simp)).2 (Only.refl _ _)) (by simp))
    exact .onLine (payStep_confirmed _ r)

theorem payWork_intervalExpired {i : Fin 8} (h : s.intervalOver i = true) : PayWork s (intervalExpired i s) := by
  have hidle : (s.payLine i).idle := fun e he => by
    rw [State.intervalOver, he] at h
    simp_all
  unfold intervalExpired
  split
  · exact .onLine (.frees _ rfl hidle (by simp [PayLine.idle]) (by simp))
  · next r rest hq =>
    dsimp only
    split
    · refine PayWork.trans (PayWork.trans ?_ (payWork_dispose i _ _)) (payWork_pump i _)
      refine PayWork.trans ?_ (.of_only (bs := [.lines]) ((only_doubtNotice (by simp)).2 (Only.refl _ _)) (by simp))
      exact .onLine (.frees _ rfl hidle (by simp [PayLine.idle]) (by simp [hq]))
    · exact .trans (.onLine (.frees _ rfl hidle (by simp [PayLine.idle]) (by simp [hq]))) (payWork_pump i _)

theorem payWork_countStray (i : Fin 8) (s : State) : PayWork s (countStray i s) :=
  .onLine (.stays _ rfl rfl (by simp))

theorem payWork_onNamed {i : Fin 8} {p : Nat} {f : PayRecord → State → State}
    (h : ∀ r, (s.payLine i).record p = some r → PayWork s (f r s)) : PayWork s (onNamed i p f s) := by
  unfold onNamed
  split
  · next r hr => exact h r hr
  · split
    · exact .refl s
    · exact payWork_countStray i s

theorem attempts_of {i : Fin 8} {p : Nat} {r : PayRecord} (h : (s.payLine i).record p = some r)
    (hf : r.state.inFlight = true) : (s.payLine i).attempts r :=
  ⟨(payLine_mem h).2 ▸ h, hf⟩

theorem waitOver_exchange {i : Fin 8} {e : Exchange} {r : PayRecord} (h : s.waitOver i = some (e, r)) :
    ∃ e ∈ (s.payLine i).exchange, e.payRef = r.payRef := by
  unfold State.waitOver at h
  split at h
  · cases h
  · next x hx =>
    split at h
    · obtain ⟨y, hy, he⟩ := Option.map_eq_some_iff.1 h
      cases he
      exact ⟨_, hx, (payLine_mem hy).2.symm⟩
    · cases h

theorem payWork_expireAccept (i : Fin 8) (s : State) : PayWork s (expireAccept i s) := by
  unfold expireAccept
  split
  · exact .refl s
  · next e r h =>
    have he := waitOver_exchange h
    split
    · exact .refl s
    · split
      · exact payWork_silentAbort he
      · exact payWork_timeOut he

theorem payWork_expireAuthorization (i : Fin 8) (s : State) : PayWork s (expireAuthorization i s) := by
  unfold expireAuthorization
  split
  · exact .refl s
  · next e r h =>
    split
    · exact payWork_timeOut (waitOver_exchange h)
    · exact .refl s

theorem payWork_expireInterval (i : Fin 8) (s : State) : PayWork s (expireInterval i s) := by
  unfold expireInterval
  split
  · next h => exact payWork_intervalExpired h
  · exact .refl s

theorem payWork_carryOut (e : Event) (s : State) (h : .pay ∈ e.touches) : PayWork s (carryOut e s) := by
  cases e
  case accept i => exact payWork_expireAccept i s
  case authorization i => exact payWork_expireAuthorization i s
  case interval i => exact payWork_expireInterval i s
  all_goals simp [Event.touches] at h

theorem payWork_tickPay (s : State) : PayWork s (tickPay s) := fun k => by
  have hk : (tickPay s).payLine k = { s.payLine k with
      exchange := (s.payLine k).exchange.map (fun e => { e with seconds := e.seconds - 1 }) } := Tab.get_map ..
  rw [hk]
  refine .single (.stays _ rfl ?_ (le_max_left _ _))
  rw [Option.map_map]
  rfl

theorem payWork_secondTick (s : State) : PayWork s (secondTick s) :=
  (payWork_tickPay s).then_only (bs := [.sales, .print, .clock, .baskets, .lines, .choice]) (by simp [secondTick])
    (by simp)

theorem payWork_startAbort {i : Fin 16} {b : Basket} {r : Reply} {line : Fin 8} {x : PayRecord}
    (h : (s.payLine line).attempts x) : PayWork s (startAbort i b r line x s) := by
  unfold startAbort
  refine PayWork.trans ?_ (.of_only (bs := [.lines]) ((only_tellTerminal (by simp)).2 (Only.refl _ _)) (by simp))
  have hb : PayWork s (s.putBasket i { b with waiter := some r }) := .of_lines rfl
  exact hb.trans (.onLine (.moves x.payRef _ _ h.found rfl (by simp) fun _ => ⟨rfl, rfl, rfl⟩))

theorem freePayLine_free {o : Owner} {line : Fin 8} (h : s.freePayLine o = some line) :
    (s.payLine line).exchange = none ∧ (s.payLine line).queue = [] := by
  unfold State.freePayLine at h
  split at h
  · cases h
  · split at h
    · cases h
    · split at h
      · next hk =>
        cases h
        exact hk
      · cases h

theorem payWork_startPayment {i : Fin 16} {b : Basket} {r : Reply} {line : Fin 8} {n : Nat}
    (h : (s.payLine line).exchange = none) : PayWork s (startPayment i b r line n s) := by
  have hstart : ∀ u : State, u.pay.lines = s.pay.lines → ∀ x e, x.state = .sent → e.key = (.authorization, x.payRef) →
      PayWork s (u.onPayLine line (fun l => { l with records := addRecord x l.records, exchange := some e })) :=
    fun u hu x e hx he => .trans (.of_lines hu) (.onLine (.starts x e (by simp [PayLine.idle, State.payLine, hu,
      show (s.pay.lines.get line).exchange = none from h]) hx he))
  unfold startPayment
  dsimp only
  refine PayWork.trans ?_ (.of_only (bs := [.lines])
    ((only_tellTerminal (by simp)).2 ((only_answer (by simp)).2 (Only.refl _ _))) (by simp))
  exact hstart _ rfl _ _ rfl rfl

theorem attemptLine_record {b : Basket} {line : Fin 8} {r : PayRecord} (h : s.attemptLine b = some (line, r)) :
    ∃ p, (s.payLine line).record p = some r := by
  unfold State.attemptLine at h
  split at h
  · cases h
  · next p _ =>
    obtain ⟨i, -, hi⟩ := List.exists_of_findSome?_eq_some h
    obtain ⟨x, hx, he⟩ := Option.map_eq_some_iff.1 hi
    cases he
    exact ⟨p, hx⟩

-- ## The law of the records, and the sizes of the queues

/-- The law of one pay line (R93, R94). -/
def PayLine.lawful (l : PayLine) : Prop :=
  l.records.length ≤ 6
    ∧ (∀ r ∈ l.records, r.state.inFlight = true → ∃ e ∈ l.exchange,
        e.payRef = r.payRef ∧ e.kind = if r.state = .aborting then .abort else .authorization)
    ∧ ∀ e ∈ l.exchange, e.kind ≠ .reversal → ∃ r ∈ l.records, r.payRef = e.payRef ∧ r.state.inFlight = true

theorem PayLine.lawful.idle_records {l : PayLine} (h : l.lawful) (hi : l.idle) :
    ∀ r ∈ l.records, r.state.inFlight = false := fun r hr => by
  cases hf : r.state.inFlight with
  | false => rfl
  | true =>
    obtain ⟨e, he, -, hk⟩ := h.2.1 r hr hf
    rw [hi e he] at hk
    split at hk <;> cases hk

/-- R94: the attempts in flight on a line all have the pay ref of its exchange. -/
theorem PayLine.lawful.one_attempt {l : PayLine} (h : l.lawful) {p : Nat}
    (hp : (∃ r ∈ l.records, r.payRef = p ∧ r.state.inFlight = true) ∨ ∃ e ∈ l.exchange, e.payRef = p) :
    ∀ r ∈ l.records, r.state.inFlight = true → r.payRef = p := fun r hr hf => by
  obtain ⟨e, he, hep, -⟩ := h.2.1 r hr hf
  rcases hp with ⟨x, hx, rfl, hxf⟩ | ⟨x, hx, rfl⟩
  · obtain ⟨e', he', hep', -⟩ := h.2.1 x hx hxf
    obtain rfl : e = e' := Option.mem_unique he he'
    rw [← hep, hep']
  · obtain rfl : e = x := Option.mem_unique he hx
    exact hep.symm

theorem mem_of_keys {l m : PayLine} (h : m.records.map PayRecord.key = l.records.map PayRecord.key) {r : PayRecord}
    (hr : r ∈ m.records) : ∃ x ∈ l.records, x.payRef = r.payRef ∧ x.state = r.state := by
  have := List.mem_map_of_mem (f := PayRecord.key) hr
  rw [h] at this
  obtain ⟨x, hx, hk⟩ := List.mem_map.1 this
  obtain ⟨h1, h2⟩ := Prod.mk.inj hk
  exact ⟨x, hx, h1, h2⟩

theorem length_retire {l : List PayRecord} (h : ∀ r ∈ l, r.state.inFlight = false) : (retire l).length = l.length - 1 := by
  cases l with
  | nil => rfl
  | cons r l => simp [retire, h r (by simp)]

theorem retire_subset (l : List PayRecord) : ∀ r ∈ retire l, r ∈ l := by
  induction l with
  | nil => simp [retire]
  | cons x l ih =>
    intro r hr
    unfold retire at hr
    split at hr
    · rcases List.mem_cons.1 hr with rfl | hr
      · exact List.mem_cons_self
      · exact List.mem_cons_of_mem _ (ih r hr)
    · exact List.mem_cons_of_mem _ hr

/-- R93: the oldest final record makes room where the line keeps six. -/
theorem length_addRecord (r : PayRecord) {l : List PayRecord} (h : ∀ r ∈ l, r.state.inFlight = false)
    (hl : l.length ≤ 6) : (addRecord r l).length ≤ 6 := by
  rw [addRecord, List.length_append, List.length_singleton]
  by_cases hc : l.length < Config.maxPayRecords
  · rw [if_pos hc]
    exact hc
  · rw [if_neg hc, length_retire h]
    omega

theorem onRecord_mem {l : PayLine} {p : Nat} {f : PayRecord → PayRecord} {r : PayRecord}
    (h : r ∈ (l.onRecord p f).records) : (∃ x ∈ l.records, x.payRef = p ∧ r = f x) ∨ r ∈ l.records ∧ r.payRef ≠ p := by
  obtain ⟨x, hx, rfl⟩ := List.mem_map.1 h
  split
  · next hp => exact .inl ⟨x, hx, hp, rfl⟩
  · next hp => exact .inr ⟨hx, hp⟩

theorem mem_onRecord {l : PayLine} {p : Nat} (f : PayRecord → PayRecord) {x : PayRecord} (h : x ∈ l.records)
    (hp : x.payRef = p) : f x ∈ (l.onRecord p f).records := List.mem_map.2 ⟨x, h, if_pos hp⟩

theorem PayStep.lawful {l m : PayLine} (h : PayStep l m) (hl : l.lawful) : m.lawful := by
  have hlaw := hl
  obtain ⟨hlen, hfly, hex⟩ := hl
  cases h with
  | stays m hr he hq =>
    have hsize := congrArg List.length hr
    simp only [List.length_map] at hsize
    refine ⟨hsize ▸ hlen, fun r hm hf => ?_, fun e hm hk => ?_⟩
    · obtain ⟨x, hx, hp, hst⟩ := mem_of_keys hr hm
      obtain ⟨e, hle, hep, hek⟩ := hfly x hx (hst ▸ hf)
      have : e.key ∈ m.exchange.map Exchange.key := he ▸ Option.mem_map_of_mem _ hle
      obtain ⟨e', hm', hkey⟩ := Option.mem_map.1 this
      obtain ⟨h1, h2⟩ := Prod.mk.inj hkey
      exact ⟨e', hm', by rw [h2, hep, hp], by rw [h1, hek, hst]⟩
    · have : e.key ∈ l.exchange.map Exchange.key := he ▸ Option.mem_map_of_mem _ hm
      obtain ⟨e', hm', hkey⟩ := Option.mem_map.1 this
      obtain ⟨h1, h2⟩ := Prod.mk.inj hkey
      obtain ⟨r, hr', hp, hf⟩ := hex e' hm' (h1 ▸ hk)
      obtain ⟨x, hx, hxp, hxs⟩ := mem_of_keys hr.symm hr'
      exact ⟨x, hx, by rw [hxp, hp, h2], hxs ▸ hf⟩
  | frees m hr hidle hm hq =>
    have hsize := congrArg List.length hr
    simp only [List.length_map] at hsize
    refine ⟨hsize ▸ hlen, fun r hr' hf => ?_, fun e he hk => absurd (hm e he) hk⟩
    obtain ⟨x, hx, -, hst⟩ := mem_of_keys hr hr'
    simp [← hst, hlaw.idle_records hidle x hx] at hf
  | ends p f hp hf =>
    refine ⟨by simpa [PayLine.onRecord] using hlen, fun r hr hfly' => ?_, fun e he => by cases he⟩
    rcases onRecord_mem hr with ⟨x, hx, -, rfl⟩ | ⟨hx, hne⟩
    · simp [(hf x).2] at hfly'
    · exact absurd (hlaw.one_attempt hp r hx hfly') hne
  | moves p f e hp he hk hf =>
    refine ⟨by simpa [PayLine.onRecord] using hlen, fun r hr hfly' => ⟨e, rfl, ?_⟩, fun e' he' _ => ?_⟩
    · rcases onRecord_mem hr with ⟨x, hx, hxp, rfl⟩ | ⟨hx, hne⟩
      · exact ⟨by rw [he, (hf x).1, hxp], (hf x).2.2⟩
      · exact absurd (hlaw.one_attempt (.inl hp) r hx hfly') hne
    · obtain rfl : e = e' := Option.some.inj he'
      obtain ⟨x, hx, hxp, -⟩ := hp
      exact ⟨f x, mem_onRecord f hx hxp, by rw [(hf x).1, hxp, he], (hf x).2.1⟩
  | starts r e hidle hr he =>
    obtain ⟨hek, hep⟩ := Prod.mk.inj he
    have hfinal := hlaw.idle_records hidle
    refine ⟨?_, fun x hx hf => ?_, fun e' he' _ => ?_⟩
    · exact length_addRecord r hfinal hlen
    · rcases List.mem_append.1 hx with hx | hx
      · have hold : x ∈ l.records := by
          split at hx
          · exact hx
          · exact retire_subset _ x hx
        simp [hfinal x hold] at hf
      · rw [List.mem_singleton.1 hx, hr]
        exact ⟨e, rfl, hep, by simpa using hek⟩
    · obtain rfl : e = e' := Option.some.inj he'
      exact ⟨r, List.mem_append_right _ (List.mem_singleton.2 rfl), hep.symm, by rw [hr]; rfl⟩

theorem PayStep.queue {l m : PayLine} (h : PayStep l m) (hl : l.queue.length ≤ 4) : m.queue.length ≤ 4 := by
  cases h with
  | stays m hr he hq => omega
  | frees m hr hl hm hq => omega
  | ends => exact hl
  | moves => exact hl
  | starts => exact hl

theorem PayLaw.payWork {s t : State} (h : PayWork s t) (hs : PayLaw s) : PayLaw t := fun k =>
  (h k).rec (motive := fun m _ => m.lawful) (hs k) fun _ step ih => step.lawful ih

/-- R103: at most 4 reversals stand in a line's queue. -/
def PaySizes (s : State) : Prop := ∀ i, (s.payLine i).queue.length ≤ 4

theorem PaySizes.payWork {s t : State} (h : PayWork s t) (hs : PaySizes s) : PaySizes t := fun k =>
  (h k).rec (motive := fun m _ => m.queue.length ≤ 4) (hs k) fun _ step ih => step.queue ih

theorem lasting_payWork {P : State → Prop} (hP : ∀ s t, PayWork s t → P s → P t) (hreset : P State.reset) :
    Lasting [.pay] P where
  reads s t h hs := hP s t (.of_lines (congrArg PayUnit.lines (h .pay (by simp)))) hs
  apart := by simp
  reset := hreset
  events e s h hs := by
    obtain ⟨b, hb, he⟩ := h
    rw [List.mem_singleton.1 hb] at he
    exact hP _ _ (payWork_carryOut e s he) hs

theorem PayWork.answer {s t : State} {r : Reply} {res : Result} {fs : List Byte} (h : PayWork s t) :
    PayWork s (answer r res fs t) := h.then_only (bs := [.lines]) (by simp) (by simp)

theorem payWork_onOwned {who : Requester} {r : Reply} {slot : Byte} {ref : BitVec 16}
    {f : Owner → Fin 16 → Basket → State → State} (h : ∀ o i b, PayWork s (f o i b s)) :
    PayWork s (onOwned who r slot ref f s) := by
  unfold onOwned
  repeat' split
  any_goals exact (PayWork.refl s).answer
  exact h _ _ _

theorem payWork_takeApproved {i : Fin 8} {p n : Nat} {code : List Byte} {r : PayRecord}
    (h : (s.payLine i).record p = some r) : PayWork s (takeApproved i code n r s) := by
  unfold takeApproved
  split
  · next hst => exact payWork_abortApproved (attempts_of h (by rw [hst]; rfl)) code n
  · split
    · exact .refl s
    · exact payWork_lateApproval _ _ _ _ _
  · exact payWork_lateApproval _ _ _ _ _
  · exact payWork_lateApproval _ _ _ _ _
  · exact payWork_lateApproval _ _ _ _ _
  · next h1 h2 h3 h4 h5 =>
    have hf : r.state.inFlight = true := by
      cases hst : r.state <;> simp_all [PayState.inFlight]
    split
    · exact payWork_approveRecord (attempts_of h hf) code
    · exact payWork_mismatchRecord (attempts_of h hf) code n

theorem payWork_dropDoubt (i : Fin 16) (ref : Nat) (s : State) : PayWork s (dropDoubt i ref s) := .of_lines rfl

theorem payWork_resolveVoid (i : Fin 16) (b : Basket) (r : Reply) (s : State) : PayWork s (resolveVoid i b r s) :=
  (payWork_dropDoubt i b.ref s).then_only (bs := [.baskets, .engine, .sales]) (by simp [resolveVoid]) (by simp)

theorem payWork_resolveSold (i : Fin 16) (b : Basket) (d : Doubt) (r : Reply) (code : List Byte) (s : State) :
    PayWork s (resolveSold i b d r code s) := by
  unfold resolveSold
  split
  · exact (PayWork.refl s).answer
  · split
    · exact (PayWork.refl s).answer
    · exact (payWork_dropDoubt i b.ref s).then_only (bs := [.baskets, .engine, .sales]) (by simp) (by simp)

/-- Every command does to the pay lines what `PayWork` says: a property of them kept by that is kept by every command. -/
theorem exec_payWork {P : State → Prop} (k : Lasting [.pay] P) (hP : ∀ s t, PayWork s t → P s → P t) {i : Instr}
    {s t : State} (h : exec i s = .next t) (hs : P s) : P t := by
  cases i
  case secondTick => exact k.command h (fun u => hP _ _ (payWork_secondTick u)) hs
  case acceptWaitExpiry => exact k.event h (hP _ _ (payWork_expireAccept _ s)) hs
  case authorizationWaitExpiry => exact k.event h (hP _ _ (payWork_expireAuthorization _ s)) hs
  case reversalIntervalExpiry => exact k.event h (hP _ _ (payWork_expireInterval _ s)) hs
  case strayMessage => exact k.message h (fun u => hP _ _ (payWork_countStray _ u)) hs
  case accepted =>
    refine k.message h (fun u => hP _ _ (payWork_onNamed fun r hr => ?_)) hs
    split
    · next hst => exact payWork_acceptRecord (attempts_of hr (by rw [hst]; rfl))
    · exact .refl u
  case progress =>
    refine k.message (exec_progress _ _ _ s ▸ h) (fun u => hP _ _ ?_) hs
    split
    · exact payWork_countStray _ u
    · refine payWork_onNamed fun r hr => ?_
      split
      · next hst =>
        exact (payWork_acceptRecord (attempts_of hr (by rw [hst]; rfl))).trans (payWork_progressRecord _ r _ _)
      · exact payWork_progressRecord _ r _ u
      · exact .refl u
  case approved =>
    refine k.message (exec_approved _ _ _ _ s ▸ h) (fun u => hP _ _ ?_) hs
    split
    · exact payWork_countStray _ u
    · split
      · exact payWork_countStray _ u
      · split
        · exact payWork_lateApproval _ _ _ _ _
        · exact payWork_onNamed fun r hr => payWork_takeApproved hr
  case declined =>
    refine k.message (exec_declined _ _ _ s ▸ h) (fun u => hP _ _ ?_) hs
    split
    · exact payWork_countStray _ u
    · refine payWork_onNamed fun r hr => ?_
      split
      · next hst => exact payWork_declineRecord (attempts_of hr (by rw [hst]; rfl)) _
      · next hst => exact payWork_declineRecord (attempts_of hr (by rw [hst]; rfl)) _
      · next hst => exact payWork_abortAnswered (attempts_of hr (by rw [hst]; rfl)) fun _ => ⟨rfl, rfl⟩
      · exact .refl u
  case aborted =>
    refine k.message h (fun u => hP _ _ (payWork_onNamed fun r hr => ?_)) hs
    split
    · next hst => exact payWork_declineRecord (attempts_of hr (by rw [hst]; rfl)) _
    · next hst => exact payWork_declineRecord (attempts_of hr (by rw [hst]; rfl)) _
    · next hst => exact payWork_abortAnswered (attempts_of hr (by rw [hst]; rfl)) fun _ => ⟨rfl, rfl⟩
    · exact .refl u
  case reversed =>
    refine k.message (exec_reversed _ _ s ▸ h) (fun u => hP _ _ ?_) hs
    split
    · exact payWork_confirmReversal _ _ u
    · split
      · exact .refl u
      · exact payWork_countStray _ u
  case cancel =>
    refine k.request (by simp) h (fun who r u hu => hP _ _ (payWork_onOwned fun o i b => ?_) hu) hs
    split
    · exact .of_only (bs := [.baskets, .engine, .sales]) (by simp) (by simp)
    · exact .of_only (bs := [.baskets, .engine, .sales]) (by simp) (by simp)
    · split
      · next line x hx =>
        obtain ⟨p, hp⟩ := attemptLine_record hx
        split
        · next hst => exact payWork_startAbort (attempts_of hp (by rcases hst with e | e <;> rw [e] <;> rfl))
        · exact (PayWork.refl u).answer
      · exact (PayWork.refl u).answer
    · exact (PayWork.refl u).answer
  case pay =>
    refine k.request (by simp) h (fun who r u hu => hP _ _ (payWork_onOwned fun o i b => ?_) hu) hs
    repeat' split
    any_goals exact (PayWork.refl u).answer
    next hfree _ => exact payWork_startPayment (freePayLine_free hfree).1
  case resolve =>
    refine k.request (by simp) h (fun who r u hu => hP _ _ ?_ hu) hs
    repeat' split
    any_goals exact (PayWork.refl u).answer
    · exact payWork_resolveVoid _ _ _ u
    · exact payWork_resolveSold _ _ _ _ _ u
  all_goals exact k.exec_apart (by simp) (by unfold touches; simp) h hs

theorem lasting_payLaw : Lasting [.pay] PayLaw :=
  lasting_payWork (fun _ _ => PayLaw.payWork) (by simp [PayLaw, State.reset, State.payLine, PayUnit.reset])

/-- Every step keeps the pay lines' records. -/
theorem payLaw_step {s t : State} (hs : PayLaw s) (h : step s = .next t) : PayLaw t :=
  lasting_payLaw.step (lasting_payLaw.idle (by simp)) (fun _ _ _ => exec_payWork lasting_payLaw fun _ _ => PayLaw.payWork)
    hs h

theorem lasting_paySizes : Lasting [.pay] PaySizes :=
  lasting_payWork (fun _ _ => PaySizes.payWork) (by simp [PaySizes, State.reset, State.payLine, PayUnit.reset])

theorem paySizes_step {s t : State} (hs : PaySizes s) (h : step s = .next t) : PaySizes t :=
  lasting_paySizes.step (lasting_paySizes.idle (by simp))
    (fun _ _ _ => exec_payWork lasting_paySizes fun _ _ => PaySizes.payWork) hs h

end Sys2Proof.Machine
end

section
/-! PROOFS. What the commands do to the baskets' refs and generations and to the banks' counts (R55, R74 to R76), and the
laws of both. -/

namespace Sys2Proof.Machine

-- ## Counters that pass over values in use

/-- The `k`th value from a counter on, before and after it wraps. -/
theorem advanced_eq {top c k : Nat} (hk : k ≤ top) :
    advanced top c k = if c ≤ top ∧ top < c + k then c + k - top else c + k := by
  induction k with
  | zero => simp [advanced]
  | succ k ih =>
    rw [advanced, ih (by omega)]
    split <;> split <;> split <;> omega

theorem advanced_injective {top c i j : Nat} (hi : i < top) (hj : j < top) (h : advanced top c i = advanced top c j) :
    i = j := by
  rw [advanced_eq hi.le, advanced_eq hj.le] at h
  split at h <;> split at h <;> omega

theorem advanced_within {top c k : Nat} (h : within 1 top c) : within 1 top (advanced top c k) := by
  induction k with
  | zero => exact h
  | succ k ih =>
    unfold within at ih ⊢
    rw [advanced]
    split <;> omega

/-- Where fewer values are held than are looked at, the one found is free. -/
theorem firstFree_free {held : Nat → Bool} {top fuel c : Nat} {l : List Nat} (hl : ∀ n, held n = true → n ∈ l)
    (hlen : l.length ≤ fuel) (htop : fuel < top) : held (firstFree held (wrapSucc top) fuel c) = false := by
  obtain ⟨k, hk, hle, hbefore, hafter⟩ := firstFree_spec held top fuel c
  rw [hk]
  by_contra hh
  rw [Bool.not_eq_false] at hh
  have hall : ∀ i ∈ List.range (fuel + 1), advanced top c i ∈ l := fun i hi => by
    have hi : i ≤ fuel := by simpa [Nat.lt_succ_iff] using hi
    have hkf : k = fuel := by
      by_contra hne
      simp [hafter (by omega)] at hh
    rcases Nat.lt_or_ge i k with hlt | hge
    · exact hl _ (hbefore i hlt)
    · obtain rfl : i = k := by omega
      exact hl _ hh
  have hnd : ((List.range (fuel + 1)).map (advanced top c)).Nodup :=
    List.nodup_range.map_on fun i hi j hj e => advanced_injective (top := top) (c := c) (by simp at hi; omega)
      (by simp at hj; omega) e
  have hsub : ((List.range (fuel + 1)).map (advanced top c)).length ≤ l.length :=
    (hnd.subperm fun x hx => by
      obtain ⟨i, hi, rfl⟩ := List.mem_map.1 hx
      exact hall i hi).length_le
  simp at hsub
  omega

theorem firstFree_within {held : Nat → Bool} {top fuel c : Nat} (h : within 1 top c) :
    within 1 top (firstFree held (wrapSucc top) fuel c) := by
  obtain ⟨k, hk, -⟩ := firstFree_spec held top fuel c
  rw [hk]
  exact advanced_within h

theorem wrapSucc_within {top c : Nat} (h : within 1 top c) : within 1 top (wrapSucc top c) := advanced_within (k := 1) h

-- ## What a command does to refs, generations and counts

/-- What a basket keeps while it lives: its ref and its generation. -/
def Basket.key (b : Basket) : Nat × Nat := (b.ref, b.generation)

/-- A bank's generation and count. -/
def Bank.key (k : Bank) : Nat × Nat := (k.generation, k.count)

/-- R72: a basket's record leaves its slot, the count of its generation falling. -/
def dropBasket (i : Fin 16) (b : Basket) (s : State) : State :=
  let u := uncountBasket b.generation s
  { u with baskets := u.baskets.set i none }

/-- R59: a basket's record enters a slot, the count of the ACTIVE generation rising and the counter moving on. -/
def addBasket (i : Fin 16) (b : Basket) (s : State) : State :=
  { countBasket (s.putBasket i b) with nextBasketRef := wrapSucc 65535 b.ref }

/-- All that the commands do to the refs and generations of the baskets and to the banks' generations and counts. -/
inductive BasketWork : State → State → Prop
  | keeps {s t : State} (hb : ∀ i, (t.baskets.get i).map Basket.key = (s.baskets.get i).map Basket.key)
      (ha : t.prices.active.map Bank.key = s.prices.active.map Bank.key)
      (hr : t.prices.retained.map Bank.key = s.prices.retained.map Bank.key)
      (hn : t.nextBasketRef = s.nextBasketRef) : BasketWork s t
  | leaves {s : State} (i : Fin 16) (b : Basket) (h : s.baskets.get i = some b) : BasketWork s (dropBasket i b s)
  | activates {s : State} (set : PriceSet) : BasketWork s { s with prices := (s.prices.activate set).1 }
  | opens {s : State} (i : Fin 16) (b : Basket) (k : Bank) (h : s.baskets.get i = none) (hk : s.prices.active = some k)
      (hr : b.ref = s.freeRef) (hg : b.generation = k.generation) : BasketWork s (addBasket i b s)
  | trans {s t u : State} (h : BasketWork s t) (k : BasketWork t u) : BasketWork s u

-- ## The law of the banks (R74 to R76)

/-- The law of the banks by their generations and counts and the number of live baskets of each generation. -/
def Banked (a r : Option Bank) (live : Nat → Nat) : Prop :=
  (∀ k ∈ a, k.count = live k.generation) ∧ (∀ k ∈ r, k.count = live k.generation ∧ 0 < k.count)
    ∧ (∀ k ∈ a, ∀ q ∈ r, k.generation ≠ q.generation)
    ∧ ∀ g, 0 < live g → (∃ k ∈ a, k.generation = g) ∨ ∃ k ∈ r, k.generation = g

/-- How many live baskets have a generation. -/
def State.liveOf (s : State) (g : Nat) : Nat := s.liveBaskets.countP (fun x => x.2.generation == g)

theorem bank_isSome (b : PriceBook) (g : Nat) :
    (b.bank g).isSome = true ↔ (∃ k ∈ b.active, k.generation = g) ∨ ∃ k ∈ b.retained, k.generation = g := by
  unfold PriceBook.bank
  cases b.active <;> cases b.retained <;> simp
  all_goals split <;> simp_all

theorem bankLaw_iff (s : State) : BankLaw s ↔ Banked s.prices.active s.prices.retained s.liveOf := by
  have hlive : ∀ g, 0 < s.liveOf g ↔ ∃ x ∈ s.liveBaskets, x.2.generation = g := fun g => by
    simp [State.liveOf, List.countP_pos_iff]
  simp only [BankLaw, Banked, bank_isSome, hlive]
  refine and_congr Iff.rfl (and_congr Iff.rfl (and_congr Iff.rfl ⟨?_, ?_⟩))
  · rintro h g ⟨x, hx, rfl⟩
    exact h x hx
  · exact fun h x hx => h _ ⟨x, hx, rfl⟩

theorem liveOf_eq (s : State) (g : Nat) :
    s.liveOf g = ∑ i, if (s.baskets.get i).any (fun b => b.generation == g) then 1 else 0 := by
  rw [Fin.sum_univ_def, State.liveOf, State.liveBaskets]
  unfold indices
  induction List.finRange 16 with
  | nil => rfl
  | cons i l ih =>
    rw [List.filterMap_cons, List.map_cons, List.sum_cons, ← ih]
    cases hb : s.baskets.get i with
    | none => simp
    | some b =>
      simp only [Option.map_some, Option.any_some, List.countP_cons]
      omega

/-- A basket that enters a free slot, or leaves its slot, is counted where the other state's slot has none. -/
theorem liveOf_set {s t : State} {i : Fin 16} {b : Basket} (ht : t.baskets = s.baskets.set i none)
    (h : s.baskets.get i = some b) (g : Nat) : s.liveOf g = t.liveOf g + if b.generation = g then 1 else 0 := by
  have hi : (if b.generation = g then 1 else 0) = ∑ k : Fin 16, if k = i then (if b.generation = g then 1 else 0) else 0 := by
    simp
  rw [liveOf_eq, liveOf_eq, hi, ← Finset.sum_add_distrib]
  refine Finset.sum_congr rfl fun k _ => ?_
  rw [ht, Tab.get_set]
  by_cases hk : k = i
  · subst hk
    simp [h]
  · simp [hk, Ne.symm hk]

theorem liveOf_congr {s t : State} (h : ∀ i, (t.baskets.get i).map Basket.key = (s.baskets.get i).map Basket.key) :
    t.liveOf = s.liveOf := by
  funext g
  rw [liveOf_eq, liveOf_eq]
  refine Finset.sum_congr rfl fun i _ => ?_
  have hi := h i
  revert hi
  cases t.baskets.get i <;> cases s.baskets.get i <;> simp +contextual [Basket.key]

theorem banked_iff (a r : Option Bank) (live : Nat → Nat) : Banked a r live
    ↔ (∀ k ∈ a.map Bank.key, k.2 = live k.1) ∧ (∀ k ∈ r.map Bank.key, k.2 = live k.1 ∧ 0 < k.2)
      ∧ (∀ k ∈ a.map Bank.key, ∀ q ∈ r.map Bank.key, k.1 ≠ q.1)
      ∧ ∀ g, 0 < live g → (∃ k ∈ a.map Bank.key, k.1 = g) ∨ ∃ k ∈ r.map Bank.key, k.1 = g := by
  cases a <;> cases r <;> simp [Banked, Bank.key]

theorem Banked.congr {a r a' r' : Option Bank} {live : Nat → Nat} (h : Banked a r live)
    (ha : a'.map Bank.key = a.map Bank.key) (hr : r'.map Bank.key = r.map Bank.key) : Banked a' r' live := by
  rw [banked_iff] at h ⊢
  rwa [ha, hr]

/-- R75: whether a bank holds a generation. -/
def PriceBook.holds (b : PriceBook) (g : Nat) : Bool :=
  b.active.any (fun k => k.generation == g) || b.retained.any (fun k => k.generation == g)

/-- R75: a fresh generation is that of neither bank. -/
theorem freshGeneration_free (b : PriceBook) : b.holds b.freshGeneration = false := by
  refine firstFree_free (l := b.active.toList.map (·.generation) ++ b.retained.toList.map (·.generation))
    (fun n hn => ?_) ?_ (by norm_num)
  · cases ha : b.active <;> cases hr : b.retained <;> simp_all
    exact hn.imp Eq.symm Eq.symm
  · cases b.active <;> cases b.retained <;> simp

theorem freshGeneration_ne (b : PriceBook) :
    (∀ k ∈ b.active, k.generation ≠ b.freshGeneration) ∧ ∀ k ∈ b.retained, k.generation ≠ b.freshGeneration := by
  have h := Bool.or_eq_false_iff.1 (freshGeneration_free b)
  constructor <;> intro k hk e
  · rw [show b.active = some k from hk] at h
    simp [e] at h
  · rw [show b.retained = some k from hk] at h
    simp [e] at h

/-- R80: an activation attempted, whatever its outcome. -/
theorem Banked.activate {b : PriceBook} {live : Nat → Nat} (h : Banked b.active b.retained live) (set : PriceSet) :
    Banked (b.activate set).1.active (b.activate set).1.retained live := by
  obtain ⟨hfa, hfr⟩ := freshGeneration_ne b
  obtain ⟨ha, hr, hne, hall⟩ := h
  have hzero : live b.freshGeneration = 0 := by
    by_contra hpos
    rcases hall _ (Nat.pos_of_ne_zero hpos) with ⟨k, hk, e⟩ | ⟨k, hk, e⟩
    · exact hfa k hk e
    · exact hfr k hk e
  unfold PriceBook.activate
  split
  · next hact =>
    refine ⟨fun k hk => ?_, hr, fun k hk q hq => ?_, fun g hg => ?_⟩
    · cases hk
      exact hzero.symm
    · cases hk
      exact (hfr q hq).symm
    · refine .inr ((hall g hg).resolve_left ?_)
      simp [hact]
  · next _ a hact =>
    split
    · next hcount =>
      refine ⟨fun k hk => ?_, hr, fun k hk q hq => ?_, fun g hg => ?_⟩
      · cases hk
        exact hzero.symm
      · cases hk
        exact (hfr q hq).symm
      · refine .inr ((hall g hg).resolve_left ?_)
        rintro ⟨k, hk, rfl⟩
        obtain rfl : a = k := Option.some.inj (hact.symm.trans hk)
        have := ha a hact
        omega
    · next hcount =>
      split
      · next hret =>
        refine ⟨fun k hk => ?_, fun k hk => ?_, fun k hk q hq => ?_, fun g hg => ?_⟩
        · cases hk
          exact hzero.symm
        · cases hk
          exact ⟨ha a hact, Nat.pos_of_ne_zero hcount⟩
        · cases hk
          cases hq
          exact (hfa a hact).symm
        · refine .inr ((hall g hg).elim (fun ⟨k, hk, e⟩ => ⟨k, hact ▸ hk, e⟩) ?_)
          rintro ⟨k, hk, -⟩
          simp [hret] at hk
      · exact ⟨ha, hr, hne, hall⟩

/-- R84: the RETAINED bank emptied, no basket of it being left. -/
theorem Banked.emptyRetained {s : State} {live : Nat → Nat} (h : Banked s.prices.active none live) :
    Banked (emptyRetained s).prices.active (emptyRetained s).prices.retained live := by
  unfold Sys2Proof.Machine.emptyRetained
  dsimp only
  split
  · split
    · exact h
    · next set _ => exact Banked.activate (b := { s.prices with
        retained := none, staged := { s.prices.staged with waiting := false } }) h set
  · exact h

/-- R76: the count of the bank of a generation falls as one of its baskets leaves. -/
theorem Banked.uncount {s : State} {live live' : Nat → Nat} {g : Nat} (h : Banked s.prices.active s.prices.retained live)
    (hlive : ∀ x, live x = live' x + if g = x then 1 else 0) :
    Banked (uncountBasket g s).prices.active (uncountBasket g s).prices.retained live' := by
  obtain ⟨ha, hr, hne, hall⟩ := h
  have hone : live g = live' g + 1 := by simp [hlive]
  have hother : ∀ x, g ≠ x → live x = live' x := fun x hx => by simp [hlive, hx]
  have hpos : ∀ x, 0 < live' x → 0 < live x := fun x hx => by
    rw [hlive]
    omega
  have hret : (∀ k ∈ s.prices.active, k.generation ≠ g) →
      Banked (uncountBasket.uncountRetained g s).prices.active (uncountBasket.uncountRetained g s).prices.retained live' := by
    intro hnot
    obtain ⟨k, hk, hkg⟩ : ∃ k ∈ s.prices.retained, k.generation = g :=
      (hall g (by omega)).resolve_left fun ⟨k, hk, e⟩ => hnot k hk e
    have hact : ∀ q ∈ s.prices.active, q.count = live' q.generation := fun q hq =>
      (ha q hq).trans (hother _ (Ne.symm (hnot q hq)))
    unfold uncountBasket.uncountRetained
    rw [show s.prices.retained = some k from hk]
    dsimp only
    rw [if_pos hkg]
    have hcount : k.count = live' g + 1 := by rw [← hone, ← hkg]; exact (hr k hk).1
    split
    · next hle =>
      refine Banked.emptyRetained ⟨hact, by simp, by simp, fun x hx => .inl ?_⟩
      refine (hall x (hpos x hx)).resolve_right ?_
      rintro ⟨q, hq, rfl⟩
      obtain rfl : k = q := Option.some.inj (hk.symm.trans hq)
      rw [hkg] at hx
      omega
    · refine ⟨hact, fun q hq => ?_, fun q hq p hp => ?_, fun x hx => ?_⟩
      · cases hq
        dsimp only
        rw [hkg]
        omega
      · cases hp
        rw [hkg]
        exact hnot q hq
      · rcases hall x (hpos x hx) with hx | ⟨q, hq, rfl⟩
        · exact .inl hx
        · obtain rfl : k = q := Option.some.inj (hk.symm.trans hq)
          exact .inr ⟨_, rfl, rfl⟩
  unfold uncountBasket
  split
  · next k hk =>
    split
    · next hkg =>
      refine ⟨fun q hq => ?_, fun q hq => ?_, fun q hq p hp => ?_, fun x hx => ?_⟩
      · cases hq
        have := ha k hk
        dsimp only
        rw [hkg] at this ⊢
        omega
      · have hq' := hne k hk q hq
        rw [hkg] at hq'
        rw [← hother _ hq']
        exact hr q hq
      · cases hq
        exact hne k hk p hp
      · rcases hall x (hpos x hx) with ⟨q, hq, rfl⟩ | hx
        · obtain rfl : k = q := Option.some.inj (hk.symm.trans hq)
          exact .inl ⟨_, rfl, rfl⟩
        · exact .inr hx
    · next hkg =>
      refine hret fun q hq => ?_
      obtain rfl : k = q := Option.some.inj (hk.symm.trans hq)
      exact hkg
  · next hnone => exact hret fun q hq => by simp [hnone] at hq

theorem uncountBasket_baskets (g : Nat) (s : State) : (uncountBasket g s).baskets = s.baskets :=
  (only_uncountBasket (bs := [.prices, .lines]) (by simp)).2 (Only.refl _ _) .baskets (by simp)

theorem BankLaw.basketWork {s t : State} (h : BasketWork s t) (hs : BankLaw s) : BankLaw t := by
  induction h with
  | trans _ _ ih₁ ih₂ => exact ih₂ (ih₁ hs)
  | keeps hb ha hr hn =>
    rw [bankLaw_iff] at hs ⊢
    rw [liveOf_congr hb]
    exact hs.congr ha hr
  | @leaves s i b hi =>
    rw [bankLaw_iff] at hs ⊢
    refine Banked.uncount (g := b.generation) hs (liveOf_set (i := i) ?_ hi)
    rw [dropBasket, uncountBasket_baskets]
  | activates set =>
    rw [bankLaw_iff] at hs ⊢
    exact hs.activate set
  | @opens s i b k hi hk hr hg =>
    have hset : s.baskets = (addBasket i b s).baskets.set i none := Tab.ext_get fun j => by
      rw [Tab.get_set]
      by_cases hj : i = j
      · subst hj
        simpa using hi
      · simp [hj, addBasket, countBasket]
    have hlive := liveOf_set (t := s) (b := b) hset (by simp [addBasket, countBasket, State.putBasket])
    rw [bankLaw_iff] at hs ⊢
    obtain ⟨ha, hret, hne, hall⟩ := hs
    have hact : (addBasket i b s).prices.active = some { k with count := k.count + 1 } := by
      simp [addBasket, countBasket, State.putBasket, hk]
    rw [hact]
    refine ⟨fun q hq => ?_, fun q hq => ?_, fun q hq p hp => ?_, fun g hg' => ?_⟩
    · cases hq
      rw [hlive, if_pos hg, ha k hk]
    · rw [hlive, if_neg fun e => hne k hk q hq (hg.symm.trans e)]
      exact hret q hq
    · cases hq
      exact hne k hk p hp
    · by_cases e : k.generation = g
      · exact .inl ⟨_, rfl, e⟩
      · rw [hlive, if_neg fun e' => e (hg.symm.trans e')] at hg'
        refine .inr ((hall g hg').resolve_left ?_)
        rintro ⟨q, hq, e'⟩
        obtain rfl : k = q := Option.some.inj (hk.symm.trans hq)
        exact e e'

-- ## The law of the refs (R55)

/-- R55: the ref of the next basket is held by no live basket. -/
theorem freeRef_free (s : State) : (s.liveBaskets.any (fun x => x.2.ref == s.freeRef)) = false := by
  refine firstFree_free (held := fun n => s.liveBaskets.any (fun x => x.2.ref == n)) (top := 65535) (fuel := 17)
    (c := s.nextBasketRef) (l := s.liveBaskets.map (·.2.ref)) (fun n hn => ?_) ?_ (by norm_num)
  · obtain ⟨x, hx, e⟩ := List.any_eq_true.1 hn
    exact List.mem_map.2 ⟨x, hx, by simpa using e⟩
  · rw [List.length_map]
    exact (List.length_filterMap_le _ _).trans (by simp [indices])

theorem freeRef_ne {s : State} {i : Fin 16} {b : Basket} (h : s.baskets.get i = some b) : b.ref ≠ s.freeRef := fun e => by
  have := List.any_eq_false.1 (freeRef_free s) (i, b) ((mem_liveBaskets s i b).2 h)
  simp [e] at this

/-- A list of refs agrees with another where each slot's does. -/
theorem RefLaw.of_refs {s t : State} (hs : RefLaw s) (hn : within 1 65535 t.nextBasketRef)
    (h : ∀ i b, t.baskets.get i = some b → ∃ c, s.baskets.get i = some c ∧ c.ref = b.ref) : RefLaw t := by
  obtain ⟨-, hin, hne⟩ := hs
  refine ⟨hn, fun i b hb => ?_, fun i j b c hb hc e => ?_⟩
  · obtain ⟨x, hx, hr⟩ := h i b hb
    exact hr ▸ hin i x hx
  · obtain ⟨x, hx, hxr⟩ := h i b hb
    obtain ⟨y, hy, hyr⟩ := h j c hc
    exact hne i j x y hx hy (by rw [hxr, hyr, e])

theorem RefLaw.basketWork {s t : State} (h : BasketWork s t) (hs : RefLaw s) : RefLaw t := by
  induction h with
  | trans _ _ ih₁ ih₂ => exact ih₂ (ih₁ hs)
  | keeps hb ha hr hn =>
    refine hs.of_refs (hn ▸ hs.1) fun i b hi => ?_
    have hk := hb i
    rw [hi] at hk
    obtain ⟨c, hc, e⟩ := Option.map_eq_some_iff.1 hk.symm
    exact ⟨c, hc, (Prod.mk.inj e).1⟩
  | @leaves s i b hi =>
    have hn : (dropBasket i b s).nextBasketRef = s.nextBasketRef :=
      (only_uncountBasket (bs := [.prices, .lines]) (by simp)).2 (Only.refl _ _) .nextRef (by simp)
    refine hs.of_refs (hn ▸ hs.1) fun j c hj => ⟨c, ?_, rfl⟩
    rw [dropBasket, uncountBasket_baskets, Tab.get_set] at hj
    split at hj
    · cases hj
    · exact hj
  | activates set => exact hs
  | @opens s i b k hi hk hr hg =>
    obtain ⟨hnext, hin, hne⟩ := hs
    have hwithin : within 1 65535 b.ref := by
      rw [hr]
      exact firstFree_within hnext
    have hget : ∀ j, (addBasket i b s).baskets.get j = if i = j then some b else s.baskets.get j := fun j =>
      Tab.get_set ..
    refine ⟨wrapSucc_within hwithin, fun j c hj => ?_, fun j l c d hj hl e => ?_⟩
    · rw [hget] at hj
      split at hj
      · cases hj
        exact hwithin
      · exact hin j c hj
    · rw [hget] at hj hl
      split at hj <;> split at hl
      · next h1 h2 => exact h1.symm.trans h2
      · cases hj
        exact absurd (e.symm.trans hr) (freeRef_ne hl)
      · cases hl
        exact absurd (e.trans hr) (freeRef_ne hj)
      · exact hne j l c d hj hl e

end Sys2Proof.Machine
end

section
/-! PROOFS. Every command's work on the baskets and the banks. -/

namespace Sys2Proof.Machine

namespace BasketWork

variable {s t u : State}

theorem refl (s : State) : BasketWork s s := .keeps (fun _ => rfl) rfl rfl rfl

theorem of_eq (hb : t.baskets = s.baskets) (hp : t.prices = s.prices) (hn : t.nextBasketRef = s.nextBasketRef) :
    BasketWork s t := .keeps (by simp [hb]) (by rw [hp]) (by rw [hp]) hn

theorem of_only {bs : List Block} (h : Only bs s t) (hb : .baskets ∉ bs ∧ .prices ∉ bs ∧ .nextRef ∉ bs) :
    BasketWork s t := .of_eq (h .baskets hb.1) (h .prices hb.2.1) (h .nextRef hb.2.2)

theorem then_only {bs : List Block} (h : BasketWork s t) (k : Only bs t u)
    (hb : .baskets ∉ bs ∧ .prices ∉ bs ∧ .nextRef ∉ bs) : BasketWork s u := h.trans (.of_only k hb)

theorem answer {r : Reply} {res : Result} {fs : List Byte} (h : BasketWork s t) :
    BasketWork s (answer r res fs t) := h.then_only (bs := [.lines]) (by simp) (by simp)

theorem after_eq (h : BasketWork t u) (hb : t.baskets = s.baskets) (hp : t.prices = s.prices)
    (hn : t.nextBasketRef = s.nextBasketRef) : BasketWork s u := (of_eq hb hp hn).trans h

theorem before {f : State → State} (hf : ∀ u, BasketWork u (f u)) (hb : t.baskets = s.baskets)
    (hp : t.prices = s.prices) (hn : t.nextBasketRef = s.nextBasketRef) : BasketWork s (f t) :=
  (of_eq hb hp hn).trans (hf t)

/-- A live basket's record is written anew, with its ref and its generation. -/
theorem put {i : Fin 16} {b b' : Basket} (h : s.baskets.get i = some b) (hk : b'.key = b.key) :
    BasketWork s (s.putBasket i b') := by
  refine .keeps (fun j => ?_) rfl rfl rfl
  by_cases hj : i = j
  · subst hj
    simp [h, hk]
  · simp [hj]

/-- The same where other records were written before. -/
theorem put_after {bs : List Block} {i : Fin 16} {b b' : Basket} (h : s.baskets.get i = some b) (k : Only bs s t)
    (hb : .baskets ∉ bs ∧ .prices ∉ bs ∧ .nextRef ∉ bs) (hk : b'.key = b.key) : BasketWork s (t.putBasket i b') :=
  (of_only k hb).trans (put ((congrArg (Tab.get · i) (k .baskets hb.1)).trans h) hk)

end BasketWork

variable {s : State} {i : Fin 16} {b b₀ : Basket}

theorem basket_get {ref : Nat} (h : s.basket i ref = some b) : s.baskets.get i = some b ∧ b.ref = ref := by
  unfold State.basket at h
  split at h
  · cases h
  · next x hx =>
    split at h
    · next e =>
      cases h
      exact ⟨hx, by simpa using e⟩
    · cases h

/-- A basket's record that stands in a slot but for what does not tell it apart. -/
def State.keeps (s : State) (i : Fin 16) (b : Basket) : Prop := ∃ c, s.baskets.get i = some c ∧ b.key = c.key

theorem keeps_get (h : s.baskets.get i = some b) : s.keeps i b := ⟨b, h, rfl⟩

theorem State.keeps.only {t : State} {bs : List Block} (h : s.keeps i b) (k : Only bs s t) (hb : .baskets ∉ bs) :
    t.keeps i b := by
  obtain ⟨c, hc, e⟩ := h
  exact ⟨c, (congrArg (Tab.get · i) (k .baskets hb)).trans hc, e⟩

theorem basketWork_endBasket (h : s.keeps i b) (reason : EndReason) : BasketWork s (endBasket i b reason s) := by
  obtain ⟨c, hc, e⟩ := h
  unfold endBasket
  refine BasketWork.trans ?_ (.of_only (bs := [.engine]) ((only_placeEntry (by simp)).2 (Only.refl _ _)) (by simp))
  exact .put_after (bs := [.sales]) hc (by simp) (by simp) e

theorem basketWork_returnBasket (h : s.keeps i b) : BasketWork s (returnBasket i b s) := by
  obtain ⟨c, hc, e⟩ := h
  exact .put_after (bs := [.sales]) hc (by simp) (by simp) e

theorem basketWork_doubtBasket (h : s.keeps i b) : BasketWork s (doubtBasket i b s) := by
  obtain ⟨c, hc, e⟩ := h
  unfold doubtBasket
  refine BasketWork.trans ?_ (.of_only (bs := [.stations]) ((only_lockIfClosing (by simp)).2 (Only.refl _ _)) (by simp))
  exact .put_after (bs := [.sales]) hc (by simp) (by simp) e

theorem basketWork_reverseBasket (h : s.keeps i b) : BasketWork s (reverseBasket i b s) := by
  obtain ⟨c, hc, e⟩ := h
  exact .put hc e

theorem basketWork_beginCommit (h : s.keeps i b) (p : Option Payment) (l : Option (Fin 8)) :
    BasketWork s (beginCommit i b p l s) := by
  obtain ⟨c, hc, e⟩ := h
  unfold beginCommit
  refine BasketWork.trans ?_ (.of_only (bs := [.engine]) ((only_placeEntry (by simp)).2 (Only.refl _ _)) (by simp))
  exact .put_after (bs := [.sales]) hc (by simp) (by simp) e

theorem basketWork_judgeAttempt (h : s.keeps i b) (p : Nat) (o : PayOutcome) (n : Nat) :
    BasketWork s (judgeAttempt i b p o n s) := by
  have htold : ∀ f, BasketWork s (payResult i b p o f s) := fun f => .of_only (bs := [.lines]) (by simp) (by simp)
  have hkept : ∀ f, (payResult i b p o f s).keeps i b := fun f => h.only (bs := [.lines]) (by simp) (by simp)
  unfold judgeAttempt
  dsimp only
  split
  · split
    · exact (basketWork_returnBasket h).then_only (bs := [.lines]) (by simp) (by simp)
    · exact (htold _).trans (basketWork_endBasket (hkept _) _)
  · exact (htold _).trans (basketWork_endBasket (hkept _) _)

theorem basketWork_withBasket {r : PayRecord} {f : Basket → State → State}
    (h : ∀ b, s.keeps r.slot b → BasketWork s (f b s)) : BasketWork s (withBasket r f s) := by
  unfold withBasket
  split
  · exact .refl s
  · next b hb => exact h b (keeps_get (basket_get hb).1)

theorem tied_keeps {r : Reversal} (h : s.tied r = some (i, b)) : s.keeps i b := by
  unfold State.tied at h
  obtain ⟨x, -, hx⟩ := Option.bind_eq_some_iff.1 h
  obtain ⟨c, hc, e⟩ := Option.map_eq_some_iff.1 hx
  cases e
  exact keeps_get (basket_get hc).1

theorem basketWork_dispose (l : Fin 8) (r : Reversal) (s : State) : BasketWork s (dispose l r s) := by
  unfold dispose
  split
  · exact .refl s
  · next i b h =>
    split
    · exact basketWork_endBasket (tied_keeps h) _
    · exact (basketWork_doubtBasket (tied_keeps h)).then_only (bs := [.lines, .pay]) (by simp) (by simp)

theorem basketWork_needReversal (l : Fin 8) (r : Reversal) (s : State) : BasketWork s (needReversal l r s) := by
  unfold needReversal
  dsimp only
  split
  · exact .of_only (bs := [.pay]) (by simp) (by simp)
  · split
    · exact .of_only (bs := [.pay]) (by simp) (by simp)
    · exact .trans (.of_only (bs := [.lines]) (by simp) (by simp)) (basketWork_dispose l r _)

theorem basketWork_pump (l : Fin 8) (s : State) : BasketWork s (pump l s) :=
  .of_only (bs := [.pay, .lines]) (by simp) (by simp)

theorem basketWork_attemptEnds (l : Fin 8) (p : Nat) (f : PayRecord → PayRecord) (s : State) :
    BasketWork s (endExchange l (setRecord l p f s)) := .of_only (bs := [.pay]) (by simp) (by simp)

theorem basketWork_approveRecord (l : Fin 8) (r : PayRecord) (code : List Byte) (s : State) :
    BasketWork s (approveRecord l r code s) := by
  unfold approveRecord
  refine .trans (.trans (basketWork_attemptEnds ..) (basketWork_withBasket fun b hb => ?_)) (basketWork_pump l _)
  exact .trans (.of_only (bs := [.lines]) (by simp) (by simp))
    (basketWork_beginCommit (hb.only (bs := [.lines]) (by simp) (by simp)) _ _)

theorem basketWork_declineRecord (l : Fin 8) (r : PayRecord) (n : Nat) (s : State) :
    BasketWork s (declineRecord l r n s) := by
  unfold declineRecord
  exact .trans (.trans (basketWork_attemptEnds ..) (basketWork_withBasket fun b hb => basketWork_judgeAttempt hb _ _ _))
    (basketWork_pump l _)

theorem basketWork_mismatchRecord (l : Fin 8) (r : PayRecord) (code : List Byte) (n : Nat) (s : State) :
    BasketWork s (mismatchRecord l r code n s) := by
  unfold mismatchRecord
  exact .trans (.trans (.trans (basketWork_attemptEnds ..) (basketWork_needReversal ..))
    (basketWork_withBasket fun b hb => basketWork_judgeAttempt hb _ _ _)) (basketWork_pump l _)

theorem basketWork_abortAnswered (l : Fin 8) (r : PayRecord) (f : PayRecord → PayRecord) (s : State) :
    BasketWork s (abortAnswered l r f s) := by
  unfold abortAnswered
  exact .trans (.trans (basketWork_attemptEnds ..) (basketWork_withBasket fun b hb => basketWork_endBasket hb _))
    (basketWork_pump l _)

theorem basketWork_abortApproved (l : Fin 8) (r : PayRecord) (code : List Byte) (n : Nat) (s : State) :
    BasketWork s (abortApproved l r code n s) := by
  unfold abortApproved
  exact .trans (.trans (.trans (basketWork_attemptEnds ..) (basketWork_needReversal ..))
    (basketWork_withBasket fun b hb => basketWork_endBasket hb _)) (basketWork_pump l _)

theorem basketWork_timeOut (l : Fin 8) (r : PayRecord) (s : State) : BasketWork s (timeOut l r s) := by
  unfold timeOut
  refine .trans (.trans (.trans (basketWork_attemptEnds ..) (basketWork_withBasket fun b hb => ?_))
    (basketWork_needReversal ..)) (basketWork_pump l _)
  exact (basketWork_reverseBasket hb).then_only (bs := [.lines]) (by simp) (by simp)

theorem basketWork_silentAbort (l : Fin 8) (r : PayRecord) (s : State) : BasketWork s (silentAbort l r s) := by
  unfold silentAbort
  refine .trans (.trans (.trans (basketWork_attemptEnds ..) (basketWork_withBasket fun b hb => ?_))
    (basketWork_needReversal ..)) (basketWork_pump l _)
  dsimp only
  split
  · exact basketWork_reverseBasket hb
  · exact (basketWork_reverseBasket hb).answer

theorem basketWork_lateApproval (l : Fin 8) (p : Nat) (code : List Byte) (n : Nat) (s : State) :
    BasketWork s (lateApproval l p code n s) := by
  unfold lateApproval
  exact .trans (.trans (.of_only (bs := [.pay]) (by simp) (by simp)) (basketWork_needReversal ..)) (basketWork_pump l _)

theorem basketWork_confirmReversal (l : Fin 8) (r : Reversal) (s : State) : BasketWork s (confirmReversal l r s) := by
  unfold confirmReversal
  dsimp only
  refine .trans ?_ (basketWork_pump l _)
  split
  · exact .of_only (bs := [.pay]) (by simp) (by simp)
  · next i b h =>
    exact .trans (.of_only (bs := [.pay]) (by simp) (by simp)) (basketWork_judgeAttempt (tied_keeps h) _ _ _)

theorem basketWork_intervalExpired (l : Fin 8) (s : State) : BasketWork s (intervalExpired l s) := by
  unfold intervalExpired
  split
  · exact .of_only (bs := [.pay]) (by simp) (by simp)
  · dsimp only
    split
    · exact .trans (.trans (.of_only (bs := [.pay, .lines]) (by simp) (by simp)) (basketWork_dispose ..))
        (basketWork_pump l _)
    · exact .trans (.of_only (bs := [.pay]) (by simp) (by simp)) (basketWork_pump l _)

theorem basketWork_takeApproved (l : Fin 8) (code : List Byte) (n : Nat) (r : PayRecord) (s : State) :
    BasketWork s (takeApproved l code n r s) := by
  unfold takeApproved
  split
  · exact basketWork_abortApproved ..
  · split
    · exact .refl s
    · exact basketWork_lateApproval ..
  · exact basketWork_lateApproval ..
  · exact basketWork_lateApproval ..
  · exact basketWork_lateApproval ..
  · split
    · exact basketWork_approveRecord ..
    · exact basketWork_mismatchRecord ..

theorem basketWork_onNamed {l : Fin 8} {p : Nat} {f : PayRecord → State → State} (h : ∀ r, BasketWork s (f r s)) :
    BasketWork s (onNamed l p f s) := by
  unfold onNamed
  split
  · exact h _
  · split
    · exact .refl s
    · exact .of_only (bs := [.pay]) (by simp) (by simp)

theorem basketWork_expireHold (i : Fin 16) (s : State) : BasketWork s (expireHold i s) := by
  unfold expireHold
  split
  · exact .refl s
  · next b hb =>
    split
    · exact basketWork_endBasket (keeps_get hb) _
    · exact .refl s

theorem basketWork_expireAccept (l : Fin 8) (s : State) : BasketWork s (expireAccept l s) := by
  unfold expireAccept
  repeat' split
  · exact .refl s
  · exact .refl s
  · exact basketWork_silentAbort ..
  · exact basketWork_timeOut ..

theorem basketWork_expireAuthorization (l : Fin 8) (s : State) : BasketWork s (expireAuthorization l s) := by
  unfold expireAuthorization
  repeat' split
  · exact .refl s
  · exact basketWork_timeOut ..
  · exact .refl s

theorem basketWork_expireInterval (l : Fin 8) (s : State) : BasketWork s (expireInterval l s) := by
  unfold expireInterval
  split
  · exact basketWork_intervalExpired l s
  · exact .refl s

/-- The pieces of the state that the work on baskets and banks is about. -/
def basketPieces (b : Block) : Prop := b = .baskets ∨ b = .prices ∨ b = .nextRef

theorem basketWork_carryOut (e : Event) (s : State) : BasketWork s (carryOut e s) := by
  cases e
  case hold i => exact basketWork_expireHold i s
  case accept l => exact basketWork_expireAccept l s
  case authorization l => exact basketWork_expireAuthorization l s
  case interval l => exact basketWork_expireInterval l s
  all_goals exact .of_only (carryOut_only _ s) (by simp [Event.touches])

-- ## The second tick

/-- R69: a basket whose warning is sent. -/
def Basket.warnedNow (b : Basket) : Basket := { b with warningSent := true }

/-- The warnings mark the baskets of their list, and touch no other. -/
theorem foldl_holdWarning_get (s₀ : State) {l : List (Fin 16 × Basket)} (hl : ∀ x ∈ l, s₀.baskets.get x.1 = some x.2)
    (u : State) (j : Fin 16) :
    (l.foldl (fun s x => holdWarning x.1 x.2 (s.putBasket x.1 { x.2 with warningSent := true })) u).baskets.get j
      = if j ∈ l.map Prod.fst then (s₀.baskets.get j).map Basket.warnedNow else u.baskets.get j := by
  induction l generalizing u with
  | nil => simp
  | cons x l ih =>
    rw [List.foldl_cons, ih fun y hy => hl y (List.mem_cons_of_mem _ hy), holdWarning_baskets]
    by_cases hj : j ∈ l.map Prod.fst
    · rw [if_pos hj, if_pos (by rw [List.map_cons]; exact List.mem_cons_of_mem _ hj)]
    · rw [if_neg hj]
      by_cases hx : x.1 = j
      · subst hx
        simp [hl x (by simp), Basket.warnedNow]
      · rw [baskets_putBasket_ne _ _ hx, if_neg]
        rw [List.map_cons, List.mem_cons, not_or]
        exact ⟨Ne.symm hx, hj⟩

/-- R17, R69: the tick counts each basket's countdown down, and marks those it warns. -/
theorem tickBaskets_get (s : State) (j : Fin 16) : ∃ l : List (Fin 16), (tickBaskets s).baskets.get j
    = if j ∈ l then ((s.baskets.get j).map Basket.ticked).map Basket.warnedNow else (s.baskets.get j).map Basket.ticked := by
  have hticked : ∀ l : List (Fin 16 × Basket), ∀ n,
      (∀ x ∈ l, (s.baskets.map (fun b => b.map Basket.ticked)).get x.1 = some x.2) →
      (l.foldl (fun s x => holdWarning x.1 x.2 (s.putBasket x.1 { x.2 with warningSent := true }))
        (State.spend n { s with baskets := s.baskets.map (fun b => b.map Basket.ticked) })).baskets.get j
        = if j ∈ l.map Prod.fst then ((s.baskets.get j).map Basket.ticked).map Basket.warnedNow
          else (s.baskets.get j).map Basket.ticked := fun l n hl => by
    rw [foldl_holdWarning_get { s with baskets := s.baskets.map (fun b => b.map Basket.ticked) } hl]
    simp only [spend_baskets, Tab.get_map]
  exact ⟨_, hticked _ _ fun x hx =>
    (mem_liveBaskets _ x.1 x.2).1 (List.mem_of_mem_filter (arrangeFrom_subset _ _ _ x hx))⟩

theorem ticked_key (b : Basket) : b.ticked.key = b.key := by
  unfold Basket.ticked
  split <;> rfl

theorem basketWork_tickBaskets (s : State) : BasketWork s (tickBaskets s) := by
  have honly : Only [.baskets, .lines, .choice] s (tickBaskets s) := (only_tickBaskets (by simp)).2 (Only.refl _ s)
  have hp : (tickBaskets s).prices = s.prices := honly .prices (by simp)
  refine .keeps (fun j => ?_) (by rw [hp]) (by rw [hp]) (honly .nextRef (by simp))
  obtain ⟨l, hl⟩ := tickBaskets_get s j
  rw [hl]
  split <;> cases s.baskets.get j <;> simp [Basket.warnedNow, Basket.key] <;> exact Prod.mk.inj (ticked_key _)

theorem basketWork_secondTick (s : State) : BasketWork s (secondTick s) :=
  .trans (.of_only (bs := [.pay, .sales, .print, .clock]) (by simp) (by simp)) (basketWork_tickBaskets _)

-- ## Seats

theorem reach_keeps {who : Owner} {slot : Byte} {ref : BitVec 16} {x : Reach} (h : s.reach who slot ref = some x) :
    s.keeps x.slot x.basket := keeps_get (basket_get (reach_eq h).2.1).1

theorem basketWork_holdFor (h : s.keeps i b) (c : Screening) (lines : List SeatLine) :
    BasketWork s (holdFor i b c lines s) := by
  obtain ⟨d, hd, e⟩ := h
  exact .put_after (bs := [.screenings]) hd (by simp) (by simp) e

theorem basketWork_releaseFor (h : s.keeps i b) (c : Screening) (xs : List Seat) :
    BasketWork s (releaseFor i b c xs s) := by
  obtain ⟨d, hd, e⟩ := h
  exact .put_after (bs := [.screenings]) hd (by simp) (by simp) e

theorem basketWork_runHoldSeats (who : Owner) (r : Reply) (slot : Byte) (ref : BitVec 16) (ws : List SeatWish) (o : Byte)
    (s : State) : BasketWork s (runHoldSeats who r slot ref ws o s) := by
  unfold runHoldSeats
  split
  · exact (BasketWork.refl s).answer
  · split
    · exact (BasketWork.refl s).answer
    · next x hx =>
      dsimp only
      repeat' split
      any_goals exact (BasketWork.refl s).answer
      exact (basketWork_holdFor (reach_keeps hx) _ _).answer

theorem basketWork_runSearchEnd (q : Search) (s : State) : BasketWork s (runSearchEnd q s) := by
  unfold runSearchEnd
  split
  · exact (BasketWork.refl s).answer
  · next x hx =>
    split
    · exact (BasketWork.refl s).answer
    · dsimp only
      split
      · exact (BasketWork.refl s).answer
      · exact (basketWork_holdFor (reach_keeps hx) _ _).answer

theorem basketWork_runReleaseSeats (who : Owner) (r : Reply) (slot : Byte) (ref : BitVec 16) (xs : List SeatRef)
    (s : State) : BasketWork s (runReleaseSeats who r slot ref xs s) := by
  unfold runReleaseSeats
  dsimp only
  split
  · exact (BasketWork.refl s).answer
  · split
    · exact (BasketWork.refl s).answer
    · next x hx =>
      repeat' split
      any_goals exact (BasketWork.refl s).answer
      exact (basketWork_releaseFor (reach_keeps hx) _ _).answer

theorem basketWork_runSetType (who : Owner) (r : Reply) (slot : Byte) (ref : BitVec 16) (y : SeatRef) (t : Byte)
    (s : State) : BasketWork s (runSetType who r slot ref y t s) := by
  unfold runSetType
  split
  · exact (BasketWork.refl s).answer
  · split
    · exact (BasketWork.refl s).answer
    · next x hx =>
      obtain ⟨c, hc, e⟩ := reach_keeps hx
      dsimp only
      repeat' split
      any_goals exact (BasketWork.refl s).answer
      refine BasketWork.answer (.put hc ?_)
      exact e

-- ## A basket leaves its slot

theorem basketWork_freeSlot (h : s.baskets.get i = some b) : BasketWork s (freeSlot i b s) :=
  (BasketWork.leaves i b h).then_only (bs := [.stations]) (by simp [freeSlot, dropBasket]) (by simp)

theorem basketWork_freeSlot_after {t : State} {bs : List Block} (h : s.baskets.get i = some b) (k : Only bs s t)
    (hb : .baskets ∉ bs ∧ .prices ∉ bs ∧ .nextRef ∉ bs) : BasketWork s (freeSlot i b t) :=
  .trans (.of_only k hb) (basketWork_freeSlot ((congrArg (Tab.get · i) (k .baskets hb.1)).trans h))

theorem basketWork_runReleaseBasket (i : Fin 16) (ref n : Nat) (s : State) :
    BasketWork s (runReleaseBasket i ref n s) := by
  unfold runReleaseBasket
  dsimp only
  split
  · exact .of_only (bs := [.screenings]) (by simp) (by simp)
  · next b hb =>
    unfold basketLeaves
    refine BasketWork.trans ?_ (.of_only (bs := [.lines]) ((only_tellEnd (by simp)).2 (Only.refl _ _)) (by simp))
    exact basketWork_freeSlot_after (bs := [.screenings, .vouchers]) (basket_get hb).1 (by simp) (by simp)

theorem basketWork_completeCommit (h : s.baskets.get i = some b) (c : Commit) :
    BasketWork s (completeCommit i b c s) := by
  have hfree : BasketWork s (freeSlot i b (recordSale b c s)) :=
    basketWork_freeSlot_after (bs := [.sales, .vouchers]) h (by simp) (by simp)
  unfold completeCommit
  dsimp only
  split
  · exact hfree.then_only (bs := [.print, .lines, .choice, .sales]) (by simp) (by simp)
  · exact hfree.then_only (bs := [.print, .lines, .choice, .sales]) (by simp) (by simp)

theorem basketWork_runSellBasket (i : Fin 16) (ref n sale : Nat) (s : State) :
    BasketWork s (runSellBasket i ref n sale s) := by
  unfold runSellBasket
  split
  · next b c hb hc =>
    exact (basketWork_completeCommit
      (s := s.onScreening n (fun k => k.withSeats (Grid.sell k.seats sale (lineSeats b.lines)))) (basket_get hb).1 c).after_eq
      rfl rfl rfl
  · exact .refl s

-- ## Prices

theorem basketWork_prices {p : PriceBook} (ha : p.active = s.prices.active) (hr : p.retained = s.prices.retained) :
    BasketWork s { s with prices := p } := .keeps (fun _ => rfl) (by rw [ha]) (by rw [hr]) rfl

theorem basketWork_attempt (s : State) : BasketWork s { s with prices := s.prices.attempt.1 } := by
  unfold PriceBook.attempt
  split
  · exact .refl s
  · exact .activates _

/-- R83: a request that attempts an activation, or does not. -/
theorem basketWork_ite {c : Prop} [Decidable c] {p q : PriceBook × Option Activation}
    (hp : BasketWork s { s with prices := p.1 }) (hq : BasketWork s { s with prices := q.1 }) :
    BasketWork s { s with prices := (if c then p else q).1 } := by
  by_cases h : c
  · rwa [if_pos h]
  · rwa [if_neg h]

theorem basketWork_minutePrices (v : Nat) (s : State) : BasketWork s (minutePrices v s) := by
  unfold minutePrices
  split
  · split
    · next set _ _ _ _ =>
      exact (BasketWork.activates set).then_only (bs := [.lines]) (by simp) (by simp)
    · exact .refl s
  · exact .refl s

theorem basketWork_minuteCheck (v : Nat) (s : State) : BasketWork s (minuteCheck v s) := by
  have hswept : BasketWork s (minuteSwept v s) := .of_only (bs := [.screenings, .vouchers]) (by simp [minuteSwept]) (by simp)
  rw [minuteCheck_eq]
  refine List.foldlRecOn _ _ (hswept.then_only (bs := [.choice]) (by simp) (by simp)) fun u hu x hx => hu.trans ?_
  rcases List.mem_append.1 (arrangeFrom_subset _ _ _ x hx) with hx | hx
  · obtain ⟨c, -, rfl⟩ := List.mem_map.1 hx
    exact .of_only (bs := [.lines]) (by simp) (by simp)
  · split at hx
    · rw [List.mem_singleton.1 hx]
      exact basketWork_minutePrices v u
    · cases hx

theorem basketWork_moveClock (v : Nat) (s : State) : BasketWork s (moveClock v s) := by
  unfold moveClock
  dsimp only
  split
  · exact .trans (.of_only (bs := [.clock]) (by simp) (by simp)) (basketWork_minuteCheck v _)
  · exact .of_only (bs := [.clock]) (by simp) (by simp)

theorem basketWork_clockSecond (s : State) : BasketWork s (clockSecond s) := by
  unfold clockSecond
  split
  · exact .before (basketWork_moveClock _) rfl rfl rfl
  · exact .refl s

theorem basketWork_align (s : State) : BasketWork s (align s) := by
  unfold align
  dsimp only
  split
  · exact .refl s
  · exact .trans (basketWork_moveClock _ s) (.of_eq rfl rfl rfl)

theorem basketWork_takePulse (s : State) : BasketWork s (takePulse s) := by
  unfold takePulse
  dsimp only
  split
  · exact .refl s
  · split
    · split
      · split
        · exact .before basketWork_align rfl rfl rfl
        · exact .of_eq rfl rfl rfl
      · exact .before (f := fun u => { align u with clock := { (align u).clock with sync := .watch } })
          (fun u => (basketWork_align u).trans (.of_eq rfl rfl rfl)) rfl rfl rfl
      · exact .of_eq rfl rfl rfl
    · exact .of_eq rfl rfl rfl

-- ## The requests

theorem owned_keeps {who : Requester} {slot : Byte} {ref : BitVec 16} {o : Owner} (h : s.owned who slot ref = some (o, i, b)) :
    s.keeps i b := by
  unfold State.owned at h
  split at h
  · split at h
    · cases h
    · next c hc =>
      split at h
      · cases h
        exact keeps_get (basket_get hc).1
      · cases h
  · cases h

theorem basketWork_onOwned {who : Requester} {r : Reply} {slot : Byte} {ref : BitVec 16}
    {f : Owner → Fin 16 → Basket → State → State} (h : ∀ o i b, s.keeps i b → BasketWork s (f o i b s)) :
    BasketWork s (onOwned who r slot ref f s) := by
  unfold onOwned
  split
  · exact (BasketWork.refl s).answer
  · next o i b hb => exact h o i b (owned_keeps hb)

theorem State.keeps.put (h : s.keeps i b) {b' : Basket} (hk : b'.key = b.key) : BasketWork s (s.putBasket i b') := by
  obtain ⟨c, hc, e⟩ := h
  exact .put hc (hk.trans e)

theorem State.keeps.marked (h : s.keeps i b) {b' : Basket} (hk : b'.key = b.key) : s.keeps i b' := by
  obtain ⟨c, hc, e⟩ := h
  exact ⟨c, hc, hk.trans e⟩

theorem basketWork_vouchers (h : s.keeps i b) (lines : List VoucherLine) (k : Fin 8) (p q : Place) (n : Nat) :
    BasketWork s (moveStock k p q n (s.putBasket i { b with vouchers := lines })) :=
  (h.put (b' := { b with vouchers := lines }) rfl).then_only (bs := [.vouchers]) (by simp) (by simp)

theorem basketWork_runOpenBasket (o : Owner) (r : Reply) (n : Nat) (s : State) :
    BasketWork s (runOpenBasket o r n s) := by
  unfold runOpenBasket
  split
  · exact (BasketWork.refl s).answer
  · split
    · exact (BasketWork.refl s).answer
    · split
      · exact (BasketWork.refl s).answer
      · split
        · exact (BasketWork.refl s).answer
        · exact (BasketWork.refl s).answer
        · exact (BasketWork.refl s).answer
        · next k slot _ hk hslot =>
          have hnone : s.baskets.get slot = none := by simpa using List.find?_some hslot
          exact (BasketWork.opens slot (newBasket s.freeRef o n k.generation (s.holdTime o)) k hnone hk rfl rfl).answer

theorem basketWork_closeStation (n : Fin 8) (s : State) : BasketWork s (closeStation n s) := by
  unfold closeStation
  dsimp only
  split
  · exact .of_only (bs := [.stations]) (by simp) (by simp)
  · next i b hb =>
    have hkept : State.keeps (s.onStation n (fun k => { k with state := .closing })) i b :=
      keeps_get ((mem_liveBaskets s i b).1 (List.mem_of_find?_eq_some hb))
    have hends := basketWork_endBasket hkept .stationClosed
    split
    · exact .of_only (bs := [.stations]) (by simp) (by simp)
    · exact hends.after_eq rfl rfl rfl
    · exact hends.after_eq rfl rfl rfl
    · exact .of_only (bs := [.stations]) (by simp) (by simp)

theorem basketWork_startAbort (h : s.keeps i b) (r : Reply) (l : Fin 8) (x : PayRecord) :
    BasketWork s (startAbort i b r l x s) := by
  unfold startAbort
  exact (h.put (b' := { b with waiter := some r }) rfl).then_only (bs := [.pay, .lines]) (by simp) (by simp)

theorem basketWork_startPayment (h : s.keeps i b) (r : Reply) (l : Fin 8) (n : Nat) :
    BasketWork s (startPayment i b r l n s) := by
  obtain ⟨c, hc, e⟩ := h
  unfold startPayment
  dsimp only
  refine BasketWork.trans ?_ (.of_only (bs := [.lines])
    ((only_tellTerminal (by simp)).2 ((only_answer (by simp)).2 (Only.refl _ _))) (by simp))
  refine BasketWork.trans ?_ (.of_only (bs := [.pay]) ((only_onPayLine (by simp)).2 (Only.refl _ _)) (by simp))
  refine BasketWork.trans (.put_after (bs := [.sales]) hc ?_ (by simp) ?_) (.of_eq rfl rfl rfl)
  · simp
  · exact e

theorem basketWork_resolveVoid (h : s.keeps i b) (r : Reply) : BasketWork s (resolveVoid i b r s) := by
  have hdrop : (dropDoubt i b.ref s).keeps i { b with waiter := some r } :=
    (h.marked rfl).only (bs := [.pay]) (by simp) (by simp)
  exact (basketWork_endBasket hdrop _).after_eq rfl rfl rfl

theorem basketWork_resolveSold (h : s.keeps i b) (d : Doubt) (r : Reply) (code : List Byte) :
    BasketWork s (resolveSold i b d r code s) := by
  unfold resolveSold
  split
  · exact (BasketWork.refl s).answer
  · split
    · exact (BasketWork.refl s).answer
    · have hkept : State.keeps (reserve (quantityOf b.vouchers) (dropDoubt i b.ref s)) i
          { b with reserved := true, waiter := some r } := (h.marked rfl).only (bs := [.pay, .sales]) (by simp) (by simp)
      exact .trans (.of_only (bs := [.pay, .sales]) (by simp) (by simp)) (basketWork_beginCommit hkept _ _)

/-- A property of the baskets, the banks and the counter that is kept by the work on them. -/
theorem lasting_basketWork {D : List Block} {P : State → Prop} (hD : ∀ b ∈ D, b = .baskets ∨ b = .prices ∨ b = .nextRef)
    (hP : ∀ s t, BasketWork s t → P s → P t) (hreset : P State.reset) (hreads : Reads D P) : Lasting D P where
  reads := hreads
  apart b hb := by rcases hD b hb with rfl | rfl | rfl <;> simp
  reset := hreset
  events e s _ hs := hP _ _ (basketWork_carryOut e s) hs

/-- Every command does to the baskets, the banks and the counter what `BasketWork` says. -/
theorem exec_basketWork {D : List Block} {P : State → Prop} (k : Lasting D P)
    (hD : ∀ b ∈ D, b = .baskets ∨ b = .prices ∨ b = .nextRef) (hP : ∀ s t, BasketWork s t → P s → P t) {i : Instr}
    {s t : State} (h : exec i s = .next t) (hs : P s) : P t := by
  have ho : Block.outstanding ∉ D := fun hm => by simpa using hD _ hm
  have he : Block.engine ∉ D := fun hm => by simpa using hD _ hm
  have entry : ∀ {run : Entry → Option (State → State)}, (∀ x f, run x = some f → ∀ u, BasketWork u (f u)) →
      command (arbitrate run) s = .next t → P t := fun hrun h =>
    k.command h (fun u => k.arbitrate he fun x f hf w => hP w _ (hrun x f hf w)) hs
  have owned : ∀ {i : Instr} {src : Link} {tag kind slot : Byte} {ok : Bool} {ref : BitVec 16}
      {f : Requester → Reply → Owner → Fin 16 → Basket → State → State},
      (∀ who r o j b (u : State), u.keeps j b → BasketWork u (f who r o j b u)) →
      request i src tag kind ok (fun who r => onOwned who r slot ref (f who r)) s = .next t → P t := fun hf h =>
    k.request ho h (fun who r u hu => hP _ _ (basketWork_onOwned fun o j b hb => hf who r o j b u hb) hu) hs
  cases i
  case secondTick => exact k.command h (fun u => hP u _ (basketWork_secondTick u)) hs
  case clockSecond => exact k.command h (fun u => hP u _ (basketWork_clockSecond u)) hs
  case minutePulse => exact k.command h (fun u => hP u _ (basketWork_takePulse u)) hs
  case holdCountdownExpiry => exact k.event h (hP _ _ (basketWork_expireHold _ s)) hs
  case acceptWaitExpiry => exact k.event h (hP _ _ (basketWork_expireAccept _ s)) hs
  case authorizationWaitExpiry => exact k.event h (hP _ _ (basketWork_expireAuthorization _ s)) hs
  case reversalIntervalExpiry => exact k.event h (hP _ _ (basketWork_expireInterval _ s)) hs
  case setTime =>
    refine k.request ho h (fun who r u hu => ?_) hs
    split
    · exact k.answer hu
    · split
      · exact k.answer hu
      · exact k.answer (hP u _ (basketWork_moveClock _ u) hu)
  case openBasket =>
    refine k.request ho h (fun who r u hu => ?_) hs
    split
    · exact k.answer hu
    · exact hP u _ (basketWork_runOpenBasket _ _ _ u) hu
  case addVoucher =>
    refine owned (fun who r o j b u hb => ?_) h
    dsimp only
    repeat' split
    any_goals exact (BasketWork.refl u).answer
    exact (basketWork_vouchers hb _ _ _ _ _).answer
  case dropVoucher =>
    refine owned (fun who r o j b u hb => ?_) h
    dsimp only
    repeat' split
    any_goals exact (BasketWork.refl u).answer
    exact (basketWork_vouchers hb _ _ _ _ _).answer
  case tally =>
    refine owned (fun who r o j b u hb => ?_) h
    repeat' split
    any_goals exact (BasketWork.refl u).answer
    next t _ => exact (hb.put (b' := b.tallied t) rfl).answer
  case reopen =>
    refine owned (fun who r o j b u hb => ?_) h
    split
    · exact (BasketWork.refl u).answer
    · exact (hb.put (b' := b.reopened) rfl).answer
    · exact (BasketWork.refl u).answer
  case extend =>
    refine owned (fun who r o j b u hb => ?_) h
    dsimp only
    repeat' split
    any_goals exact (BasketWork.refl u).answer
    exact (hb.put (b' := b.extended u.params.extension u.params.warningLead) rfl).answer
  case cancel =>
    refine owned (fun who r o j b u hb => ?_) h
    repeat' split
    any_goals exact (BasketWork.refl u).answer
    · exact basketWork_endBasket (hb.marked (b' := { b with waiter := some r }) rfl) _
    · exact basketWork_endBasket (hb.marked (b' := { b with waiter := some r }) rfl) _
    · exact basketWork_startAbort hb _ _ _
  case pay =>
    refine owned (fun who r o j b u hb => ?_) h
    repeat' split
    any_goals exact (BasketWork.refl u).answer
    exact basketWork_startPayment hb _ _ _
  case settle =>
    refine k.request ho h (fun who r u hu => ?_) hs
    split
    · exact k.answer hu
    · refine hP u _ (basketWork_onOwned fun o j b hb => ?_) hu
      repeat' split
      any_goals exact (BasketWork.refl u).answer
      have hkept : State.keeps (reserve (quantityOf b.vouchers) u) j { b with reserved := true, waiter := some r } :=
        (hb.marked rfl).only (bs := [.sales]) (by simp) (by simp)
      exact .trans (.of_only (bs := [.sales]) (by simp) (by simp)) (basketWork_beginCommit hkept _ _)
  case resolve =>
    refine k.request ho h (fun who r u hu => hP u _ ?_ hu) hs
    split
    · exact (BasketWork.refl u).answer
    · split
      · exact (BasketWork.refl u).answer
      · next j b hb =>
        have hkept : u.keeps j b := by
          obtain ⟨x, -, hx⟩ := Option.bind_eq_some_iff.1 hb
          obtain ⟨c, hc, e⟩ := Option.map_eq_some_iff.1 hx
          cases e
          exact keeps_get (basket_get hc).1
        repeat' split
        any_goals exact (BasketWork.refl u).answer
        · exact basketWork_resolveVoid hkept r
        · exact basketWork_resolveSold hkept _ r _
  case approved =>
    refine k.message (exec_approved _ _ _ _ s ▸ h) (fun u => hP u _ ?_) hs
    have hstray : ∀ l, BasketWork u (countStray l u) := fun l => .of_only (bs := [.pay]) (by simp) (by simp)
    repeat' split
    · exact hstray _
    · exact hstray _
    · exact basketWork_lateApproval ..
    · exact basketWork_onNamed fun r => basketWork_takeApproved ..
  case declined =>
    refine k.message (exec_declined _ _ _ s ▸ h) (fun u => hP u _ ?_) hs
    split
    · exact .of_only (bs := [.pay]) (by simp) (by simp)
    · refine basketWork_onNamed fun r => ?_
      split
      · exact basketWork_declineRecord ..
      · exact basketWork_declineRecord ..
      · exact basketWork_abortAnswered ..
      · exact .refl u
  case aborted =>
    refine k.message h (fun u => hP u _ (basketWork_onNamed fun r => ?_)) hs
    split
    · exact basketWork_declineRecord ..
    · exact basketWork_declineRecord ..
    · exact basketWork_abortAnswered ..
    · exact .refl u
  case reversed =>
    refine k.message (exec_reversed _ _ s ▸ h) (fun u => hP u _ ?_) hs
    split
    · exact basketWork_confirmReversal ..
    · split
      · exact .refl u
      · exact .of_only (bs := [.pay]) (by simp) (by simp)
  case stagePrices =>
    refine k.request ho h (fun who r u hu => ?_) hs
    split
    · exact k.answer hu
    · next p _ =>
      split
      · exact k.answer hu
      · split
        · exact k.answer hu
        · have hstored : BasketWork u { u with prices := { u.prices with staged := u.prices.staged.store p } } :=
            basketWork_prices rfl rfl
          exact k.answer (hP u _ (basketWork_ite (hstored.trans (basketWork_attempt _)) hstored) hu)
  case setApplyMode =>
    refine k.request ho h (fun who r u hu => ?_) hs
    split
    · exact k.answer hu
    · next m _ =>
      split
      · exact k.answer hu
      · have hset : BasketWork u { u with prices := { u.prices with mode := m } } := basketWork_prices rfl rfl
        exact k.answer (hP u _ (basketWork_ite (hset.trans (basketWork_attempt _)) hset) hu)
  case applyPrices =>
    refine k.request ho h (fun who r u hu => ?_) hs
    have hattempt : ∀ {b x}, u.prices.attempt = (b, x) → BasketWork u { u with prices := b } := fun {b x} e => by
      have hb : u.prices.attempt.1 = b := by rw [e]
      exact hb ▸ basketWork_attempt u
    split
    · exact k.answer hu
    · split
      · next e => exact k.answer (hP u _ (hattempt e) hu)
      · next e => exact k.answer (hP u _ (hattempt e) hu)
    · exact k.answer hu
  case clearStaged => exact k.request ho h (fun who r u hu => k.answer (hP u _ (basketWork_prices rfl rfl) hu)) hs
  case holdSeats => exact entry (fun x f hf u => by split at hf <;> cases hf; exact basketWork_runHoldSeats ..) h
  case bestBlockSearchEnd =>
    refine k.command (exec_bestBlockSearchEnd s ▸ h) (fun u hu => ?_) hs
    split
    · exact hu
    · exact hP u _ (.before (basketWork_runSearchEnd _) rfl rfl rfl) hu
  case releaseSeats => exact entry (fun x f hf u => by split at hf <;> cases hf; exact basketWork_runReleaseSeats ..) h
  case setType => exact entry (fun x f hf u => by split at hf <;> cases hf; exact basketWork_runSetType ..) h
  case releaseBasket => exact entry (fun x f hf u => by split at hf <;> cases hf; exact basketWork_runReleaseBasket ..) h
  case sellBasket => exact entry (fun x f hf u => by split at hf <;> cases hf; exact basketWork_runSellBasket ..) h
  case closeStation =>
    refine k.request ho h (fun who r u hu => hP u _ ?_ hu) hs
    unfold onNamedStation
    dsimp only
    repeat' split
    any_goals exact (BasketWork.refl u).answer
    exact BasketWork.answer (basketWork_closeStation _ u)
  all_goals exact k.exec_apart ho (fun b hb => by
    rcases hD b hb with rfl | rfl | rfl <;> unfold touches <;> simp) h hs

theorem lasting_bankLaw : Lasting [.baskets, .prices] BankLaw :=
  lasting_basketWork (by simp) (fun _ _ => BankLaw.basketWork)
    (by simp [BankLaw, State.reset, State.liveBaskets, PriceBook.reset]) fun s t h hs => by
      have hb : t.baskets = s.baskets := h .baskets (by simp)
      have hp : t.prices = s.prices := h .prices (by simp)
      rw [bankLaw_iff] at hs ⊢
      rwa [hp, liveOf_congr (s := s) (fun i => by rw [hb])]

/-- Every step keeps the banks' counts. -/
theorem bankLaw_step {s t : State} (hs : BankLaw s) (h : step s = .next t) : BankLaw t :=
  lasting_bankLaw.step (lasting_bankLaw.idle (by simp))
    (fun _ _ _ => exec_basketWork lasting_bankLaw (by simp) fun _ _ => BankLaw.basketWork) hs h

theorem lasting_refLaw : Lasting [.baskets, .nextRef] RefLaw :=
  lasting_basketWork (by simp) (fun _ _ => RefLaw.basketWork) (by simp [RefLaw, State.reset, within]) fun s t h hs =>
    hs.of_refs ((show t.nextBasketRef = s.nextBasketRef from h .nextRef (by simp)) ▸ hs.1) fun i b hb =>
      ⟨b, (show t.baskets = s.baskets from h .baskets (by simp)) ▸ hb, rfl⟩

/-- Settles O12, by the kinds of change that a command makes to the baskets (`BasketWork`): a ref is that of a new basket
alone, and a new basket's is free (`freeRef_free`). -/
theorem refLawKept : Obligations.RefLawKept := by
  unfold Obligations.RefLawKept
  exact fun s t hs h => lasting_refLaw.step (lasting_refLaw.idle (by simp))
    (fun _ _ _ => exec_basketWork lasting_refLaw (by simp) fun _ _ => RefLaw.basketWork) hs h

/-- Settles O13: the banks' counts, the pool's elements and the pay lines' records each by the kinds of change that a
command makes to them. -/
theorem banksPoolAndPayLinesKept : Obligations.BanksPoolAndPayLinesKept := by
  unfold Obligations.BanksPoolAndPayLinesKept
  exact ⟨fun _ _ => bankLaw_step, fun _ _ => poolLaw_step, fun _ _ => payLaw_step, fun _ => poolLaw_count⟩

end Sys2Proof.Machine
end

section
/-! PROOFS. The alarm law (R171), the sizes of the tables and queues (R7, R103, R141, R142, R163), the stock law (R135)
and the law of the station map (R165): every step keeps them. -/

namespace Sys2Proof.Machine

-- ## The alarm law (R171)

/-- Whatever a command does, the alarms are latched after it. -/
theorem exec_latched (i : Instr) (s : State) : ∃ u, exec i s = .next (latchAlarms u) := by
  cases exec_form i with
  | reset eq =>
    rcases eq s with e | ⟨c, e⟩
    · exact ⟨_, e⟩
    · exact ⟨_, e⟩
  | event f eq only => exact ⟨_, eq s⟩
  | command f eq only => exact ⟨_, eq s⟩
  | request src tag kind ok run eq only => exact ⟨_, eq s⟩

theorem alarmLaw_latch (s : State) : AlarmLaw (latchAlarms s) := fun i h => by
  rw [latchAlarms_latched, ← latchAlarms_condition, h, Bool.or_true]

/-- The idle millisecond changes F alone, which no condition reads. -/
theorem idle_condition (s : State) (i : Fin 10) : (idle s).condition i = s.condition i := by
  have h : (idle s).conditions = s.conditions := by
    unfold idle
    split <;> rfl
  rw [State.condition, h, State.condition]

/-- Settles O7: the alarms are latched last, and an idle millisecond changes no condition. -/
theorem alarmLawKept : Obligations.AlarmLawKept := by
  unfold Obligations.AlarmLawKept
  intro s t hs h
  unfold step at h
  split at h
  · cases h
    intro i hi
    have hl : (idle s).alarms = s.alarms := by
      unfold idle
      split <;> rfl
    rw [hl]
    exact hs i (idle_condition s i ▸ hi)
  · obtain ⟨u, hu⟩ := exec_latched _ _
    cases hu.symm.trans h
    exact alarmLaw_latch u

-- ## The screening table (R7)

/-- R7: the screening table's size. -/
def ScreeningSize (s : State) : Prop := s.screenings.length ≤ 32

theorem ScreeningSize.rescreens {s t : State} (h : Rescreens s t) (hs : ScreeningSize s) : ScreeningSize t := by
  unfold ScreeningSize at *
  cases h with
  | marks f hf e hp => simpa [e] using hs
  | reseats c hc g hg e hp => simpa [e, State.putSeats, State.onScreening] using hs
  | sweeps n F hF e hp => simpa [e, State.onScreening] using hs

theorem lasting_screeningSize : Lasting [.screenings] ScreeningSize where
  reads s t h hs := by
    have e : t.screenings = s.screenings := h .screenings (by simp)
    rwa [ScreeningSize, e]
  apart := by simp
  reset := Nat.zero_le _
  events e s h hs := by
    obtain ⟨b, hb, he⟩ := h
    exfalso
    revert b
    cases e <;> simp [Event.touches]

theorem screeningSize_exec {i : Instr} {s t : State} (h : exec i s = .next t) (hs : ScreeningSize s) :
    ScreeningSize t := by
  have k := lasting_screeningSize
  have others := exec_rescreens k (by simp) (fun _ _ => ScreeningSize.rescreens) (i := i) (s := s) (t := t)
  cases i
  case loadScreening src tag f =>
    refine k.request (by simp) h (fun who r u hu => ?_) hs
    split
    · exact k.answer hu
    · split
      · exact k.answer hu
      · split
        · exact k.answer hu
        · split
          · split
            · exact k.answer hu
            · split
              · exact k.answer hu
              · next hfull =>
                refine k.answer ?_
                simp only [Config.maxScreenings, not_le] at hfull
                simpa [ScreeningSize, Nat.succ_le_iff] using hfull
          · exact k.answer hu
          · exact k.answer hu
  case archive src tag n =>
    refine k.request (by simp) h (fun who r u hu => ?_) hs
    dsimp only
    split
    · exact k.answer hu
    · split
      · exact k.answer hu
      · split
        · exact k.answer hu
        · split
          · exact k.answer hu
          · refine k.answer ?_
            have hv : ScreeningSize (removeVouchers n.toNat (lapseScreening n.toNat u)) :=
              k.keeps (fp := [.vouchers]) (by simp [removeVouchers]) (by simp) hu
            exact (List.length_filter_le _ _).trans hv
  all_goals exact others (by simp) (by simp) (by simp) h hs

-- ## The office's outstanding requests (R163)

/-- R163: how many requests of the office are outstanding at most. -/
def OfficeSize (s : State) : Prop := s.ifc.office.length ≤ 4

theorem lasting_officeSize : Lasting [.outstanding] OfficeSize where
  reads s t h hs := by
    obtain ⟨-, -, e⟩ := h .outstanding (by simp)
    rwa [OfficeSize, e]
  apart := by simp
  reset := Nat.zero_le _
  events e s h hs := by
    obtain ⟨b, hb, he⟩ := h
    exfalso
    revert b
    cases e <;> simp [Event.touches, outcomeBlocks]

/-- R163: a request of the office is admitted only where there is room for it. -/
theorem OfficeSize.outstand {s : State} (hs : OfficeSize s) {src : Link} {tag kind : Byte} {sized : Bool}
    {who : Requester} (ha : s.admission src tag kind sized = .admitted who) (o : Outstanding) :
    OfficeSize (s.outstand src o) := by
  cases src with
  | kiosk n => exact hs
  | concession n => exact hs
  | office =>
    have hroom : s.ifc.office.length < 4 := by
      simp only [State.admission] at ha
      split at ha
      · cases ha
      · split at ha
        · cases ha
        · split at ha
          · cases ha
          · next h => simpa [Config.maxOfficeRequests] using h
    simpa [OfficeSize, State.outstand] using hroom

theorem officeSize_closeRequest (l : Line) (f : Frame) {s : State} (hs : OfficeSize s) :
    OfficeSize (closeRequest l f s) := by
  unfold closeRequest
  split
  · exact hs
  · exact hs
  · refine Nat.le_trans ?_ hs
    exact List.length_filter_le _ _
  · exact hs

theorem officeSize_exec {i : Instr} {s t : State} (h : exec i s = .next t) (hs : OfficeSize s) : OfficeSize t := by
  have k := lasting_officeSize
  by_cases hi : .outstanding ∈ touches i
  · cases i <;> simp only [touches, List.mem_cons, List.not_mem_nil, reduceCtorEq, or_false, or_self] at hi
    case frameSent l =>
      refine k.command (exec_frameSent l s ▸ h) (fun u hu => ?_) hs
      split
      · exact hu
      · split
        · exact officeSize_closeRequest _ _ hu
        · exact hu
  · have hfp : ∀ b ∈ [Block.outstanding], b ∉ Block.lines :: touches i := by simpa using hi
    cases exec_form i with
    | reset eq =>
      rcases eq s with e | ⟨c, e⟩
      · exact k.event (e ▸ h) id hs
      · exact k.event (e ▸ h) (fun _ => k.resetPart c s) hs
    | event f eq only => exact k.event (eq s ▸ h) (k.keeps (only s) hfp) hs
    | command f eq only => exact k.command (eq s ▸ h) (fun u => k.keeps (only u) hfp) hs
    | request src tag kind ok run eq only =>
      refine k.command (eq s ▸ h) (fun u hu => ?_) hs
      unfold hear
      split
      · exact k.send (k.takeMessage _ _ hu)
      · next ha =>
        have hout := (k.takeMessage src.line i hu).outstand ha ⟨kind, tag⟩
        dsimp only
        split
        · exact k.keeps (only _ _ _) hfp hout
        · exact k.answer hout

/-- The tables and queues keep within their sizes, each by the law of its own piece. -/
theorem capacityLaw_step {s t : State} (hs : CapacityLaw s) (h : step s = .next t) : CapacityLaw t := by
  obtain ⟨hscreenings, hoffice, hwaiting, hjobs, hreversals⟩ := hs
  have hprint : PrintSizes t := printSizes_step ⟨hwaiting, hjobs⟩ h
  exact ⟨lasting_screeningSize.step (lasting_screeningSize.idle (by simp)) (fun _ _ _ => screeningSize_exec) hscreenings h,
    lasting_officeSize.step (lasting_officeSize.idle (by simp)) (fun _ _ _ => officeSize_exec) hoffice h,
    hprint.1, hprint.2, paySizes_step hreversals h⟩

/-- Settles O6, by the laws of the clock, of the parameters and of the sizes. -/
theorem rangesAndSizesKept : Obligations.RangesAndSizesKept := by
  unfold Obligations.RangesAndSizesKept
  exact ⟨fun _ _ => clockLaw_step, fun _ _ => paramsLaw_step, fun _ _ => capacityLaw_step⟩

end Sys2Proof.Machine
end

section
/-! PROOFS. The stock law (R135): every step keeps it. -/

namespace Sys2Proof.Machine

/-- R135: the four counts of a kind sum to its allotment. -/
def Stock.balanced (k : Stock) : Prop := k.available + k.inBaskets + k.outstanding + k.taken = k.allotment

theorem Stock.balanced_move {k : Stock} (h : k.balanced) (p q : Place) (n : Nat) : (Stock.move p q n k).balanced := by
  rw [Stock.balanced, Stock.move_sum, Stock.move_allotment]
  exact h

theorem Stock.balanced_setAllotment {k : Stock} (h : k.balanced) (n : Nat) : (k.setAllotment n).balanced := by
  unfold Stock.balanced at *
  simp only [Stock.setAllotment]
  omega

theorem Stock.balanced_clearTaken {k : Stock} (h : k.balanced) : k.clearTaken.balanced := by
  unfold Stock.balanced at *
  simp only [Stock.clearTaken]
  omega

theorem stockLaw_iff (s : State) : StockLaw s ↔ ∀ k, (s.vouchers.stock.get k).balanced := Iff.rfl

/-- Where the counts of a kind are balanced, they stay so. -/
structure Balances (s t : State) : Prop where
  keeps : ∀ k, (s.vouchers.stock.get k).balanced → (t.vouchers.stock.get k).balanced

namespace Balances

variable {s t u : State}

theorem of_stock (h : t.vouchers.stock = s.vouchers.stock) : Balances s t := ⟨fun k hk => by rwa [h]⟩

theorem refl (s : State) : Balances s s := of_stock rfl

theorem trans (h : Balances s t) (k : Balances t u) : Balances s u := ⟨fun i hi => k.keeps i (h.keeps i hi)⟩

theorem of_only {bs : List Block} (h : Only bs s t) (hb : .vouchers ∉ bs) : Balances s t :=
  of_stock (congrArg VoucherTable.stock (h .vouchers hb))

theorem then_only {bs : List Block} (h : Balances s t) (k : Only bs t u) (hb : .vouchers ∉ bs) : Balances s u :=
  h.trans (of_only k hb)

theorem answer {r : Reply} {res : Result} {fs : List Byte} (h : Balances s t) : Balances s (answer r res fs t) :=
  h.then_only (bs := [.lines]) (by simp) (by simp)

theorem before {f : State → State} (hf : ∀ u, Balances u (f u)) (h : t.vouchers = s.vouchers) : Balances s (f t) :=
  (of_stock (by rw [h])).trans (hf t)

theorem foldl {α : Type} {f : State → α → State} (hf : ∀ u a, Balances u (f u a)) (xs : List α) (s : State) :
    Balances s (xs.foldl f s) :=
  List.foldlRecOn (motive := Balances s) xs f (refl s) fun _ h a _ => h.trans (hf _ a)

end Balances

-- ## What moves stock

theorem balances_onStock {k : Fin 8} {f : Stock → Stock} {s : State}
    (hf : (s.vouchers.stock.get k).balanced → (f (s.vouchers.stock.get k)).balanced) : Balances s (s.onStock k f) := by
  refine ⟨fun j hj => ?_⟩
  simp only [State.onStock, Tab.modify, Tab.get_set]
  split
  · next e =>
    subst e
    exact hf hj
  · exact hj

theorem balances_moveStock (k : Fin 8) (p q : Place) (n : Nat) (s : State) : Balances s (moveStock k p q n s) :=
  balances_onStock fun h => Stock.balanced_move h p q n

theorem Balances.moved {s t : State} (h : Balances s t) (k : Fin 8) (p q : Place) (n : Nat) :
    Balances s (moveStock k p q n t) := h.trans (balances_moveStock k p q n t)

theorem balances_moveEach (p q : Place) (vs : List Voucher) (s : State) : Balances s (moveEach p q vs s) := by
  unfold moveEach
  exact Balances.foldl (fun u v => balances_moveStock v.kind p q 1 u) vs s

theorem balances_mapVouchers (f : Voucher → Voucher) (s : State) : Balances s (s.mapVouchers f) := .of_stock rfl

theorem balances_settleVouchers (p : Voucher → Bool) (st : VoucherState) (q : Place) (s : State) :
    Balances s (settleVouchers p st q s) := by
  unfold settleVouchers
  exact (balances_mapVouchers _ s).trans (balances_moveEach _ _ _ _)

theorem balances_returnVouchers (n : Nat) (s : State) : Balances s (returnVouchers n s) :=
  (balances_settleVouchers _ _ _ s).trans (balances_mapVouchers _ _)

/-- The voucher records and the serial written anew, no stock moving. -/
theorem balances_records (rs : List Voucher) (n : Nat) (s : State) :
    Balances s { s with vouchers := { s.vouchers with records := rs, serial := n } } := .of_stock rfl

theorem balances_issueVouchers (n m : Nat) (us : List (Fin 8 × Nat)) (s : State) :
    Balances s (issueVouchers n m us s).2 := by
  unfold issueVouchers
  exact (balances_records _ _ s).trans (balances_moveEach _ _ _ _)

theorem balances_restoreVouchers (vs : List Voucher) (s : State) : Balances s (restoreVouchers vs s) := by
  unfold restoreVouchers
  refine (balances_records _ s.vouchers.serial s).trans (Balances.foldl (fun u v => ?_) vs _)
  split
  · exact balances_moveStock _ _ _ _ _
  · exact balances_moveStock _ _ _ _ _
  · exact .refl u

theorem balances_returnStock (vs : List VoucherLine) (s : State) : Balances s (returnStock vs s) := by
  unfold returnStock
  exact Balances.foldl (fun u v => balances_moveStock v.kind _ _ v.quantity u) vs s

-- ## What the commands do to it

theorem balances_endQuote (n : Nat) (s : State) : Balances s (endQuote n s) :=
  .trans (.of_only (bs := [.sales]) (by simp) (by simp)) (balances_returnVouchers _ _)

theorem balances_suspended (n : Nat) (f : Sale → Sale) (s : State) :
    Balances s (suspendVouchers n (s.onSale n f)) :=
  .trans (.of_only (bs := [.sales]) ((only_onSale (by simp)).2 (Only.refl _ s)) (by simp)) (balances_mapVouchers _ _)

theorem balances_expireSaleQuote (n : Nat) (s : State) : Balances s (expireSaleQuote n s) := by
  unfold expireSaleQuote
  split
  · exact .refl s
  · split
    · next k _ _ => exact (balances_endQuote k.number s).then_only (bs := [.lines]) (by simp [expireQuote]) (by simp)
    · exact .refl s

theorem balances_minuteCheck (v : Nat) (s : State) : Balances s (minuteCheck v s) := by
  have hswept : Balances s (minuteSwept v s) :=
    .trans (.of_only (bs := [.screenings]) (by simp) (by simp)) (balances_settleVouchers _ _ _ _)
  exact hswept.then_only (minuteCheck_only v s) (by simp)

theorem balances_moveClock (v : Nat) (s : State) : Balances s (moveClock v s) := by
  unfold moveClock
  dsimp only
  split
  · exact .trans (.of_only (bs := [.clock]) (by simp) (by simp)) (balances_minuteCheck v _)
  · exact .of_only (bs := [.clock]) (by simp) (by simp)

theorem balances_clockSecond (s : State) : Balances s (clockSecond s) := by
  unfold clockSecond
  split
  · exact .before (balances_moveClock _) rfl
  · exact .refl s

theorem balances_align (s : State) : Balances s (align s) := by
  unfold align
  dsimp only
  split
  · exact .refl s
  · exact .trans (balances_moveClock _ s) (.of_stock rfl)

theorem balances_takePulse (s : State) : Balances s (takePulse s) := by
  unfold takePulse
  dsimp only
  split
  · exact .refl s
  · split
    · split
      · split
        · exact .before balances_align rfl
        · exact .of_stock rfl
      · exact .before (f := fun u => { align u with clock := { (align u).clock with sync := .watch } })
          (fun u => (balances_align u).trans (.of_stock rfl)) rfl
      · exact .of_stock rfl
    · exact .of_stock rfl

theorem balances_archiveScreening (n : Nat) (s : State) : Balances s (archiveScreening n s) :=
  .trans (balances_settleVouchers _ _ _ s) (.of_stock rfl)

theorem balances_runReleaseBasket (i : Fin 16) (ref n : Nat) (s : State) :
    Balances s (runReleaseBasket i ref n s) := by
  unfold runReleaseBasket
  dsimp only
  split
  · exact .of_only (bs := [.screenings]) (by simp) (by simp)
  · next b _ =>
    refine .trans (t := s.onScreening n (fun c => c.withSeats (Grid.freeHeld c.seats i.val ref)))
      (.of_only (bs := [.screenings]) (by simp) (by simp)) ?_
    unfold basketLeaves
    exact (balances_returnStock b.vouchers _).then_only (bs := [.lines, .baskets, .prices, .stations]) (by simp) (by simp)

theorem balances_recordSale (b : Basket) (c : Commit) (s : State) : Balances s (recordSale b c s) := by
  unfold recordSale
  dsimp only
  refine .trans ?_ (.then_only (balances_issueVouchers _ _ _ _) (bs := [.sales]) ((only_onSale (by simp)).2 (Only.refl _ _)) (by simp))
  exact .of_only (bs := [.sales]) (by simp) (by simp)

theorem balances_completeCommit (i : Fin 16) (b : Basket) (c : Commit) (s : State) :
    Balances s (completeCommit i b c s) := by
  have hfree : Balances s (freeSlot i b (recordSale b c s)) :=
    (balances_recordSale b c s).then_only (bs := [.baskets, .prices, .lines, .stations]) (by simp) (by simp)
  unfold completeCommit
  dsimp only
  split
  · exact hfree.then_only (bs := [.print, .lines, .choice, .sales]) (by simp) (by simp)
  · exact hfree.then_only (bs := [.print, .lines, .choice, .sales]) (by simp) (by simp)

theorem balances_runSellBasket (i : Fin 16) (ref n sale : Nat) (s : State) :
    Balances s (runSellBasket i ref n sale s) := by
  unfold runSellBasket
  split
  · exact .trans (.of_only (bs := [.screenings]) (by simp) (by simp)) (balances_completeCommit _ _ _ _)
  · exact .refl s

theorem balances_completeRefund (r : Sale) (q : Quote) (s : State) : Balances s (completeRefund r q s) := by
  have hvoid : ∀ u, Balances u (voidVouchers r.number u) := fun u => balances_settleVouchers _ _ _ u
  unfold completeRefund
  dsimp only
  have hvoided : Balances s (voidVouchers r.number
      (s.onSale r.number (fun r => { r with state := .refunded, quote := none }))) :=
    .trans (.of_only (bs := [.sales]) ((only_onSale (by simp)).2 (Only.refl _ _)) (by simp)) (hvoid _)
  split
  · exact hvoided.then_only (bs := [.lines]) (by simp) (by simp)
  · exact hvoided.then_only (bs := [.lines]) (by simp) (by simp)

theorem balances_runFreeSale (n sale : Nat) (s : State) : Balances s (runFreeSale n sale s) := by
  have hfreed : Balances s (s.onScreening n (fun k => k.withSeats (Grid.freeSold k.seats sale))) :=
    .of_only (bs := [.screenings]) (by simp) (by simp)
  unfold runFreeSale
  dsimp only
  split
  · exact hfreed
  · split
    · exact hfreed
    · exact hfreed.trans (balances_completeRefund _ _ _)

theorem balances_runRestore (r : Reply) (f : SaleFields) (s : State) : Balances s (runRestore r f s) := by
  unfold runRestore
  split
  · exact (Balances.refl s).answer
  · split
    · exact (Balances.refl s).answer
    · dsimp only
      repeat' split
      any_goals exact (Balances.refl s).answer
      exact .answer (.trans (.of_only (bs := [.screenings, .sales]) ((only_sales (by simp)).2 (by simp)) (by simp))
        (balances_restoreVouchers _ _))

theorem balances_onVoucher {code : BitVec 40} {r : Reply} {f : Voucher → State → State} {s : State}
    (h : ∀ v, Balances s (f v s)) : Balances s (onVoucher code r f s) := by
  unfold onVoucher
  split
  · exact (Balances.refl s).answer
  · split
    · exact (Balances.refl s).answer
    · split
      · exact (Balances.refl s).answer
      · exact h _

theorem balances_runRedeem (who : Requester) (r : Reply) (v : Voucher) (s : State) :
    Balances s (runRedeem who r v s) := by
  unfold runRedeem
  dsimp only
  split
  · exact (Balances.refl s).answer
  · exact (Balances.refl s).answer
  · exact (Balances.refl s).answer
  · exact (Balances.refl s).answer
  · split
    · exact (Balances.refl s).answer
    · exact ((balances_mapVouchers _ s).moved _ _ _ _).answer

theorem balances_basketStock (i : Fin 16) (b : Basket) (k : Fin 8) (p q : Place) (n : Nat) (s : State) :
    Balances s (moveStock k p q n (s.putBasket i b)) :=
  Balances.moved (.of_only (bs := [.baskets]) (by simp) (by simp)) k p q n

theorem balances_onOwned {who : Requester} {r : Reply} {slot : Byte} {ref : BitVec 16}
    {f : Owner → Fin 16 → Basket → State → State} {s : State} (h : ∀ o i b, Balances s (f o i b s)) :
    Balances s (onOwned who r slot ref f s) := by
  unfold onOwned
  repeat' split
  any_goals exact (Balances.refl s).answer
  exact h _ _ _

theorem lasting_stockLaw : Lasting [.vouchers] StockLaw where
  reads s t h hs := by
    have e : t.vouchers = s.vouchers := h .vouchers (by simp)
    rwa [stockLaw_iff, e]
  apart := by simp
  reset := by simp [stockLaw_iff, State.reset, VoucherTable.reset, Stock.balanced]
  events e s h hs := by
    cases e
    case quote n => exact fun k => (balances_expireSaleQuote n s).keeps k (hs k)
    all_goals simp [Event.touches, outcomeBlocks] at h

theorem stockLaw_exec {i : Instr} {s t : State} (h : exec i s = .next t) (hs : StockLaw s) : StockLaw t := by
  have k := lasting_stockLaw
  have hP : ∀ s t, Balances s t → StockLaw s → StockLaw t := fun _ _ hb hs k => hb.keeps k (hs k)
  have entry : ∀ {run : Entry → Option (State → State)}, (∀ x f, run x = some f → ∀ u, Balances u (f u)) →
      command (arbitrate run) s = .next t → StockLaw t := fun hrun h =>
    k.command h (fun u => k.arbitrate (by simp) fun x f hf w => hP w _ (hrun x f hf w)) hs
  have heard : ∀ {i : Instr} {src : Link} {tag kind : Byte} {ok : Bool} {run : Requester → Reply → State → State},
      (∀ who r u, Balances u (run who r u)) → request i src tag kind ok run s = .next t → StockLaw t := fun hrun h =>
    k.request (by simp) h (fun who r u => hP u _ (hrun who r u)) hs
  cases i
  case clockSecond => exact k.command h (fun u => hP u _ (balances_clockSecond u)) hs
  case minutePulse => exact k.command h (fun u => hP u _ (balances_takePulse u)) hs
  case refundQuoteExpiry n => exact k.event h (hP _ _ (balances_expireSaleQuote n s)) hs
  case setTime =>
    refine heard (fun who r u => ?_) h
    split
    · exact (Balances.refl u).answer
    · split
      · exact (Balances.refl u).answer
      · exact (balances_moveClock _ u).answer
  case archive =>
    refine heard (fun who r u => ?_) h
    dsimp only
    repeat' split
    any_goals exact (Balances.refl u).answer
    exact (balances_archiveScreening _ u).answer
  case dayOpen =>
    refine heard (fun who r u => ?_) h
    dsimp only
    repeat' split
    any_goals exact (Balances.refl u).answer
    exact .answer (.of_stock rfl)
  case addVoucher =>
    refine heard (fun who r u => balances_onOwned fun o i b => ?_) h
    split
    · split
      · exact (Balances.refl u).answer
      · split
        · exact (Balances.refl u).answer
        · split
          · exact (Balances.refl u).answer
          · dsimp only
            split
            · exact (Balances.refl u).answer
            · exact (balances_basketStock _ _ _ _ _ _ _).answer
    · exact (Balances.refl u).answer
  case dropVoucher =>
    refine heard (fun who r u => balances_onOwned fun o i b => ?_) h
    split
    · split
      · exact (Balances.refl u).answer
      · split
        · exact (Balances.refl u).answer
        · split
          · exact (Balances.refl u).answer
          · exact (balances_basketStock _ _ _ _ _ _ _).answer
    · exact (Balances.refl u).answer
  case refundQuote =>
    refine heard (fun who r u => ?_) h
    split
    · exact (Balances.refl u).answer
    · split
      · exact (Balances.refl u).answer
      · split
        · exact (Balances.refl u).answer
        · split
          · exact (Balances.refl u).answer
          · exact (balances_suspended _ _ u).answer
  case refundCancel =>
    refine heard (fun who r u => ?_) h
    split
    · exact (Balances.refl u).answer
    · split
      · exact (Balances.refl u).answer
      · exact (balances_endQuote _ u).answer
  case redeem => exact heard (fun who r u => balances_onVoucher fun v => balances_runRedeem who r v u) h
  case setStock =>
    refine heard (fun who r u => ?_) h
    dsimp only
    split
    · exact (Balances.refl u).answer
    · split
      · exact (Balances.refl u).answer
      · refine .answer (balances_onStock fun hk => ?_)
        split
        · exact Stock.balanced_setAllotment hk _
        · exact Stock.balanced_setAllotment hk _
  case clearTaken =>
    refine heard (fun who r u => ?_) h
    dsimp only
    split
    · exact (Balances.refl u).answer
    · exact .answer (.foldl (f := fun s i => s.onStock i Stock.clearTaken)
        (fun w i => balances_onStock Stock.balanced_clearTaken) _ u)
  case releaseBasket => exact entry (fun x f hf u => by split at hf <;> cases hf; exact balances_runReleaseBasket ..) h
  case sellBasket => exact entry (fun x f hf u => by split at hf <;> cases hf; exact balances_runSellBasket ..) h
  case freeSale => exact entry (fun x f hf u => by split at hf <;> cases hf; exact balances_runFreeSale ..) h
  case restoreSeats => exact entry (fun x f hf u => by split at hf <;> cases hf; exact balances_runRestore ..) h
  all_goals exact k.exec_apart (by simp) (by unfold touches; simp) h hs

/-- Settles O8: stock moves between the four counts of a kind, and the allotment changes with one of them. -/
theorem stockLawKept : Obligations.StockLawKept := by
  unfold Obligations.StockLawKept
  exact fun s t hs h => lasting_stockLaw.step (lasting_stockLaw.idle (by simp)) (fun _ _ _ => stockLaw_exec) hs h

end Sys2Proof.Machine
end

section
/-! PROOFS. The law of the station map (R165): every step keeps it. -/

namespace Sys2Proof.Machine

/-- What every command but BIND_STATION and UNBIND does to a station: its binding stays, and whether it is UNBOUND. -/
structure StationWork (s t : State) : Prop where
  binding : ∀ n, t.binding n = s.binding n
  unbound : ∀ n, (t.ifc.stations.get n).state = .unbound ↔ (s.ifc.stations.get n).state = .unbound

namespace StationWork

variable {s t u : State}

theorem of_eq (h : t.ifc.stations = s.ifc.stations) : StationWork s t :=
  ⟨fun n => by rw [State.binding, h, State.binding], fun n => by rw [h]⟩

theorem refl (s : State) : StationWork s s := of_eq rfl

theorem trans (h : StationWork s t) (k : StationWork t u) : StationWork s u :=
  ⟨fun n => (k.binding n).trans (h.binding n), fun n => (k.unbound n).trans (h.unbound n)⟩

theorem of_only {bs : List Block} (h : Only bs s t) (hb : .stations ∉ bs) : StationWork s t := of_eq (h .stations hb)

theorem then_only {bs : List Block} (h : StationWork s t) (k : Only bs t u) (hb : .stations ∉ bs) : StationWork s u :=
  h.trans (of_only k hb)

theorem after_only {bs : List Block} (h : StationWork t u) (k : Only bs s t) (hb : .stations ∉ bs) : StationWork s u :=
  (of_only k hb).trans h

theorem answer {r : Reply} {res : Result} {fs : List Byte} (h : StationWork s t) : StationWork s (answer r res fs t) :=
  h.then_only (bs := [.lines]) (by simp) (by simp)

end StationWork

/-- A station that is not UNBOUND goes to another such state. -/
theorem stationWork_onStation {s : State} {n : Fin 8} {f : Station → Station}
    (hb : (f (s.ifc.stations.get n)).binding = (s.ifc.stations.get n).binding)
    (hu : (f (s.ifc.stations.get n)).state = .unbound ↔ (s.ifc.stations.get n).state = .unbound) :
    StationWork s (s.onStation n f) := by
  constructor <;>
  · intro m
    simp only [State.binding, State.onStation, Tab.modify, Tab.get_set]
    split
    · next e =>
      subst e
      assumption
    · rfl

theorem stationWork_lockIfClosing (o : Owner) (s : State) : StationWork s (lockIfClosing o s) := by
  unfold lockIfClosing
  split
  · exact .refl s
  · refine stationWork_onStation ?_ ?_
    · split <;> rfl
    · split
      · next h => simp [h]
      · rfl

-- ## The end of a payment

theorem stationWork_doubtBasket (i : Fin 16) (b : Basket) (s : State) : StationWork s (doubtBasket i b s) :=
  (stationWork_lockIfClosing _ _).after_only (bs := [.sales, .baskets]) (by simp) (by simp)

theorem stationWork_dispose (l : Fin 8) (r : Reversal) (s : State) : StationWork s (dispose l r s) := by
  unfold dispose
  split
  · exact .refl s
  · split
    · exact .of_only (bs := [.baskets, .engine, .sales]) (by simp) (by simp)
    · next i b _ _ _ => exact (stationWork_doubtBasket i b s).then_only (bs := [.lines, .pay]) (by simp) (by simp)

theorem stationWork_needReversal (l : Fin 8) (r : Reversal) (s : State) : StationWork s (needReversal l r s) := by
  unfold needReversal
  dsimp only
  split
  · exact .of_only (bs := [.pay]) (by simp) (by simp)
  · split
    · exact .of_only (bs := [.pay]) (by simp) (by simp)
    · exact (stationWork_dispose l r _).after_only (bs := [.lines]) (by simp) (by simp)

theorem stationWork_pump (l : Fin 8) (s : State) : StationWork s (pump l s) :=
  .of_only (bs := [.pay, .lines]) (by simp) (by simp)

theorem stationWork_attemptEnds (l : Fin 8) (p : Nat) (f : PayRecord → PayRecord) (s : State) :
    StationWork s (endExchange l (setRecord l p f s)) := .of_only (bs := [.pay]) (by simp) (by simp)

theorem stationWork_withBasket {r : PayRecord} {f : Basket → State → State} {s : State}
    (h : ∀ b, StationWork s (f b s)) : StationWork s (withBasket r f s) := by
  unfold withBasket
  split
  · exact .refl s
  · exact h _

theorem stationWork_judgeAttempt (i : Fin 16) (b : Basket) (p : Nat) (o : PayOutcome) (n : Nat) (s : State) :
    StationWork s (judgeAttempt i b p o n s) :=
  .of_only (bs := [.baskets, .engine, .sales, .lines]) (by simp) (by simp)

theorem stationWork_endBasket (i : Fin 16) (b : Basket) (reason : EndReason) (s : State) :
    StationWork s (endBasket i b reason s) := .of_only (bs := [.baskets, .engine, .sales]) (by simp) (by simp)

theorem stationWork_mismatchRecord (l : Fin 8) (r : PayRecord) (code : List Byte) (n : Nat) (s : State) :
    StationWork s (mismatchRecord l r code n s) := by
  unfold mismatchRecord
  exact .trans (.trans (.trans (stationWork_attemptEnds ..) (stationWork_needReversal ..))
    (stationWork_withBasket fun b => stationWork_judgeAttempt ..)) (stationWork_pump l _)

theorem stationWork_abortApproved (l : Fin 8) (r : PayRecord) (code : List Byte) (n : Nat) (s : State) :
    StationWork s (abortApproved l r code n s) := by
  unfold abortApproved
  exact .trans (.trans (.trans (stationWork_attemptEnds ..) (stationWork_needReversal ..))
    (stationWork_withBasket fun b => stationWork_endBasket ..)) (stationWork_pump l _)

theorem stationWork_timeOut (l : Fin 8) (r : PayRecord) (s : State) : StationWork s (timeOut l r s) := by
  unfold timeOut
  exact .trans (.trans (.trans (stationWork_attemptEnds ..)
    (stationWork_withBasket fun b => .of_only (bs := [.baskets, .lines]) (by simp) (by simp)))
    (stationWork_needReversal ..)) (stationWork_pump l _)

theorem stationWork_silentAbort (l : Fin 8) (r : PayRecord) (s : State) : StationWork s (silentAbort l r s) := by
  unfold silentAbort
  refine .trans (.trans (.trans (stationWork_attemptEnds ..) (stationWork_withBasket fun b => ?_))
    (stationWork_needReversal ..)) (stationWork_pump l _)
  dsimp only
  split
  · exact .of_only (bs := [.baskets]) (by simp) (by simp)
  · exact .of_only (bs := [.baskets, .lines]) (by simp) (by simp)

theorem stationWork_lateApproval (l : Fin 8) (p : Nat) (code : List Byte) (n : Nat) (s : State) :
    StationWork s (lateApproval l p code n s) := by
  unfold lateApproval
  exact .trans (.trans (.of_only (bs := [.pay]) (by simp) (by simp)) (stationWork_needReversal ..)) (stationWork_pump l _)

theorem stationWork_confirmReversal (l : Fin 8) (r : Reversal) (s : State) : StationWork s (confirmReversal l r s) := by
  refine .of_only (bs := [.pay, .baskets, .engine, .sales, .lines]) ?_ (by simp)
  unfold confirmReversal
  dsimp only
  split <;> simp

theorem stationWork_intervalExpired (l : Fin 8) (s : State) : StationWork s (intervalExpired l s) := by
  unfold intervalExpired
  split
  · exact .of_only (bs := [.pay]) (by simp) (by simp)
  · dsimp only
    split
    · exact .trans (.trans (.of_only (bs := [.pay, .lines]) (by simp) (by simp)) (stationWork_dispose ..))
        (stationWork_pump l _)
    · exact .of_only (bs := [.pay, .lines]) (by simp) (by simp)

theorem stationWork_takeApproved (l : Fin 8) (code : List Byte) (n : Nat) (r : PayRecord) (s : State) :
    StationWork s (takeApproved l code n r s) := by
  unfold takeApproved
  split
  · exact stationWork_abortApproved ..
  · split
    · exact .refl s
    · exact stationWork_lateApproval ..
  · exact stationWork_lateApproval ..
  · exact stationWork_lateApproval ..
  · exact stationWork_lateApproval ..
  · split
    · exact .of_only (bs := [.baskets, .engine, .sales, .pay, .lines]) (by simp [approveRecord]) (by simp)
    · exact stationWork_mismatchRecord ..

theorem stationWork_onNamed {l : Fin 8} {p : Nat} {f : PayRecord → State → State} {s : State}
    (h : ∀ r, StationWork s (f r s)) : StationWork s (onNamed l p f s) := by
  unfold onNamed
  split
  · exact h _
  · split
    · exact .refl s
    · exact .of_only (bs := [.pay]) (by simp) (by simp)

theorem stationWork_declineRecord (l : Fin 8) (r : PayRecord) (n : Nat) (s : State) :
    StationWork s (declineRecord l r n s) :=
  .of_only (bs := [.baskets, .engine, .sales, .pay, .lines]) (by simp [declineRecord]) (by simp)

theorem stationWork_abortAnswered (l : Fin 8) (r : PayRecord) (f : PayRecord → PayRecord) (s : State) :
    StationWork s (abortAnswered l r f s) :=
  .of_only (bs := [.baskets, .engine, .sales, .pay, .lines]) (by simp [abortAnswered]) (by simp)

theorem stationWork_carryOut (e : Event) (s : State) : StationWork s (carryOut e s) := by
  cases e
  case accept l =>
    show StationWork s (expireAccept l s)
    unfold expireAccept
    repeat' split
    · exact .refl s
    · exact .refl s
    · exact stationWork_silentAbort ..
    · exact stationWork_timeOut ..
  case authorization l =>
    show StationWork s (expireAuthorization l s)
    unfold expireAuthorization
    repeat' split
    · exact .refl s
    · exact stationWork_timeOut ..
    · exact .refl s
  case interval l =>
    show StationWork s (expireInterval l s)
    unfold expireInterval
    split
    · exact stationWork_intervalExpired l s
    · exact .refl s
  all_goals exact .of_only (carryOut_only _ s) (by simp [Event.touches])

-- ## A basket leaves its slot

theorem stationWork_freeSlot (i : Fin 16) (b : Basket) (s : State) : StationWork s (freeSlot i b s) :=
  (stationWork_lockIfClosing _ _).after_only (bs := [.prices, .lines, .baskets]) (by simp) (by simp)

theorem stationWork_runReleaseBasket (i : Fin 16) (ref n : Nat) (s : State) :
    StationWork s (runReleaseBasket i ref n s) := by
  unfold runReleaseBasket
  dsimp only
  split
  · exact .of_only (bs := [.screenings]) (by simp) (by simp)
  · refine .trans (.trans (.of_only (bs := [.screenings, .vouchers]) ?_ (by simp)) (stationWork_freeSlot ..))
      (.of_only (bs := [.lines]) ((only_tellEnd (by simp)).2 (Only.refl _ _)) (by simp))
    simp

theorem stationWork_completeCommit (i : Fin 16) (b : Basket) (c : Commit) (s : State) :
    StationWork s (completeCommit i b c s) := by
  have hfree : StationWork s (freeSlot i b (recordSale b c s)) :=
    (stationWork_freeSlot ..).after_only (bs := [.sales, .vouchers]) (by simp) (by simp)
  unfold completeCommit
  dsimp only
  split
  · exact hfree.then_only (bs := [.print, .lines, .choice, .sales]) (by simp) (by simp)
  · exact hfree.then_only (bs := [.print, .lines, .choice, .sales]) (by simp) (by simp)

theorem stationWork_runSellBasket (i : Fin 16) (ref n sale : Nat) (s : State) :
    StationWork s (runSellBasket i ref n sale s) := by
  unfold runSellBasket
  split
  · exact (stationWork_completeCommit ..).after_only (bs := [.screenings]) (by simp) (by simp)
  · exact .refl s

theorem stationWork_closeStation {n : Fin 8} {s : State} (h : (s.ifc.stations.get n).state = .opened) :
    StationWork s (closeStation n s) := by
  have hbecome : ∀ st, st ≠ StationState.unbound → StationWork s (s.onStation n (fun k => { k with state := st })) :=
    fun st hst => stationWork_onStation rfl (by simp [h, hst])
  unfold closeStation
  dsimp only
  repeat' split
  · exact hbecome _ (by simp)
  · exact hbecome _ (by simp)
  · exact (hbecome .closing (by simp)).then_only (bs := [.baskets, .engine, .sales]) (by simp) (by simp)
  · exact (hbecome .closing (by simp)).then_only (bs := [.baskets, .engine, .sales]) (by simp) (by simp)
  · exact hbecome _ (by simp)

-- ## The law

theorem MapLaw.stationWork {s t : State} (h : StationWork s t) (hs : MapLaw s) : MapLaw t := by
  obtain ⟨hbound, hdistinct, hshared⟩ := hs
  refine ⟨fun i => ?_, fun i j b c hij hb hc => ?_, fun l => ?_⟩
  · rw [h.binding, h.unbound]
    exact hbound i
  · rw [h.binding] at hb hc
    exact hdistinct i j b c hij hb hc
  · have e : t.stationsWith (fun b => b.ticket == l) = s.stationsWith (fun b => b.ticket == l) := by
      simp only [State.stationsWith, h.binding]
    rw [e]
    exact hshared l

/-- A station's record written anew. -/
theorem binding_onStation (n m : Fin 8) (f : Station → Station) (s : State) : (s.onStation n f).binding m
    = if n = m then (f (s.ifc.stations.get n)).binding else s.binding m := by
  simp only [State.binding, State.onStation, Tab.modify, Tab.get_set]
  split <;> rfl

theorem state_onStation (n m : Fin 8) (f : Station → Station) (s : State) :
    ((s.onStation n f).ifc.stations.get m).state
      = if n = m then (f (s.ifc.stations.get n)).state else (s.ifc.stations.get m).state := by
  simp only [State.onStation, Tab.modify, Tab.get_set]
  split <;> rfl

/-- R166: an unbound station holds no line. -/
theorem MapLaw.unbind {s : State} (hs : MapLaw s) (n : Fin 8) :
    MapLaw (s.onStation n (fun _ => ⟨none, .unbound⟩)) := by
  obtain ⟨hbound, hdistinct, hshared⟩ := hs
  refine ⟨fun i => ?_, fun i j b c hij hb hc => ?_, fun l => ?_⟩
  · rw [binding_onStation, state_onStation]
    split
    · simp
    · exact hbound i
  · rw [binding_onStation] at hb hc
    split at hb <;> split at hc <;> simp_all
    exact hdistinct i j b c hij hb hc
  · refine Nat.le_trans ?_ (hshared l)
    simp only [State.stationsWith, ← List.countP_eq_length_filter]
    refine List.countP_mono_left fun i _ hi => ?_
    rw [binding_onStation] at hi
    split at hi
    · simp at hi
    · exact hi

/-- R165: check 3 passed, no other station holds the kiosk link or the pay line, and at most one the ticket line. -/
theorem bindingTaken_none {s : State} {n : Fin 8} {b : Binding} (h : s.bindingTaken n b = none) :
    (∀ i c, i ≠ n → s.binding i = some c → c.kiosk ≠ b.kiosk ∧ c.pay ≠ b.pay)
      ∧ ((s.stationsWith (fun x => x.ticket == b.ticket)).filter (fun i => i != n)).length ≤ 1 := by
  unfold State.bindingTaken at h
  dsimp only at h
  split at h
  · cases h
  · next hk =>
    split at h
    · cases h
    · next hp =>
      split at h
      · cases h
      · next ht =>
        refine ⟨fun i c hi hc => ⟨fun e => ?_, fun e => ?_⟩, by omega⟩
        · have hmem : i ∈ (s.stationsWith (fun x => x.kiosk == b.kiosk)).filter (fun i => i != n) := by
            simp [State.stationsWith, hc, e, hi]
          exact hk (List.ne_nil_of_mem hmem)
        · have hmem : i ∈ (s.stationsWith (fun x => x.pay == b.pay)).filter (fun i => i != n) := by
            simp [State.stationsWith, hc, e, hi]
          exact hp (List.ne_nil_of_mem hmem)

theorem MapLaw.bind {s : State} (hs : MapLaw s) {n : Fin 8} {b : Binding} (h : s.bindingTaken n b = none) :
    MapLaw (s.onStation n (fun _ => ⟨some b, .locked⟩)) := by
  obtain ⟨hbound, hdistinct, hshared⟩ := hs
  obtain ⟨hfree, hticket⟩ := bindingTaken_none h
  refine ⟨fun i => ?_, fun i j c d hij hc hd => ?_, fun l => ?_⟩
  · rw [binding_onStation, state_onStation]
    split
    · simp
    · exact hbound i
  · rw [binding_onStation] at hc hd
    split at hc
    · split at hd
      · simp_all
      · cases hc
        next hj =>
        obtain ⟨hk, hp⟩ := hfree j d (Ne.symm hj) hd
        exact ⟨hk.symm, hp.symm⟩
    · next hi =>
      split at hd
      · cases hd
        exact hfree i c (Ne.symm hi) hc
      · exact hdistinct i j c d hij hc hd
  · by_cases hl : l = b.ticket
    · subst hl
      have hsub : ((s.onStation n (fun _ => ⟨some b, .locked⟩)).stationsWith (fun x => x.ticket == b.ticket))
          ⊆ n :: (s.stationsWith (fun x => x.ticket == b.ticket)).filter (fun i => i != n) := by
        intro i hi
        simp only [State.stationsWith, List.mem_filter, binding_onStation] at hi
        by_cases e : n = i
        · simp [e]
        · simpa [State.stationsWith, e, Ne.symm e] using hi
      have hnodup : ((s.onStation n (fun _ => ⟨some b, .locked⟩)).stationsWith (fun x => x.ticket == b.ticket)).Nodup :=
        (List.nodup_finRange 8).filter _
      exact (hnodup.subperm hsub).length_le.trans (by simpa using hticket)
    · refine Nat.le_trans ?_ (hshared l)
      simp only [State.stationsWith, ← List.countP_eq_length_filter]
      refine List.countP_mono_left fun i _ hi => ?_
      rw [binding_onStation] at hi
      split at hi
      · simp [Ne.symm hl] at hi
      · exact hi

theorem mapLaw_congr {s t : State} (h : t.ifc.stations = s.ifc.stations) (hs : MapLaw s) : MapLaw t :=
  hs.stationWork (.of_eq h)

theorem lasting_mapLaw : Lasting [.stations] MapLaw where
  reads s t h hs := mapLaw_congr (h .stations (by simp)) hs
  apart := by simp
  reset := by
    refine ⟨fun i => ?_, fun i j b c _ hb _ => ?_, fun l => ?_⟩
    · simp [State.reset, Interface.reset, State.binding]
    · simp [State.reset, Interface.reset, State.binding] at hb
    · simp [State.reset, Interface.reset, State.stationsWith, State.binding]
  events e s _ hs := hs.stationWork (stationWork_carryOut e s)

theorem mapLaw_offIfUnserved {former : Option Binding} {s : State} (hs : MapLaw s) : MapLaw (offIfUnserved former s) :=
  hs.stationWork (.of_only (bs := [.print, .lines]) (by simp) (by simp))

theorem mapLaw_exec {i : Instr} {s t : State} (h : exec i s = .next t) (hs : MapLaw s) : MapLaw t := by
  have k := lasting_mapLaw
  have hP : ∀ s t, StationWork s t → MapLaw s → MapLaw t := fun _ _ => MapLaw.stationWork
  cases i
  case acceptWaitExpiry l => exact k.event h (hP _ _ (stationWork_carryOut (.accept l) s)) hs
  case authorizationWaitExpiry l => exact k.event h (hP _ _ (stationWork_carryOut (.authorization l) s)) hs
  case reversalIntervalExpiry l => exact k.event h (hP _ _ (stationWork_carryOut (.interval l) s)) hs
  case approved =>
    refine k.message (exec_approved _ _ _ _ s ▸ h) (fun u => hP u _ ?_) hs
    have hstray : ∀ l, StationWork u (countStray l u) := fun l => .of_only (bs := [.pay]) (by simp) (by simp)
    repeat' split
    · exact hstray _
    · exact hstray _
    · exact stationWork_lateApproval ..
    · exact stationWork_onNamed fun r => stationWork_takeApproved ..
  case declined =>
    refine k.message (exec_declined _ _ _ s ▸ h) (fun u => hP u _ ?_) hs
    split
    · exact .of_only (bs := [.pay]) (by simp) (by simp)
    · refine stationWork_onNamed fun r => ?_
      split
      · exact stationWork_declineRecord ..
      · exact stationWork_declineRecord ..
      · exact stationWork_abortAnswered ..
      · exact .refl u
  case aborted =>
    refine k.message h (fun u => hP u _ (stationWork_onNamed fun r => ?_)) hs
    split
    · exact stationWork_declineRecord ..
    · exact stationWork_declineRecord ..
    · exact stationWork_abortAnswered ..
    · exact .refl u
  case reversed =>
    refine k.message (exec_reversed _ _ s ▸ h) (fun u => hP u _ ?_) hs
    split
    · exact stationWork_confirmReversal ..
    · split
      · exact .refl u
      · exact .of_only (bs := [.pay]) (by simp) (by simp)
  case releaseBasket =>
    exact k.command h (fun u => k.arbitrate (by simp) fun x f hf w => hP w _ (by
      split at hf <;> cases hf
      exact stationWork_runReleaseBasket ..)) hs
  case sellBasket =>
    exact k.command h (fun u => k.arbitrate (by simp) fun x f hf w => hP w _ (by
      split at hf <;> cases hf
      exact stationWork_runSellBasket ..)) hs
  case bindStation =>
    refine k.request (by simp) h (fun who r u hu => ?_) hs
    split
    · dsimp only
      split
      · exact k.answer hu
      · split
        · exact k.answer hu
        · next hfree => exact k.answer (mapLaw_offIfUnserved (hu.bind hfree))
    · exact k.answer hu
  case unbind =>
    refine k.request (by simp) h (fun who r u hu => ?_) hs
    unfold onNamedStation
    split
    · exact k.answer hu
    · dsimp only
      split
      · exact k.answer hu
      · exact k.answer (mapLaw_offIfUnserved (hu.unbind _))
      · exact k.answer hu
  case openStation =>
    refine k.request (by simp) h (fun who r u hu => ?_) hs
    unfold onNamedStation
    split
    · exact k.answer hu
    · next n _ =>
      dsimp only
      split
      · exact k.answer hu
      · exact k.answer hu
      · next hunbound _ =>
        have hopened : StationWork u (u.onStation n (fun k => { k with state := .opened })) :=
          stationWork_onStation rfl (by simpa using hunbound)
        exact hP u _ (hopened.then_only (bs := [.lines]) (by simp) (by simp)) hu
  case closeStation =>
    refine k.request (by simp) h (fun who r u hu => ?_) hs
    unfold onNamedStation
    split
    · exact k.answer hu
    · dsimp only
      split
      · exact k.answer hu
      · next hopen => exact k.answer (hP u _ (stationWork_closeStation hopen) hu)
      · exact k.answer hu
  all_goals exact k.exec_apart (by simp) (by unfold touches; simp) h hs

/-- Settles O11: only BIND_STATION and UNBIND change a binding, and a binding taken is refused (`bindingTaken_none`). -/
theorem mapLawKept : Obligations.MapLawKept := by
  unfold Obligations.MapLawKept
  exact fun s t hs h => lasting_mapLaw.step (lasting_mapLaw.idle (by simp)) (fun _ _ _ => mapLaw_exec) hs h

end Sys2Proof.Machine
end

section
/-! PROOFS. The step, the resets and what every command leaves in the queue of commands. -/

namespace Sys2Proof.Machine

-- ## The step

/-- Settles O1: it is how a step is defined. -/
theorem stepRunsFrontCommand : Obligations.StepRunsFrontCommand := by
  unfold Obligations.StepRunsFrontCommand
  intro c q s
  rfl

-- ## What is due leaves the commands waiting

theorem carryOut_pending (e : Event) (s : State) : (carryOut e s).pending = s.pending :=
  carryOut_only e s .pending (by cases e <;> simp [Event.touches, outcomeBlocks])

theorem resetPart_pending (c : StartCause) (s : State) : (resetPart c s).pending = s.pending := rfl

theorem settle_pending (s : State) : s.settle.pending = s.pending := by
  unfold State.settle
  split
  · exact resetPart_pending _ s
  · split
    · rfl
    · refine List.foldlRecOn (motive := fun u : State => u.pending = s.pending) _ _ ?_ fun u hu e _ => ?_
      · exact (only_spend (bs := [.choice]) (by simp)).2 (Only.refl _ s) .pending (by simp)
      · rw [latchAlarms_pending, carryOut_pending, hu]

theorem takeMessage_pending (l : Line) (i : Instr) (s : State) : (takeMessage l i s).pending = s.pending := by
  obtain ⟨ls, e⟩ := takeMessage_ifc l i s
  rw [e]

theorem outstand_pending (k : Link) (o : Outstanding) (s : State) : (s.outstand k o).pending = s.pending := by
  cases k <;> rfl

theorem pending_not_touched (i : Instr) : Block.pending ∉ Block.lines :: touches i := by
  unfold touches
  split <;> simp

/-- The commands waiting stay in their order through every command. -/
theorem exec_pending (i : Instr) (s : State) : ∃ t, exec i s = .next t ∧ t.pending = s.pending := by
  have htouch := pending_not_touched i
  cases exec_form i with
  | reset eq =>
    rcases eq s with e | ⟨c, e⟩
    · exact ⟨_, e, latchAlarms_pending s⟩
    · exact ⟨_, e, by rw [latchAlarms_pending, resetPart_pending]⟩
  | event f eq only => exact ⟨_, eq s, by rw [latchAlarms_pending]; exact only s .pending htouch⟩
  | command f eq only =>
    exact ⟨_, eq s, by rw [latchAlarms_pending, ← settle_pending s]; exact only _ .pending htouch⟩
  | request src tag kind ok run eq only =>
    refine ⟨_, eq s, ?_⟩
    rw [latchAlarms_pending, ← settle_pending s, ← takeMessage_pending src.line i s.settle]
    show (hear src tag kind i.wellFormed ok run (takeMessage src.line i s.settle)).pending = _
    generalize takeMessage src.line i s.settle = u
    unfold hear
    split
    · rfl
    · next who _ =>
      have hrun := only who ⟨src, tag, kind⟩ (u.outstand src ⟨kind, tag⟩) .pending htouch
      dsimp only
      split
      · exact hrun.trans (outstand_pending _ _ _)
      · exact outstand_pending _ _ _

/-- Settles O2, from the form of each command: what is due, what it does, the alarms. -/
theorem everyStepCompletes : Obligations.EveryStepCompletes := by
  unfold Obligations.EveryStepCompletes
  refine ⟨fun c q s => exec_pending c { s with pending := q }, fun s hs => ⟨idle s, ?_, Lasting.idle_only s, ?_⟩⟩
  · rw [step, hs]
  · by_cases h : s.clock.value < 172799 ∧ s.clock.fraction < 999
    · simp [idle, State.clockRuns, Config.clockEnd, h]
    · have : ¬(s.clockRuns && decide (s.clock.fraction < 999)) = true := by
        have hruns : s.clockRuns = decide (s.clock.value < 172799) := rfl
        rwa [hruns, Bool.and_eq_true, decide_eq_true_eq, decide_eq_true_eq]
      rw [if_neg h, idle, if_neg this]

-- ## Resets

/-- After a reset no condition holds, so no alarm latches. -/
theorem resetPart_arising (c : StartCause) (s : State) : (resetPart c s).arising = [] := by
  have hc : (resetPart c s).conditions = State.reset.conditions :=
    conditions_congr rfl rfl rfl rfl rfl (fun l => by
      unfold resetPart notifyOffice
      rw [line_send]
      split <;> rfl)
  have hnone : State.reset.conditions = List.replicate 10 false := by decide +kernel
  simp only [State.arising, List.filter_eq_nil_iff, State.condition, hc, hnone]
  intro i _
  fin_cases i <;> simp

theorem latchAlarms_resetPart (c : StartCause) (s : State) : latchAlarms (resetPart c s) = resetPart c s := by
  unfold latchAlarms
  rw [resetPart_arising]

/-- Settles O4: each of the three puts the part as after any reset, where nothing latches. -/
theorem resetCommandsLeaveReset : Obligations.ResetCommandsLeaveReset := by
  unfold Obligations.ResetCommandsLeaveReset
  intro s
  have hreset : ∀ c, event (resetPart c) s = .next (resetPart c s) := fun c => by
    rw [event, latchAlarms_resetPart]
  refine ⟨hreset .powerOn, hreset .pin, fun h => ?_, fun h => ?_⟩
  · show event expireRestart s = _
    rw [event, expireRestart, if_pos h, latchAlarms_resetPart]
    rfl
  · refine ⟨latchAlarms s, ?_, effect_of (Only.refl _ s) (fun l => sent_refl l s) rfl⟩
    show event expireRestart s = _
    rw [event, expireRestart, if_neg h]

-- ## The books at a reset

theorem reset_liveBaskets : State.reset.liveBaskets = [] := by decide +kernel

theorem reset_owed : State.reset.owed = [] := by decide +kernel

theorem reset_payLine (i : Fin 8) : State.reset.payLine i = ⟨none, [], [], 0⟩ := by
  revert i
  decide +kernel

theorem attemptLaw_reset : AttemptLaw State.reset := by
  refine ⟨?_, ?_, ?_, ?_, ?_, List.nodup_nil, ?_⟩
  · simp only [reset_payLine]
    decide
  · simp [reset_payLine]
  · simp [reset_liveBaskets]
  · simp [reset_payLine]
  · simp only [reset_payLine]
    decide
  · exact fun d h => absurd h List.not_mem_nil

theorem owedLaw_reset : OwedLaw State.reset := by
  refine ⟨?_, ?_, List.nodup_nil, ?_⟩
  · rw [reset_owed]
    decide +kernel
  · rw [reset_owed]
    decide +kernel
  · intro tag
    have hsending : (State.reset.line .ol).sending = [] := by decide +kernel
    rw [reset_owed, hsending]
    rfl

theorem capacityLaw_reset : CapacityLaw State.reset :=
  ⟨Nat.zero_le _, Nat.zero_le _, Nat.zero_le _, by decide +kernel, by simp [reset_payLine]⟩

theorem booksLaw_reset : BooksLaw State.reset := by
  refine ⟨?_, ⟨?_, List.nodup_nil, List.nodup_nil, List.nodup_nil, ?_⟩, ⟨List.nodup_nil, ?_⟩,
    ⟨List.nodup_nil, ?_, ?_⟩, ?_, ?_, attemptLaw_reset, owedLaw_reset, capacityLaw_reset⟩
  · simp [BasketLaw, reset_liveBaskets]
  · exact fun e h => absurd h List.not_mem_nil
  · exact fun c h => absurd h List.not_mem_nil
  · exact fun k h => absurd h List.not_mem_nil
  · exact fun v h => absurd h List.not_mem_nil
  · rw [reset_liveBaskets]
    decide +kernel
  · simp only [ReservationLaw, reset_liveBaskets]
    decide +kernel
  · simp [PayLaw, reset_payLine]


/-- Settles O3, the values by evaluation and the laws by what each says of empty tables. -/
theorem resetStateValues : Obligations.ResetStateValues := by
  unfold Obligations.ResetStateValues
  refine ⟨rfl, rfl, rfl, rfl, rfl, rfl, rfl, rfl, by decide +kernel, rfl, rfl, rfl, by decide +kernel, rfl, rfl,
    by decide +kernel, rfl, rfl, rfl, by decide +kernel, rfl, rfl, reset_payLine, rfl, rfl, rfl, rfl, rfl, rfl,
    by decide +kernel, rfl, rfl, by decide +kernel, by decide +kernel, fun i => ⟨(State.reset.ticketLine i).asserted, ?_⟩,
    rfl, rfl, ?_, by decide +kernel, by decide +kernel, rfl, rfl, by decide +kernel, by decide +kernel,
    by decide +kernel, rfl, lasting_clockLaw.reset, ?_, lasting_stockLaw.reset, lasting_seatLaw.reset,
    powerLaw_reset, lasting_paramsLaw.reset, lasting_mapLaw.reset, capacityLaw_reset,
    lasting_refLaw.reset, lasting_bankLaw.reset, poolLaw_reset, booksLaw_reset, ?_⟩
  · revert i
    decide +kernel
  · intro l
    simp [State.line, State.reset, Interface.reset]
  · have h := alarmLaw_latch (resetPart .powerOn State.reset)
    rw [latchAlarms_resetPart] at h
    intro i hi
    refine h i ?_
    have hc : (resetPart .powerOn State.reset).conditions = State.reset.conditions :=
      conditions_congr rfl rfl rfl rfl rfl (fun l => by
        unfold resetPart notifyOffice
        rw [line_send]
        split <;> rfl)
    rwa [State.condition, hc]
  · exact ⟨List.nodup_nil, by simp [reset_liveBaskets], fun c h => absurd h List.not_mem_nil⟩

end Sys2Proof.Machine
end

section
/-! PROOFS. Rules for the statements about one command: the frames it sends, and what its form makes of the effect of its
own work, for a request heard, an entry taken, and a command or an event. -/

namespace Sys2Proof.Machine

-- ## The frames sent

/-- The frames `out` become ready on the lines, and nothing else of any line changes. -/
structure Says (out : Line → List Frame) (s t : State) : Prop where
  line : ∀ l, t.line l = { s.line l with sending := (s.line l).sending ++ out l }

theorem Says.of_lines {s t : State} (h : t.ifc.lines = s.ifc.lines) : Says nothing s t :=
  ⟨fun l => by simp [State.line, h, nothing]⟩

theorem Says.of_only {bs : List Block} {s t : State} (h : Only bs s t) (hb : .lines ∉ bs) : Says nothing s t :=
  .of_lines (h .lines hb)

theorem Says.refl (s : State) : Says nothing s s := .of_lines rfl

theorem Says.trans {f g : Line → List Frame} {s t u : State} (h : Says f s t) (k : Says g t u) : Says (after f g) s u :=
  ⟨fun l => by simp [k.line l, h.line l, after]⟩

theorem after_nothing (f : Line → List Frame) : after f nothing = f := by
  funext l
  simp [after, nothing]

theorem nothing_after (f : Line → List Frame) : after nothing f = f := by
  funext l
  simp [after, nothing]

/-- What follows silently. -/
theorem Says.then_only {f : Line → List Frame} {bs : List Block} {s t u : State} (h : Says f s t) (k : Only bs t u)
    (hb : .lines ∉ bs) : Says f s u := after_nothing f ▸ h.trans (.of_only k hb)

/-- What was silent before. -/
theorem Says.after_only {f : Line → List Frame} {bs : List Block} {s t u : State} (h : Says f t u) (k : Only bs s t)
    (hb : .lines ∉ bs) : Says f s u := nothing_after f ▸ (Says.of_only k hb).trans h

theorem says_send (l : Line) (x : Frame) (s : State) : Says (on l [x]) s (send l x s) := by
  refine ⟨fun k => ?_⟩
  rw [line_send]
  unfold on
  by_cases h : l = k
  · subst h
    simp
  · simp [h, Ne.symm h]

theorem says_answer (r : Reply) (result : Result) (fields : List Byte) (s : State) :
    Says (on r.link.line [answerFrame r result fields]) s (answer r result fields s) := says_send _ _ s

theorem says_notifyOffice (kind : Byte) (fields : List Byte) (s : State) :
    Says (on .ol [noticeFrame kind fields]) s (notifyOffice kind fields s) := says_send _ _ s

theorem says_notifyOwner (o : Owner) (kind : Byte) (fields : List Byte) (s : State) :
    Says (toOwner s o (noticeFrame kind fields)) s (notifyOwner o kind fields s) := by
  cases o with
  | office => exact says_notifyOffice kind fields s
  | station n =>
    simp only [toOwner, notifyOwner, notifyStation, State.binding]
    cases (s.ifc.stations.get n).binding with
    | none => exact Says.refl s
    | some b => exact says_send _ _ s

/-- A message taken, and then frames sent. -/
theorem Says.sent {f : Line → List Frame} {s t u : State} (h : ∀ l, Sent l [] s t) (k : Says f t u) (l : Line) :
    Sent l (f l) s u := by
  obtain ⟨hsending, hreceiver, hbad, hhanded⟩ := h l
  refine ⟨?_, ?_, ?_, ?_⟩ <;> simp [k.line l, hsending, hreceiver, hbad, hhanded]

-- ## The effect of a command

/-- What the latching of the alarms leaves. -/
theorem latched_same (u : State) : Only [.lines, .latched, .choice] u (latchAlarms u) := only_latch u

/-- What a command or an event does, seen before the alarms latch. -/
theorem effect_says {bs : List Block} {out : Line → List Frame} {s u : State} (ho : Only (.lines :: .choice :: bs) s u)
    (hs : Says out s u) (hl : .latched ∉ bs) : Effect bs out s (latchAlarms u) :=
  effect_of ho (fun l => hs.sent (fun k => sent_refl k s) l) (ho .latched (by simp [hl]))

/-- The same where nothing is sent. -/
theorem effect_silent {bs : List Block} {s u : State} (ho : Only (.choice :: bs) s u) (hn : .lines ∉ bs)
    (hl : .latched ∉ bs) : Effect bs nothing s (latchAlarms u) :=
  effect_says (ho.mono (by simp)) (.of_only ho (by simp [hn])) hl

-- ## A request heard

section
variable {i : Instr} {who : Requester} {r : Reply} {s u : State} {src : Link} {tag kind : Byte} {ok : Bool}
  {run : Requester → Reply → State → State} {result : Result} {fields : List Byte} {bs : List Block}
  {out : Line → List Frame} {Q : State → Prop}

/-- A request that is heard runs from the state in which it stands outstanding. -/
theorem Heard.exec_eq (h : Heard i who r s) (hx : ∀ s, exec i s = request i src tag kind ok run s)
    (hi : requestOf i = some (src, tag, kind)) (hok : ok = true) :
    exec i s = .next (latchAlarms (run who r (hearing i r s))) := by
  subst hok
  rw [hx, h.request_eq hi]

theorem runs_of (hx : exec i s = .next (latchAlarms u)) (ho : Only (.lines :: .choice :: bs) (hearing i r s) u)
    (hs : Says out (hearing i r s) u) (hl : .latched ∉ bs) (hp : .outstanding ∉ bs) :
    Runs i r bs out s (latchAlarms u) := by
  have hlatched : u.alarms.latched = s.alarms.latched := by
    rw [← hearing_alarms i r s]
    exact ho .latched (by simp [hl])
  refine ⟨hx, effect_of ?_ (fun l => hs.sent (sent_hearing i r s) l) hlatched, ?_⟩
  · exact ((only_hearing i r s).mono (by simp)).trans (ho.mono (by simp; intro b h; simp [h]))
  · have h1 := hearing_outstands i r s
    have h2 : Block.outstanding.same (hearing i r s) u := ho .outstanding (by simp [hp])
    simp only [Outstands, Block.same] at h1 h2 ⊢
    simp only [latchAlarms_kiosk, latchAlarms_concession, latchAlarms_office]
    exact ⟨h2.1.trans h1.1, h2.2.1.trans h1.2.1, h2.2.2.trans h1.2.2⟩

/-- A request heard that runs to `u`. -/
theorem Heard.runs (h : Heard i who r s) (hx : ∀ s, exec i s = request i src tag kind ok run s)
    (hi : requestOf i = some (src, tag, kind)) (hok : ok = true) (hrun : run who r (hearing i r s) = u)
    (ho : Only (.lines :: .choice :: bs) (hearing i r s) u) (hs : Says out (hearing i r s) u) (hl : .latched ∉ bs)
    (hp : .outstanding ∉ bs) (hQ : ∀ t, Only [.lines, .latched, .choice] u t → Q t) :
    ∃ t, Runs i r bs out s t ∧ Q t :=
  ⟨_, runs_of (hrun ▸ h.exec_eq hx hi hok) ho hs hl hp, hQ _ (latched_same u)⟩

/-- A request heard whose run ends with its answer, `u` being the state before it. -/
theorem Heard.answers (h : Heard i who r s) (hx : ∀ s, exec i s = request i src tag kind ok run s)
    (hi : requestOf i = some (src, tag, kind)) (hok : ok = true)
    (hrun : run who r (hearing i r s) = answer r result fields u) (ho : Only (.choice :: bs) (hearing i r s) u)
    (hb : .lines ∉ bs ∧ .latched ∉ bs ∧ .outstanding ∉ bs) (hQ : ∀ t, Only [.lines, .latched, .choice] u t → Q t) :
    ∃ t, Answers i r result fields bs s t ∧ Q t :=
  ⟨_, answers_of (hrun ▸ h.exec_eq hx hi hok) ho hb.1 hb.2.1 hb.2.2,
    hQ _ (((only_answer (by simp)).2 (Only.refl _ u)).trans (latched_same _))⟩

/-- A request heard whose run is its answer alone. -/
theorem Heard.answers_only (h : Heard i who r s) (hx : ∀ s, exec i s = request i src tag kind ok run s)
    (hi : requestOf i = some (src, tag, kind)) (hok : ok = true)
    (hrun : run who r (hearing i r s) = answer r result fields (hearing i r s)) :
    ∃ t, Answers i r result fields [] s t :=
  answers_unchanged (hrun ▸ h.exec_eq hx hi hok)

end

-- ## An entry taken

section
variable {i : Instr} {x : Entry} {e : Engine} {s u : State} {f : State → State} {run : Entry → Option (State → State)}
  {bs : List Block} {out : Line → List Frame} {Q : State → Prop}

/-- A step of the arbiter that leaves `u`, from the state whose engine the entry has left. -/
theorem carries_says (hx : exec i s = .next (latchAlarms u))
    (ho : Only (.lines :: .choice :: bs) { s with engine := e } u) (hs : Says out { s with engine := e } u)
    (hl : .latched ∉ bs) (he : .engine ∉ bs) : Carries i e bs out s (latchAlarms u) := by
  have hlatched : u.alarms.latched = s.alarms.latched := ho .latched (by simp [hl])
  have hfrom : Only [.engine] s { s with engine := e } := (only_engine (by simp)).2 (Only.refl _ s)
  refine ⟨hx, effect_of ?_ (fun l => (hs.after_only hfrom (by simp)).sent (fun k => sent_refl k s) l) hlatched, ?_⟩
  · exact (hfrom.mono (by simp)).trans (ho.mono (by simp; intro b h; simp [h]))
  · rw [latchAlarms_engine]
    exact ho .engine (by simp [he])

/-- An entry taken whose run ends in `u`. -/
theorem Takes.carries (h : Takes x e s) (hx : ∀ s, exec i s = command (arbitrate run) s) (hf : run x = some f)
    (hrun : f { s with engine := e } = u) (ho : Only (.lines :: .choice :: bs) { s with engine := e } u)
    (hs : Says out { s with engine := e } u) (hl : .latched ∉ bs) (he : .engine ∉ bs)
    (hQ : ∀ t, Only [.lines, .latched, .choice] u t → Q t) : ∃ t, Carries i e bs out s t ∧ Q t :=
  ⟨_, carries_says (by rw [hx, arbitrate_takes h hf, hrun]) ho hs hl he, hQ _ (latched_same u)⟩

/-- An entry taken whose run is its answer alone. -/
theorem Takes.answers_only {r : Reply} {result : Result} {fields : List Byte} (h : Takes x e s)
    (hx : ∀ s, exec i s = command (arbitrate run) s) (hf : run x = some f)
    (hrun : f { s with engine := e } = answer r result fields { s with engine := e }) :
    ∃ t, Carries i e [] (on r.link.line [answerFrame r result fields]) s t :=
  ⟨_, carries_says (by rw [hx, arbitrate_takes h hf, hrun]) (by simp) (says_answer ..) (by simp) (by simp)⟩

end

-- ## A command of the outside, and an event

section
variable {i : Instr} {s u : State} {f : State → State} {bs : List Block} {out : Line → List Frame} {Q : State → Prop}

/-- A command on a state in which nothing is due. -/
theorem command_does (hq : s.quiet = true) (hx : exec i s = command f s) (hf : f s = u)
    (ho : Only (.lines :: .choice :: bs) s u) (hs : Says out s u) (hl : .latched ∉ bs)
    (hQ : ∀ t, Only [.lines, .latched, .choice] u t → Q t) : ∃ t, exec i s = .next t ∧ Effect bs out s t ∧ Q t :=
  ⟨_, by rw [hx, command_quiet hq, hf], effect_says ho hs hl, hQ _ (latched_same u)⟩

/-- An event. -/
theorem event_does (hx : exec i s = event f s) (hf : f s = u)
    (ho : Only (.lines :: .choice :: bs) s u) (hs : Says out s u) (hl : .latched ∉ bs)
    (hQ : ∀ t, Only [.lines, .latched, .choice] u t → Q t) : ∃ t, exec i s = .next t ∧ Effect bs out s t ∧ Q t :=
  ⟨_, by rw [hx, event, hf], effect_says ho hs hl, hQ _ (latched_same u)⟩

/-- A command that does nothing. -/
theorem command_idle (hq : s.quiet = true) (hx : exec i s = command f s) (hf : f s = s) :
    ∃ t, exec i s = .next t ∧ Effect [] nothing s t :=
  ⟨_, by rw [hx, command_quiet hq, hf], effect_says (Only.refl _ s) (Says.refl s) (by simp)⟩

/-- An event that is not due. -/
theorem event_idle (hx : exec i s = event f s) (hf : f s = s) : ∃ t, exec i s = .next t ∧ Effect [] nothing s t :=
  ⟨_, by rw [hx, event, hf], effect_says (Only.refl _ s) (Says.refl s) (by simp)⟩

end

-- ## RESTART and FRAME_SENT (R161, R162, R170)

theorem closeRequest_kiosk (l : Line) (f : Frame) (w : State) (n : Fin 8) :
    (closeRequest l f w).ifc.kiosk.get n = if l = .kl n then none else w.ifc.kiosk.get n := by
  cases l with
  | kl m => simp [closeRequest, Tab.get_set]
  | _ => simp [closeRequest]

theorem closeRequest_concession (l : Line) (f : Frame) (w : State) (n : Fin 4) :
    (closeRequest l f w).ifc.concession.get n = if l = .cl n then none else w.ifc.concession.get n := by
  cases l with
  | cl m => simp [closeRequest, Tab.get_set]
  | _ => simp [closeRequest]

theorem mem_closeRequest_office (l : Line) (f : Frame) (w : State) (o : Outstanding) :
    o ∈ (closeRequest l f w).ifc.office ↔ o ∈ w.ifc.office ∧ ¬(l = .ol ∧ f.body[1]? = some o.tag) := by
  cases l with
  | ol =>
    have hcomm : (some o.tag = f.body[1]?) ↔ (f.body[1]? = some o.tag) := eq_comm
    simp [closeRequest, hcomm]
  | _ => simp [closeRequest]

theorem closeRequest_restart (l : Line) (f : Frame) (w : State) : (closeRequest l f w).ifc.restart
    = if l = .ol ∧ w.ifc.restart = .answering ∧ f.body.head? = some 0xCC then .due else w.ifc.restart := by
  cases l with
  | ol =>
    simp only [closeRequest, true_and]
  | _ => rw [if_neg (by simp)]; rfl

/-- What FRAME_SENT leaves of a line with a frame on it. -/
def frameOff (l : Line) (f : Frame) (w : State) : State := if f.closes then closeRequest l f w else w

theorem frameOff_only (l : Line) (f : Frame) (w : State) : Only [.choice, .outstanding, .restart] w (frameOff l f w) := by
  unfold frameOff
  split
  · simp
  · exact Only.refl _ w

/-- Settles O5: FRAME_SENT takes the frame off its line, and closes the request whose answer it was. -/
theorem restartWaitsForItsAnswer : Obligations.RestartWaitsForItsAnswer := by
  unfold Obligations.RestartWaitsForItsAnswer
  refine ⟨fun src tag who r s h => ?_, fun l f rest s hq hl => ?_, fun l s hq hl => ?_⟩
  · refine h.answers (u := { hearing (.restart src tag) r s with
      ifc := { (hearing (.restart src tag) r s).ifc with restart := .answering } }) (fun _ => rfl) rfl rfl rfl ?_ (by simp)
      fun t ht => ht .restart (by simp)
    intro b hb
    cases b <;> simp_all [Block.same]
  · have hx : exec (.frameSent l) s
        = .next (latchAlarms (frameOff l f (s.onLine l (fun r => { r with sending := rest })))) := by
      rw [exec_frameSent, command_quiet hq]
      simp only [hl]
      rfl
    refine ⟨_, hx, effect_silent (frameOff_only l f _) (by simp) (by simp), ?_, ?_, ?_, ?_⟩
    · intro n
      rw [latchAlarms_kiosk, frameOff]
      by_cases hc : f.closes = true
      · rw [if_pos hc, closeRequest_kiosk]
        simp [hc, State.onLine]
      · simp [hc, State.onLine]
    · intro n
      rw [latchAlarms_concession, frameOff]
      by_cases hc : f.closes = true
      · rw [if_pos hc, closeRequest_concession]
        simp [hc, State.onLine]
      · simp [hc, State.onLine]
    · intro o
      rw [latchAlarms_office, frameOff]
      by_cases hc : f.closes = true
      · rw [if_pos hc, mem_closeRequest_office]
        simp [hc, State.onLine]
      · simp [hc, State.onLine]
    · rw [latchAlarms_restart, frameOff]
      by_cases hc : f.closes = true
      · rw [if_pos hc, closeRequest_restart]
        simp only [hc, true_and]
        rfl
      · simp [hc, State.onLine]
  · exact command_idle hq (exec_frameSent l s) (by simp only [hl])

end Sys2Proof.Machine
end

section
/-! PROOFS. The line interface (R158 to R163): the checks on a request, the bytes of a frame, the receivers. -/

namespace Sys2Proof.Machine

-- ## Requests turned away (R162, R163)

/-- A request of the table has the form of one, with its own link, tag and kind. -/
theorem exec_request {i : Instr} {src : Link} {tag kind : Byte} (h : requestOf i = some (src, tag, kind)) :
    ∃ ok run, ∀ s, exec i s = request i src tag kind ok run s := by
  cases i
  case seatRequestJoin l t q =>
    cases q <;> cases h <;> exact ⟨_, _, fun _ => rfl⟩
  all_goals cases h <;> exact ⟨_, _, fun _ => rfl⟩

theorem admission_kiosk (s : State) (n : Fin 8) (tag kind : Byte) (sized : Bool) :
    s.admission (.kiosk n) tag kind sized
      = match s.stationAt n with
        | none => .refused .notReady tag
        | some st =>
          if (s.ifc.stations.get st).state ≠ .opened then .refused .notReady tag
          else if s.ifc.kiosk.get n ≠ none then .refused .busy tag
          else if sized = false then .refused .badRequest tag
          else if kind ∉ kioskKinds then .refused .notAllowed tag
          else .admitted (.station st) := by
  simp only [State.admission]
  cases s.stationAt n with
  | none => rfl
  | some st => simp [Option.ne_none_iff_isSome]

theorem admission_concession (s : State) (n : Fin 4) (tag kind : Byte) (sized : Bool) :
    s.admission (.concession n) tag kind sized
      = if s.ifc.concessionOpen.get n = false then .refused .notReady tag
        else if s.ifc.concession.get n ≠ none then .refused .busy tag
        else if sized = false then .refused .badRequest tag
        else if kind ≠ 0x34 ∧ kind ≠ 0x35 then .refused .notAllowed tag
        else .admitted (.concession n) := by
  simp [State.admission, Option.ne_none_iff_isSome, concessionKinds]

theorem admission_office (s : State) (tag kind : Byte) (sized : Bool) :
    s.admission .office tag kind sized
      = if tag = 0 then .refused .badRequest 0
        else if ∃ o ∈ s.ifc.office, o.tag = tag then .refused .badRequest tag
        else if 4 ≤ s.ifc.office.length then .refused .busy tag
        else if sized = false then .refused .badRequest tag
        else .admitted .office := by
  simp [State.admission, Config.maxOfficeRequests]

/-- R163: a body whose length does not suit its kind is refused on every link, whatever its kind. -/
theorem admission_unsized_refused (s : State) (src : Link) (tag kind : Byte) : ∃ result shown,
    ∀ kind', s.admission src tag kind false = .refused result shown
      ∧ s.admission src tag kind' false = .refused result shown := by
  cases src with
  | kiosk n =>
    simp only [admission_kiosk]
    split
    · exact ⟨_, _, fun _ => ⟨rfl, rfl⟩⟩
    · split
      · exact ⟨_, _, fun _ => ⟨rfl, rfl⟩⟩
      · split <;> exact ⟨_, _, fun _ => ⟨rfl, rfl⟩⟩
  | concession n =>
    simp only [admission_concession]
    split
    · exact ⟨_, _, fun _ => ⟨rfl, rfl⟩⟩
    · split <;> exact ⟨_, _, fun _ => ⟨rfl, rfl⟩⟩
  | office =>
    simp only [admission_office]
    split
    · exact ⟨_, _, fun _ => ⟨rfl, rfl⟩⟩
    · split
      · exact ⟨_, _, fun _ => ⟨rfl, rfl⟩⟩
      · split <;> exact ⟨_, _, fun _ => ⟨rfl, rfl⟩⟩

theorem hear_refused {src : Link} {tag kind shown : Byte} {sized ok : Bool} {run : Requester → Reply → State → State}
    {result : Result} {s : State} (h : s.admission src tag kind sized = .refused result shown) :
    hear src tag kind sized ok run s = send src.line ⟨[kind + 0x80#8, shown, result.code], false⟩ s := by
  unfold hear
  rw [h]

/-- A message taken, and one frame sent on its link. -/
theorem effect_takeMessage_send (l : Line) (i : Instr) (x : Frame) (s : State) :
    Effect [] (on l [x]) s (latchAlarms (send l x (takeMessage l i s))) :=
  effect_of (by simp) (fun k => (says_send l x _).sent (fun k => sent_takeMessage l k i s) k)
    (by obtain ⟨ls, e⟩ := takeMessage_ifc l i s; rw [e]; rfl)

/-- Settles O16: the checks of each link, and what a request turned away runs to. -/
theorem linksRefuseInOrder : Obligations.LinksRefuseInOrder := by
  unfold Obligations.LinksRefuseInOrder
  refine ⟨admission_kiosk, admission_concession, admission_office, ?_, ?_⟩
  · intro i src tag kind s result shown hi hq ha
    obtain ⟨ok, run, hx⟩ := exec_request hi
    refine ⟨_, ?_, effect_takeMessage_send src.line i _ s⟩
    rw [hx, request, command_quiet hq, hear_refused (by rw [admission_takeMessage, ha])]
    rfl
  · intro src tag kind s hq
    obtain ⟨result, shown, h⟩ := admission_unsized_refused s src tag kind
    refine ⟨result, shown, _, (h kind).1, ?_, effect_takeMessage_send src.line (.unrecognisedRequest src tag kind) _ s⟩
    rw [exec_unrecognisedRequest, command_quiet hq, hear_refused (by rw [admission_takeMessage, (h (refusedKind kind)).2])]
    by_cases hk : kind ∈ requestKinds
    · simp [refusedKind, hk]
    · simp [refusedKind, hk]

-- ## The bytes of a frame (R159)

/-- The bytes after the start byte of a frame. -/
def frameTail (body : List Byte) : List Byte :=
  let covered := BitVec.ofNat 8 body.length :: body
  covered ++ [(crc16 covered >>> 8).setWidth 8, (crc16 covered).setWidth 8]

theorem frameBytes_eq (body : List Byte) : frameBytes body = 0xA5 :: frameTail body := rfl

theorem length_frameTail (body : List Byte) : (frameTail body).length = body.length + 3 := by
  simp [frameTail]

theorem lengthByte_toNat {body : List Byte} (h : body.length ≤ 250) : (BitVec.ofNat 8 body.length).toNat = body.length := by
  simp
  omega

/-- The whole of a frame's bytes make a good frame. -/
theorem frameStatus_frameTail {body : List Byte} (h2 : 2 ≤ body.length) (h250 : body.length ≤ 250) :
    frameStatus (frameTail body) = .good body := by
  simp only [frameStatus, frameTail, List.cons_append, lengthByte_toNat h250]
  rw [if_neg (by omega), if_neg (by simp)]
  simp

/-- A part of a frame's bytes is an incomplete frame. -/
theorem frameStatus_take {body : List Byte} (h2 : 2 ≤ body.length) (h250 : body.length ≤ 250) {k : Nat}
    (hk : k < body.length + 3) : frameStatus ((frameTail body).take k) = .incomplete := by
  cases k with
  | zero => rfl
  | succ k =>
    simp only [frameStatus, frameTail, List.cons_append, List.take_succ_cons, lengthByte_toNat h250]
    rw [if_neg (by omega), if_pos]
    simp only [List.length_take, List.length_append, List.length_cons, List.length_nil]
    omega

/-- A receiver that assembles the first bytes of a frame takes the next. -/
theorem receive_assembling {l : Line} {body : List Byte} {x : LineState} (h2 : 2 ≤ body.length)
    (h250 : body.length ≤ 250) (k : Nat) (hk : k ≤ body.length + 2) :
    ((frameTail body).take k).foldl (fun y b => receive l b y) { x with receiver := .assembling [] }
      = { x with receiver := .assembling ((frameTail body).take k) } := by
  induction k with
  | zero => rfl
  | succ k ih =>
    have hlen : k < (frameTail body).length := by rw [length_frameTail]; omega
    rw [List.take_succ_eq_append_getElem hlen, List.foldl_append, ih (by omega)]
    have hstatus : frameStatus ((frameTail body).take k ++ [(frameTail body)[k]]) = .incomplete := by
      rw [← List.take_succ_eq_append_getElem hlen]
      exact frameStatus_take h2 h250 (by omega)
    simp only [List.foldl_cons, List.foldl_nil, receive, hstatus]

/-- Settles O18, byte by byte: the frame is incomplete until its last byte makes it good. -/
theorem framesAreReceivedWhole : Obligations.FramesAreReceivedWhole := by
  unfold Obligations.FramesAreReceivedWhole
  intro l body x h2 h250 hx
  have hlen : body.length + 2 < (frameTail body).length := by rw [length_frameTail]; omega
  have hall : frameTail body = (frameTail body).take (body.length + 2) ++ [(frameTail body)[body.length + 2]] := by
    rw [← List.take_succ_eq_append_getElem hlen, List.take_of_length_le]
    rw [length_frameTail]
  have hstart : receive l 0xA5 x = { x with receiver := .assembling [] } := by simp [receive, hx]
  rw [frameBytes_eq, List.foldl_cons, hstart]
  conv_lhs => rw [hall]
  rw [List.foldl_append, receive_assembling h2 h250 _ le_rfl]
  have hgood : frameStatus ((frameTail body).take (body.length + 2) ++ [(frameTail body)[body.length + 2]]) = .good body := by
    rw [← hall]
    exact frameStatus_frameTail h2 h250
  simp only [List.foldl_cons, List.foldl_nil, receive, hgood]
  cases x
  simp_all

-- ## The receivers (R158 to R160)

theorem discardFrame_eq (l : Line) (s : State) : discardFrame l s = s.onLine l (fun x => { x with
    receiver := .hunting, badFrames := min (x.badFrames + 1) 65535 }) := rfl

theorem receive_keeps (l : Line) (b : Byte) (x : LineState) :
    (receive l b x).sending = x.sending ∧ (receive l b x).badFrames = x.badFrames := by
  unfold receive
  repeat' split
  all_goals exact ⟨rfl, rfl⟩

/-- A line's record changed is the record of it written anew. -/
theorem onLine_at (l : Line) (f : LineState → LineState) (s : State) :
    s.onLine l (fun _ => f (s.line l)) = s.onLine l f := rfl

/-- Settles O19, by the state of the receiver. -/
theorem receiverFollowsBytes : Obligations.ReceiverFollowsBytes := by
  unfold Obligations.ReceiverFollowsBytes
  refine ⟨fun l b s hq hw => ?_, fun l b s hq hw => ?_, fun l bytes s hr hbad => ?_, fun l s h => ?_,
    fun l gap bytes s hq hw hgap hr => ?_, fun l gap s hq h => ?_⟩
  · obtain ⟨hsending, hbad⟩ := receive_keeps l b (s.line l)
    refine ⟨_, receive l b (s.line l), ?_, effect_says (u := s.onLine l (fun _ => receive l b (s.line l))) (Only.refl _ _)
      (Says.refl _) (by simp), hsending, hbad, ?_⟩
    · rw [exec_frameByte, command_quiet hq, if_pos hw, ← onLine_at]
    · unfold receive
      split
      · next hr =>
        simp only [hr]
        split <;> simp_all
      · next hr =>
        simp only [hr]
        split <;> simp_all
  · exact command_idle hq (exec_frameByte l b s) (by simp [hw])
  · have hx : exec (.badFrame l) s = .next (latchAlarms (discardFrame l s)) := by
      show event (expireFrame l) s = _
      rw [event, expireFrame, if_pos (by simp [LineState.isBad, hr, hbad])]
    exact ⟨_, hx, effect_says (Only.refl _ _) (Says.refl _) (by simp)⟩
  · exact event_idle rfl (by simp [expireFrame, h])
  · have hx : exec (.frameGapTimeout l gap) s = .next (latchAlarms (discardFrame l s)) := by
      rw [exec_frameGapTimeout, command_quiet hq, if_pos ⟨hw, hgap, by simp [hr]⟩]
    exact ⟨_, hx, effect_says (Only.refl _ _) (Says.refl _) (by simp)⟩
  · refine command_idle hq (exec_frameGapTimeout l gap s) ?_
    rw [if_neg]
    rintro ⟨hw, hgap, hr⟩
    rcases h with h | h | h
    · exact absurd hgap (Nat.not_lt.2 h)
    · exact hr h
    · simp [hw] at h

end Sys2Proof.Machine
end

section
/-! PROOFS. Plans and screenings (R3 to R15): the requests carried out. -/

namespace Sys2Proof.Machine

-- ## What the fields read

theorem readFlag_of_le {b : Byte} (h : b.toNat ≤ 1) : readFlag b = some (b == 1) := by
  have : b = 0 ∨ b = 1 := by
    rcases Nat.le_one_iff_eq_zero_or_eq_one.1 h with h | h
    · exact .inl (BitVec.eq_of_toNat_eq h)
    · exact .inr (BitVec.eq_of_toNat_eq h)
  rcases this with rfl | rfl <;> rfl

theorem offset_eq {base k n : Nat} {i : Fin k} (h : n = i.val + base) : offset base k n = some i := by
  subst h
  simp [offset]

theorem readPlan_of_toNat {n : Nat} {i : Fin 12} (h : n = i.val + 1) : readPlan n = some i := offset_eq h

/-- A name with a character other than the space is no padding. -/
theorem planName_ne_nil {bytes : List Byte} (h : ∃ b ∈ bytes, b ≠ 0x20) : planName bytes ≠ [] := by
  obtain ⟨b, hb, hne⟩ := h
  simp only [planName, ne_eq, List.reverse_eq_nil_iff, List.dropWhile_eq_nil_iff, not_forall]
  exact ⟨b, by simpa using hb, by simpa using hne⟩

-- ## LOAD_PLAN and PLAN_ROW (R3, R4)

/-- The fields of a LOAD_PLAN that passes the checks of R3. -/
structure PlanLawful (f : PlanFields) : Prop where
  printable : ∀ b ∈ f.name, 0x20 ≤ b.toNat ∧ b.toNat ≤ 0x7E
  named : ∃ b ∈ f.name, b ≠ 0x20
  orphan : f.orphan.toNat ≤ 1
  wheelchair : f.wheelchair.toNat ≤ 1
  rows : within 1 26 f.rows.toNat
  positions : within 1 40 f.positions.toNat
  bestRow : within 1 f.rows.toNat f.bestRow.toNat
  bestCentre : within 2 (2 * f.positions.toNat) f.bestCentre.toNat

theorem planOk_of_lawful {f : PlanFields} (h : PlanLawful f) : planOk f = true := by
  have hp : f.name.all printable = true := by
    simpa [List.all_eq_true, printable] using h.printable
  simp [planOk, hp, readFlag_of_le h.orphan, readFlag_of_le h.wheelchair]

theorem planInRange_of_lawful {f : PlanFields} (h : PlanLawful f) : planInRange f = true := by
  obtain ⟨hr, hr'⟩ := h.rows
  obtain ⟨hp, hp'⟩ := h.positions
  obtain ⟨hb, hb'⟩ := h.bestRow
  obtain ⟨hc, hc'⟩ := h.bestCentre
  have hne : (planName f.name).isEmpty = false := by simpa using planName_ne_nil h.named
  simp [planInRange, hne, hr, hr', hp, hp', hb, hb', hc, hc']

theorem planHeader_of_lawful {f : PlanFields} (h : PlanLawful f) : planHeader f
    = ⟨planName f.name, f.rows.toNat, f.positions.toNat, f.bestRow.toNat, f.bestCentre.toNat, f.orphan == 1,
      f.wheelchair == 1⟩ := by
  simp [planHeader, readFlag_of_le h.orphan, readFlag_of_le h.wheelchair]

theorem rowFits_of {positions : Nat} {given : List CellFields} (hlen : given.length = positions)
    (hgap : ∀ c ∈ given, c.kind = none → c.aisle = false) (hlast : ∀ c, given.getLast? = some c → c.aisle = false) :
    rowFits positions given = true := by
  have hall : given.all (fun c => c.kind.isSome || !c.aisle) = true := by
    refine List.all_eq_true.2 fun c hc => ?_
    cases hk : c.kind with
    | some k => rfl
    | none => simp [hgap c hc hk]
  have hend : given.getLast?.all (fun c => !c.aisle) = true := by
    cases hl : given.getLast? with
    | none => rfl
    | some c => simp [hlast c hl]
  simp [rowFits, hlen, hall, hend]

/-- Settles O20: the checks passed, a slot is filled anew or gets one row more. -/
theorem plansLoadRowByRow : Obligations.PlansLoadRowByRow := by
  unfold Obligations.PlansLoadRowByRow
  refine ⟨fun src tag f who r s i h hi hchars hname horphan hwheel hrows hpos hrow hcentre hfree => ?_,
    fun src tag plan row cells who r s i hd rows next seats given h hi hload hnext hgiven hlen hgap hlast hseats => ?_⟩
  · have hf : PlanLawful f := ⟨hchars, hname, horphan, hwheel, hrows, hpos, hrow, hcentre⟩
    refine h.answers (u := { hearing (.loadPlan src tag f) r s with
      plans := (hearing (.loadPlan src tag f) r s).plans.set i (.loading (planHeader f) [] 1 0) })
      (fun _ => rfl) rfl (planOk_of_lawful hf) ?_ ((only_plans (by simp)).2 (Only.refl _ _)) (by simp) fun t ht => ?_
    · have hany : s.screenings.any (fun c => c.plan == f.plan.toNat) = false := by simpa using hfree
      simp [readPlan_of_toNat hi, planInRange_of_lawful hf, hany]
    · rw [← planHeader_of_lawful hf, ← hearing_plans (.loadPlan src tag f) r s]
      exact ht .plans (by simp)
  · refine h.answers (u := { hearing (.planRow src tag plan row cells) r s with
      plans := (hearing (.planRow src tag plan row cells) r s).plans.set i (if next = hd.rows
        then .ready hd (rows ++ [given.map CellFields.cell])
        else .loading hd (rows ++ [given.map CellFields.cell]) (next + 1) (seats + seatsIn (given.map CellFields.cell))) })
      (fun _ => rfl) rfl (by simp [hgiven]) ?_ ((only_plans (by simp)).2 (Only.refl _ _)) (by simp) fun t ht => ?_
    · have hroom : ¬Config.maxSeats < seats + seatsIn (given.map CellFields.cell) := Nat.not_lt.2 hseats
      by_cases hr : next = hd.rows
      · simp [readPlan_of_toNat hi, hload, hnext, hgiven, rowFits_of hlen hgap hlast, hroom, hr]
      · simp [readPlan_of_toNat hi, hload, hnext, hgiven, rowFits_of hlen hgap hlast, hroom, hr]
    · rw [← hearing_plans (.planRow src tag plan row cells) r s]
      exact ht .plans (by simp)

-- ## Screenings (R8, R10, R11, R13)

/-- A fresh array has a FREE entry for each seat of its plan. -/
theorem freshGrid_free (rows : List (List Cell)) : ∀ x ∈ Grid.entries (freshGrid rows), x = .free := by
  intro x hx
  simp only [Grid.entries, List.reduceOption_mem_iff, List.mem_flatten] at hx
  obtain ⟨row, hrow, hx⟩ := hx
  obtain ⟨cells, -, rfl⟩ := List.mem_map.1 hrow
  obtain ⟨c, -, hc⟩ := List.mem_map.1 hx
  cases c <;> simp_all

/-- R8: the counts of a fresh array. -/
theorem counts_freshGrid (rows : List (List Cell)) : Grid.counts (freshGrid rows) = ⟨seatCount rows, 0, 0, 0⟩ := by
  have hfree := freshGrid_free rows
  have hlen : (Grid.entries (freshGrid rows)).length = seatCount rows := by
    rw [length_reduceOption_flatten, seatCount_eq, freshGrid_shape]
  have hall : (Grid.entries (freshGrid rows)).countP SeatState.isFree = seatCount rows := by
    rw [← hlen, List.countP_eq_length]
    exact fun x hx => by rw [hfree x hx]; rfl
  have hnone : ∀ p : SeatState → Bool, p .free = false → (Grid.entries (freshGrid rows)).countP p = 0 := fun p hp => by
    rw [List.countP_eq_zero]
    exact fun x hx => by rw [hfree x hx, hp]; simp
  simp [Grid.counts, hall, hnone SeatState.isHeld rfl, hnone SeatState.isSold rfl, hnone SeatState.isBlocked rfl]

/-- R8: every seat of the plan is FREE in a fresh array. -/
theorem freshGrid_at (rows : List (List Cell)) (x : Seat) :
    Grid.at (freshGrid rows) x = (kindAt rows x).map (fun _ => .free) := by
  unfold Grid.at kindAt cellAt freshGrid
  by_cases h : x.1 = 0 ∨ x.2 = 0
  · simp [h]
  · simp only [h, if_false, List.getElem?_map]
    cases rows[x.1 - 1]? with
    | none => rfl
    | some row =>
      simp only [Option.map_some, Option.bind_some, List.getElem?_map]
      cases row[x.2 - 1]? with
      | none => rfl
      | some c => cases c <;> rfl

/-- R10, R11, R13: a request that marks one screening. -/
theorem onScreening_screenings (n : Nat) (f : Screening → Screening) (s : State) : (s.onScreening n f).screenings
    = s.screenings.map (fun k => if k.id = n then f k else k) := by
  simp [State.onScreening]

/-- Settles O21. -/
theorem screeningsLoadAndChangeState : Obligations.ScreeningsLoadAndChangeState := by
  unfold Obligations.ScreeningsLoadAndChangeState
  refine ⟨?_, ?_, ?_, ?_⟩
  · intro src tag f who r s hd rows cls h hset hcls hmat hsales hpresent hid hstart hlate hfree hplan hroom late hopen
    have hlw : lateWindow f = late := by
      simp [lateWindow, readFlag_of_le hpresent, late]
    have hlate30 : late ≤ 30 := by
      show (if f.latePresent = 1 then f.late.toNat else 15) ≤ 30
      split
      · next e => exact hlate e
      · norm_num
    have hidle : 1 ≤ f.id.toNat := by
      rcases Nat.eq_zero_or_pos f.id.toNat with e | e
      · exact absurd (BitVec.eq_of_toNat_eq e) hid
      · exact e
    obtain ⟨i, hi, hready⟩ : ∃ i, readPlan f.plan.toNat = some i ∧ s.plans.get i = .ready hd rows := by
      unfold State.plan at hplan
      split at hplan
      · cases hplan
      · next i hi =>
        refine ⟨i, hi, ?_⟩
        split at hplan
        · cases hplan
          assumption
        · cases hplan
    have hrange : screeningInRange f = true := by
      simp [screeningInRange, hidle, hi, hstart, hlw, hlate30]
    have hclock : ¬(f.start.toNat + late) * 60 ≤ s.clock.value := Nat.not_le.2 hopen
    have hmax : ¬Config.maxScreenings ≤ s.screenings.length := Nat.not_le.2 hroom
    let c : Screening := ⟨f.id.toNat, f.plan.toNat, f.start.toNat, cls, f.matinee == 1, late, f.kioskSales == 1, .loaded,
      ⟨seatCount rows, 0, 0, 0⟩, freshGrid rows⟩
    obtain ⟨t, ht, e⟩ := h.answers (u := { hearing (.loadScreening src tag f) r s with
      screenings := (hearing (.loadScreening src tag f) r s).screenings ++ [c] }) (result := .ok) (fields := [])
      (bs := [.screenings]) (Q := fun t => t.screenings = s.screenings ++ [c]) (fun _ => rfl) rfl
      (by simp [screeningOk, hcls, readFlag_of_le hmat, readFlag_of_le hsales, readFlag_of_le hpresent]) (by
        simp [hset, hrange, hfree, hi, hready, hclock, hmax, hcls, readFlag_of_le hmat, readFlag_of_le hsales, hlw,
          counts_freshGrid, c]) ((only_screenings (by simp)).2 (Only.refl _ _)) (by simp) fun t ht => by
        rw [← hearing_screenings (.loadScreening src tag f) r s]
        exact ht .screenings (by simp)
    exact ⟨t, freshGrid rows, ht, e, freshGrid_at rows⟩
  · intro src tag id target who r s c st h hc hopen htarget
    have hread : readTarget target = some st := by
      rcases htarget with ⟨rfl, rfl⟩ | ⟨rfl, rfl, -⟩ <;> rfl
    have hok : ¬(c.state = .closed ∨ c.state = .loaded ∧ st = .paused) := by
      rintro (e | ⟨e, e'⟩)
      · exact hopen e
      · rcases htarget with ⟨-, rfl⟩ | ⟨-, -, hl⟩
        · cases e'
        · exact hl e
    refine h.answers (u := (hearing (.setScreening src tag id target) r s).onScreening id.toNat
      (fun c => { c with state := st })) (fun _ => rfl) rfl (by simp [hread]) ?_ ((only_onScreening (by simp)).2 (Only.refl _ _))
      (by simp) fun t ht => ?_
    · simp [hc, hread, hok]
    · rw [← hearing_screenings (.setScreening src tag id target) r s, ← onScreening_screenings]
      exact ht .screenings (by simp)
  · intro src tag id value who r s c h hc hopen hvalue
    refine h.answers (u := (hearing (.setKioskSales src tag id value) r s).onScreening id.toNat
      (fun c => { c with kioskSales := value == 1 })) (fun _ => rfl) rfl (by simp [readFlag_of_le hvalue]) ?_
      ((only_onScreening (by simp)).2 (Only.refl _ _)) (by simp) fun t ht => ?_
    · simp [hc, hopen]
    · rw [← hearing_screenings (.setKioskSales src tag id value) r s, ← onScreening_screenings]
      exact ht .screenings (by simp)
  · intro src tag id who r s c h hc
    refine h.answers (u := (hearing (.closeScreening src tag id) r s).onScreening id.toNat
      (fun c => { c with state := .closed })) (fun _ => rfl) rfl rfl ?_
      ((only_onScreening (by simp)).2 (Only.refl _ _)) (by simp) fun t ht => ?_
    · simp [hc, Counts.bytes]
    · rw [← hearing_screenings (.closeScreening src tag id) r s, ← onScreening_screenings]
      exact ht .screenings (by simp)

-- ## ARCHIVE (R14, R15)

/-- One unit moved for each of a list is as many units moved at once. -/
theorem Stock.move_move (p q : Place) (hpq : p ≠ q) (m n : Nat) (k : Stock) :
    Stock.move p q m (Stock.move p q n k) = Stock.move p q (n + m) k := by
  cases p <;> cases q <;> simp_all [Stock.move, Stock.put, Stock.at] <;> omega

/-- What a list of one-unit moves does to the stock of a kind. -/
theorem moveEach_stock (p q : Place) (hpq : p ≠ q) (vs : List Voucher) (s : State) (k : Fin 8) :
    (moveEach p q vs s).vouchers.stock.get k
      = Stock.move p q (vs.countP (fun v => v.kind == k)) (s.vouchers.stock.get k) := by
  induction vs generalizing s with
  | nil => cases p <;> cases q <;> simp [moveEach, Stock.move, Stock.put, Stock.at]
  | cons v vs ih =>
    have hstep : moveEach p q (v :: vs) s = moveEach p q vs (moveStock v.kind p q 1 s) := rfl
    rw [hstep, ih]
    simp only [moveStock, State.onStock, Tab.modify, Tab.get_set, List.countP_cons, beq_iff_eq]
    by_cases h : v.kind = k
    · subst h
      simp [Stock.move_move p q hpq, Nat.add_comm]
    · simp [h]

theorem settleVouchers_records (p : Voucher → Bool) (st : VoucherState) (q : Place) (s : State) :
    (settleVouchers p st q s).vouchers.records
      = s.vouchers.records.map (fun v => if p v then { v with state := st } else v) := by
  have hmoves : ∀ (vs : List Voucher) (u : State),
      (moveEach .outstanding q vs u).vouchers.records = u.vouchers.records := fun vs u => by
    unfold moveEach
    exact List.foldlRecOn (motive := fun w : State => w.vouchers.records = u.vouchers.records) vs _ rfl
      fun w hw v _ => hw
  unfold settleVouchers
  rw [hmoves]
  rfl

theorem settleVouchers_serial (p : Voucher → Bool) (st : VoucherState) (q : Place) (s : State) :
    (settleVouchers p st q s).vouchers.serial = s.vouchers.serial := by
  unfold settleVouchers moveEach
  exact List.foldlRecOn (motive := fun w : State => w.vouchers.serial = s.vouchers.serial) _ _ rfl fun w hw v _ => hw

theorem settleVouchers_stock (p : Voucher → Bool) (st : VoucherState) {q : Place} (hq : q ≠ .outstanding) (s : State)
    (k : Fin 8) : (settleVouchers p st q s).vouchers.stock.get k
      = Stock.move .outstanding q (s.vouchers.records.countP (fun v => p v && v.kind == k)) (s.vouchers.stock.get k) := by
  unfold settleVouchers
  rw [moveEach_stock _ _ hq.symm, List.countP_filter]
  congr 1
  exact List.countP_congr fun v _ => by simp [and_comm]

/-- R15: lapsed or not, the records of the screening go. -/
theorem settleVouchers_filter (n : Nat) (s : State) :
    (removeVouchers n (lapseScreening n s)).vouchers.records = s.vouchers.records.filter (fun v => v.screening != n) := by
  simp only [removeVouchers, lapseScreening, lapse, settleVouchers_records, List.filter_map]
  have hscreening : ((fun v : Voucher => v.screening != n) ∘ fun v : Voucher =>
      if (v.state == .issued && v.screening == n) = true then { v with state := .lapsed } else v)
        = fun v => v.screening != n := by
    funext v
    simp only [Function.comp_apply]
    split <;> rfl
  rw [hscreening]
  conv_rhs => rw [← List.map_id (s.vouchers.records.filter _)]
  refine List.map_congr_left fun v hv => ?_
  have hne : (v.screening == n) = false := by simpa using (List.mem_filter.1 hv).2
  simp [hne]

theorem only_removed (n : Nat) (s : State) : Only [.vouchers] s (removeVouchers n (lapseScreening n s)) := by
  simp [removeVouchers]

theorem archiveScreening_screenings (n : Nat) (s : State) :
    (archiveScreening n s).screenings = s.screenings.filter (fun c => c.id != n) :=
  congrArg (List.filter _) (only_removed n s .screenings (by simp))

theorem archiveScreening_sales (n : Nat) (s : State) : (archiveScreening n s).sales
    = { s.sales with records := s.sales.records.filter (fun k => k.screening != n) } :=
  congrArg (fun x : SaleTable => { x with records := x.records.filter (fun k => k.screening != n) })
    (only_removed n s .sales (by simp))

theorem removed_stock (n : Nat) (s : State) (k : Fin 8) :
    (removeVouchers n (lapseScreening n s)).vouchers.stock.get k = Stock.move .outstanding .available
      (s.vouchers.records.countP (fun v => v.screening == n && v.state == .issued && v.kind == k))
      (s.vouchers.stock.get k) := by
  refine (settleVouchers_stock (fun v => v.state == .issued && v.screening == n) .lapsed (by simp) s k).trans ?_
  congr 1
  exact List.countP_congr fun v _ => by simp [and_comm]

/-- Settles O22: the ISSUED vouchers lapse, and the records go. -/
theorem archiveRemovesRecords : Obligations.ArchiveRemovesRecords := by
  unfold Obligations.ArchiveRemovesRecords
  intro src tag id who r s c h hc hclosed hbaskets hsales
  have hlive : s.liveBaskets.any (fun x => x.2.screening == id.toNat) = false := by
    rw [List.any_eq_false]
    rintro ⟨i, b⟩ hb
    simpa using hbaskets i b ((mem_liveBaskets s i b).1 hb)
  have hpending : s.sales.records.any (fun k => k.screening == id.toNat && k.state == .refundPending) = false := by
    rw [List.any_eq_false]
    intro k hk
    simpa using hsales k hk
  obtain ⟨u, hu⟩ : ∃ u, u = hearing (.archive src tag id) r s := ⟨_, rfl⟩
  refine h.answers (u := archiveScreening id.toNat u) (fun _ => rfl) rfl rfl ?_ ?_ (by simp) fun t ht => ?_
  · rw [hu]
    simp [hc, hclosed, hlive, hpending]
  · rw [hu]
    exact (only_archiveScreening (by simp)).2 (Only.refl _ _)
  · have hv : t.vouchers = (removeVouchers id.toNat (lapseScreening id.toNat u)).vouchers := ht .vouchers (by simp)
    have hvu : u.vouchers = s.vouchers := hu ▸ hearing_vouchers _ r s
    have hsu : u.screenings = s.screenings := hu ▸ hearing_screenings _ r s
    have hsa : u.sales = s.sales := hu ▸ hearing_sales _ r s
    refine ⟨?_, ?_, ?_, ?_, fun k => ?_⟩
    · rw [← hsu, ← archiveScreening_screenings]
      exact ht .screenings (by simp)
    · rw [← hsa, ← archiveScreening_sales]
      exact ht .sales (by simp)
    · rw [hv, ← hvu]
      exact settleVouchers_filter id.toNat u
    · rw [hv, ← hvu]
      exact settleVouchers_serial _ _ _ u
    · rw [hv, ← hvu, removed_stock]

end Sys2Proof.Machine
end

section
/-! PROOFS. The queries (R29, R85, R131, R174, R175): what they answer, and that they change nothing. -/

namespace Sys2Proof.Machine

/-- A request heard, whether its fields are well formed or not. -/
theorem Heard.exec_eq_or {i : Instr} {who : Requester} {r : Reply} {s : State} {src : Link} {tag kind : Byte} {ok : Bool}
    {run : Requester → Reply → State → State} (h : Heard i who r s)
    (hx : ∀ s, exec i s = request i src tag kind ok run s) (hi : requestOf i = some (src, tag, kind)) :
    exec i s = .next (latchAlarms (run who r (hearing i r s)))
      ∨ exec i s = .next (latchAlarms (answer r .badRequest [] (hearing i r s))) := by
  obtain ⟨hreq, hq, hw, ha⟩ := h
  obtain ⟨rfl, rfl, rfl⟩ : r.link = src ∧ r.tag = tag ∧ r.kind = kind := by simpa [hi, eq_comm] using hreq
  have hheard := request_heard (i := i) (ok := ok) (run := run) hq hw ha
  rw [hx, hheard]
  cases ok
  · exact .inr rfl
  · exact .inl rfl

/-- A query's run is its answer alone. -/
theorem asks_run {i : Instr} (h : asks i = true) : ∃ src tag kind ok run, requestOf i = some (src, tag, kind)
    ∧ (∀ s, exec i s = request i src tag kind ok run s)
    ∧ ∀ who r u, ∃ result fields, run who r u = answer r result fields u := by
  cases i <;> simp only [asks, Bool.false_eq_true] at h
  case queryScreening =>
    refine ⟨_, _, _, _, _, rfl, fun _ => rfl, fun who r u => ?_⟩
    split <;> exact ⟨_, _, rfl⟩
  case queryClock => exact ⟨_, _, _, _, _, rfl, fun _ => rfl, fun who r u => ⟨_, _, rfl⟩⟩
  case queryBasket =>
    refine ⟨_, _, _, _, _, rfl, fun _ => rfl, fun who r u => ?_⟩
    dsimp only
    split
    · exact ⟨_, _, rfl⟩
    · split <;> exact ⟨_, _, rfl⟩
  case queryPrices =>
    refine ⟨_, _, _, _, _, rfl, fun _ => rfl, fun who r u => ?_⟩
    split <;> exact ⟨_, _, rfl⟩
  case querySale =>
    refine ⟨_, _, _, _, _, rfl, fun _ => rfl, fun who r u => ?_⟩
    split <;> exact ⟨_, _, rfl⟩
  case check =>
    refine ⟨_, _, _, _, _, rfl, fun _ => rfl, fun who r u => ?_⟩
    dsimp only [onVoucher]
    repeat' split
    all_goals exact ⟨_, _, rfl⟩
  case queryVoucher =>
    refine ⟨_, _, _, _, _, rfl, fun _ => rfl, fun who r u => ?_⟩
    dsimp only [onVoucher]
    repeat' split
    all_goals exact ⟨_, _, rfl⟩
  case queryStock => exact ⟨_, _, _, _, _, rfl, fun _ => rfl, fun who r u => ⟨_, _, rfl⟩⟩
  case queryLine =>
    refine ⟨_, _, _, _, _, rfl, fun _ => rfl, fun who r u => ?_⟩
    split <;> exact ⟨_, _, rfl⟩

theorem asks_answers {i : Instr} {who : Requester} {r : Reply} {s : State} (ha : asks i = true) (h : Heard i who r s) :
    ∃ result fields t, Answers i r result fields [] s t := by
  obtain ⟨src, tag, kind, ok, run, hi, hx, hrun⟩ := asks_run ha
  rcases h.exec_eq_or hx hi with e | e
  · obtain ⟨result, fields, hr⟩ := hrun who r (hearing i r s)
    exact ⟨result, fields, answers_unchanged (hr ▸ e)⟩
  · exact ⟨_, _, answers_unchanged e⟩

/-- A code that is read, agrees and names a live voucher. -/
theorem onVoucher_eq {code : BitVec 40} {c : Nat} {v : Voucher} {r : Reply} {f : Voucher → State → State} {u : State}
    (hc : readCode code = some c) (ha : checkAgrees c = true) (hv : u.voucher c = some v) : onVoucher code r f u = f v u := by
  simp [onVoucher, hc, ha, hv]

theorem countP_liveBaskets (p : Basket → Bool) (s : State) : s.liveBaskets.countP (fun x => p x.2)
    = (indices 16).countP (fun i => (s.baskets.get i).any p) := by
  unfold State.liveBaskets
  rw [List.countP_filterMap]
  refine List.countP_congr fun i _ => ?_
  cases s.baskets.get i <;> simp

/-- R162: what a kiosk link is admitted for is a kind of its list. -/
theorem admitted_kiosk {s : State} {n : Fin 8} {tag kind : Byte} {sized : Bool} {who : Requester}
    (h : s.admission (.kiosk n) tag kind sized = .admitted who) : kind ∈ kioskKinds := by
  by_contra hk
  rw [admission_kiosk] at h
  split at h
  · cases h
  · repeat' split at h
    all_goals cases h

theorem admitted_concession {s : State} {n : Fin 4} {tag kind : Byte} {sized : Bool} {who : Requester}
    (h : s.admission (.concession n) tag kind sized = .admitted who) : kind = 0x34 ∨ kind = 0x35 := by
  by_contra hk
  rw [admission_concession] at h
  repeat' split at h
  all_goals cases h
  tauto

/-- R162: only the office may send QUERY_LINE. -/
theorem Heard.queryLine_office {src : Link} {tag line : Byte} {who : Requester} {r : Reply} {s : State}
    (h : Heard (.queryLine src tag line) who r s) : r.link = .office := by
  obtain ⟨hreq, -, -, ha⟩ := h
  simp only [requestOf, Option.some.injEq, Prod.mk.injEq] at hreq
  obtain ⟨-, -, hkind⟩ := hreq
  rw [← hkind] at ha
  cases hl : r.link with
  | office => rfl
  | kiosk n =>
    rw [hl] at ha
    have hmem := admitted_kiosk ha
    simp [kioskKinds] at hmem
  | concession n =>
    rw [hl] at ha
    have hmem := admitted_concession ha
    simp at hmem

/-- A request of the office runs with its message taken and its own tag last. -/
theorem hearing_office {i : Instr} {r : Reply} {s : State} (h : r.link = .office) :
    ∃ ls, hearing i r s = { s with ifc := { s.ifc with lines := ls, office := s.ifc.office ++ [⟨r.kind, r.tag⟩] } } := by
  obtain ⟨ls, e⟩ := takeMessage_ifc r.link.line i s
  refine ⟨ls, ?_⟩
  unfold hearing
  rw [e, h]
  rfl

theorem voucherBytes_hearing (v : Voucher) (i : Instr) (r : Reply) (s : State) :
    voucherBytes v (hearing i r s) = voucherBytes v s := by
  simp [voucherBytes, windowOpening, windowEnd]

theorem hearing_receiver (i : Instr) (r : Reply) (s : State) (l : Line) :
    ((hearing i r s).line l).receiver = (s.line l).receiver := (sent_hearing i r s l).receiver

theorem hearing_badFrames (i : Instr) (r : Reply) (s : State) (l : Line) :
    ((hearing i r s).line l).badFrames = (s.line l).badFrames := (sent_hearing i r s l).badFrames

/-- A query of the office finds every other line as it was. -/
theorem lineBytes_hearing {i : Instr} {r : Reply} {s : State} {l : Line} (h : r.link = .office) (hl : l ≠ .ol) :
    (hearing i r s).lineBytes l = s.lineBytes l := by
  simp only [State.lineBytes, hearing_receiver, hearing_badFrames]
  obtain ⟨ls, e⟩ := hearing_office (i := i) (s := s) h
  rw [e]
  cases l with
  | ol => exact absurd rfl hl
  | kl n => rfl
  | cl n => rfl
  | pl n => rfl
  | tl n => rfl

/-- A query of OL finds its own tag last. -/
theorem lineBytes_ol {i : Instr} {r : Reply} {s : State} (h : r.link = .office) : (hearing i r s).lineBytes .ol
    = [0x40, if (s.line .ol).receiver = .hunting then 1 else 2] ++ bytes2 (s.line .ol).badFrames
      ++ bytes1 (s.ifc.office.length + 1) ++ (s.ifc.office.map (fun o => o.tag) ++ [r.tag]) := by
  simp only [State.lineBytes, hearing_receiver, hearing_badFrames]
  obtain ⟨ls, e⟩ := hearing_office (i := i) (s := s) h
  have hreceiver : bytes1 (if (s.line .ol).receiver = .hunting then 1 else 2)
      = [if (s.line .ol).receiver = .hunting then 1 else 2] := by split <;> rfl
  rw [e, hreceiver]
  simp [listBytes, lineByte, List.map_eq_flatMap]

/-- Settles O23. -/
theorem queriesReportAndChangeNothing : Obligations.QueriesReportAndChangeNothing := by
  unfold Obligations.QueriesReportAndChangeNothing
  refine ⟨fun i who r s ha h => asks_answers ha h, ?_, ?_, ?_, ?_, ?_, ?_, ?_, ?_, ?_, ?_⟩
  · intro src tag who r s h
    refine h.answers_only (fun _ => rfl) rfl rfl ?_
    rw [hearing_clockBytes]
    have hset : bytes1 (if s.clock.isSet then 2 else 1) = [if s.clock.isSet then 2 else 1] := by
      split <;> rfl
    have hruns : bytes1 (if s.clockRuns then 1 else 2) = [if s.clock.value < 172799 then 1 else 2] := by
      have e : s.clockRuns = decide (s.clock.value < 172799) := rfl
      by_cases hv : s.clock.value < 172799 <;> simp [e, hv, bytes1]
    rw [State.clockBytes, hset, hruns]
  · intro src tag id who r s c h hc name baskets sales
    refine h.answers_only (fun _ => rfl) rfl rfl ?_
    simp [hc, nameBytes, Counts.bytes, countP_liveBaskets (fun b => b.screening == c.id), name, baskets, sales]
  · intro src tag slot present ref who r s i h hi hpresent
    refine ⟨fun hnamed => ?_, fun hp hne => ?_⟩
    · refine h.answers_only (fun _ => rfl) rfl (by rw [readFlag_of_le hpresent]; rfl) ?_
      rw [readSlot_of_toNat hi]
      have hfits : present = 0 ∨ (s.baskets.get i).any (fun b => b.ref == ref.toNat) = true := by
        rcases hnamed with e | ⟨b, hb, href⟩
        · exact .inl e
        · exact .inr (by simp [hb, href])
      simp only [hearing_baskets]
      rw [if_pos hfits]
      cases s.baskets.get i <;> rfl
    · refine h.answers_only (fun _ => rfl) rfl (by rw [readFlag_of_le hpresent]; rfl) ?_
      rw [readSlot_of_toNat hi]
      simp only [hearing_baskets]
      rw [if_neg]
      rintro (e | e)
      · rw [hp] at e
        exact absurd e (by decide)
      · obtain ⟨b, hb, href⟩ := (Option.any_eq_true _ _).1 e
        exact hne b hb (by simpa using href)
  · intro src tag n who r s k h hk
    exact h.answers_only (fun _ => rfl) rfl rfl (by simp [hk])
  · intro src tag code who r s c v h hc ha hv
    refine h.answers_only (fun _ => rfl) rfl (by rw [hc]; rfl) ?_
    rw [onVoucher_eq hc ha (by rw [hearing_voucher, hv]), voucherBytes_hearing]
  · intro src tag code who r s c v h hc ha hv
    refine h.answers_only (fun _ => rfl) rfl (by rw [hc]; rfl) ?_
    rw [onVoucher_eq hc ha (by rw [hearing_voucher, hv]), voucherBytes_hearing, hearing_windowOpen]
    have hflag : flagByte (v.state == .issued && s.windowOpen v) = [if v.state = .issued
        ∧ (s.startOf v.screening - s.params.windowBefore) * 60 ≤ s.clock.value then 1 else 0] := by
      have hopen : s.windowOpen v = decide ((s.startOf v.screening - s.params.windowBefore) * 60 ≤ s.clock.value) := rfl
      simp only [flagByte, hopen, Bool.and_eq_true, beq_iff_eq, decide_eq_true_eq]
    rw [hflag]
  · intro src tag who r s h
    exact h.answers_only (fun _ => rfl) rfl rfl (by simp)
  · intro src tag line l who r s h hl hne
    refine h.answers_only (fun _ => rfl) rfl rfl ?_
    simp only [hl]
    rw [lineBytes_hearing h.queryLine_office hne]
  · intro src tag who r s h
    refine h.answers_only (fun _ => rfl) rfl rfl ?_
    have hol : readLine 0x40 = some (.line .ol) := by decide
    simp only [hol]
    rw [lineBytes_ol h.queryLine_office]
  · intro src tag bank who r s h hb
    refine h.answers_only (fun _ => rfl) rfl rfl ?_
    obtain ⟨h1, h3⟩ := hb
    rw [if_neg (by omega), hearing_prices]

end Sys2Proof.Machine
end

section
/-! PROOFS. The show clock: what a minute check sends and changes (O24 to O27). -/

namespace Sys2Proof.Machine

-- ## Orders left open

/-- An order left open is a permutation. -/
theorem arrangeFrom_perm {α : Type} (c n : Nat) (l : List α) : (arrangeFrom c n l).Perm l := by
  induction n generalizing c l with
  | zero => exact .refl l
  | succ n ih =>
    unfold arrangeFrom
    split
    · exact .refl l
    · dsimp only
      split
      · exact .refl l
      · next x hx =>
        obtain ⟨hi, rfl⟩ := List.getElem?_eq_some_iff.1 hx
        exact ((ih (c + 1) _).cons _).trans (List.getElem_cons_eraseIdx_perm hi)

theorem arranged_perm {α : Type} (s : State) (l : List α) : (s.arranged l).Perm l := arrangeFrom_perm _ _ l

/-- A permutation of images is the list of images of a permutation. -/
theorem exists_eq_map_of_perm {α β : Type} {f : α → β} {l : List β} {k : List α} (h : l.Perm (k.map f)) :
    ∃ d : List α, l = d.map f ∧ d.Perm k := by
  have hcomp := List.eq_map_comp_perm f
  have hl : Relation.Comp (fun x y => x = List.map f y) List.Perm l k := by
    rw [hcomp]
    exact h
  exact hl

theorem on_nil (l : Line) : on l [] = nothing := by
  funext k
  simp [on, nothing]

theorem after_on (l : Line) (a b : List Frame) : after (on l a) (on l b) = on l (a ++ b) := by
  funext k
  unfold after on
  split <;> simp

-- ## An activation (R80, R81)

section
variable {set : PriceSet} {b : PriceBook} {k q : Bank}

/-- Into an empty book. -/
theorem activate_first (h : b.active = none) :
    b.activate set = (b.enter set b.retained, .completed b.freshGeneration none) := by
  simp only [PriceBook.activate, h]

/-- Where no basket is counted by ACTIVE. -/
theorem activate_discards (h : b.active = some k) (hcount : k.count = 0) :
    b.activate set = (b.enter set b.retained, .completed b.freshGeneration (some k.generation)) := by
  simp only [PriceBook.activate, h, if_pos hcount]

/-- Where the old ACTIVE set moves to RETAINED. -/
theorem activate_retains (h : b.active = some k) (hcount : k.count ≠ 0) (hret : b.retained = none) :
    b.activate set = (b.enter set (some k), .completed b.freshGeneration none) := by
  simp only [PriceBook.activate, h, if_neg hcount, hret]

/-- Where both banks are in use. -/
theorem activate_defers (h : b.active = some k) (hcount : k.count ≠ 0) (hret : b.retained = some q) :
    b.activate set = ({ b with staged := { b.staged with waiting := true } }, .deferred) := by
  simp only [PriceBook.activate, h, if_neg hcount, hret]

end

theorem activated_activate (set : PriceSet) (b : PriceBook) :
    Activated set b (b.activate set).1 ((b.activate set).2.bytes (b.activate set).1) := by
  refine ⟨fun hnone => ?_, fun k hk hcount => ?_, fun k hk hcount hret => ?_, fun k q hk hcount hret => ?_⟩
  · rw [activate_first hnone]
    exact ⟨rfl, rfl⟩
  · rw [activate_discards hk hcount]
    exact ⟨rfl, rfl⟩
  · rw [activate_retains hk hcount hret]
    exact ⟨rfl, rfl⟩
  · rw [activate_defers hk hcount hret]
    exact ⟨rfl, by rw [← hret]; rfl⟩

-- ## Minute checks (R12, R24, R82, R133)

theorem closesAt_iff (c : Screening) (v : Nat) :
    c.closesAt v = true ↔ c.state ≠ .closed ∧ (c.start + c.late) * 60 ≤ v := by
  rw [Screening.closesAt, Screening.closeTime, Bool.and_eq_true, decide_eq_true_eq, bne_iff_ne]

theorem startOf_congr {s u : State} (h : u.screenings = s.screenings.map (fun c =>
    if c.closesAt v then { c with state := .closed } else c)) (id : Nat) : u.startOf id = s.startOf id := by
  unfold State.startOf State.screening
  rw [h, List.find?_map]
  have hid : ((fun c : Screening => c.id == id) ∘ fun c : Screening =>
      if c.closesAt v then { c with state := .closed } else c) = fun c => c.id == id := by
    funext c
    simp only [Function.comp_apply]
    split <;> rfl
  rw [hid]
  cases s.screenings.find? (fun c => c.id == id) with
  | none => rfl
  | some c =>
    simp only [Option.map_some, Option.elim]
    split <;> rfl

/-- The notices of the screenings closed, in their order. -/
theorem foldl_screeningClosed_says (l : List Screening) (u : State) :
    Says (on .ol (l.map closedFrame)) u (l.foldl (fun s c => screeningClosed c s) u) := by
  induction l generalizing u with
  | nil =>
    rw [List.map_nil, on_nil]
    exact .refl u
  | cons c l ih =>
    have h := (says_notifyOffice 0xE7 (bytes2 c.id ++ c.counts.bytes) u).trans (ih (screeningClosed c u))
    rw [after_on] at h
    have hframe : noticeFrame 0xE7 (bytes2 c.id ++ c.counts.bytes) = closedFrame c := by
      simp [closedFrame, Counts.bytes]
    rwa [hframe] at h

theorem foldl_screeningClosed_only (l : List Screening) (u : State) :
    Only [.lines] u (l.foldl (fun s c => screeningClosed c s) u) :=
  Only.foldl _ (fun w c => by simp) l u

/-- R82: what the price unit does in a minute check where a set is due. -/
theorem minutePrices_due {s : State} {v m : Nat} {set : PriceSet} (hmode : s.prices.mode = .atMinute m)
    (hstate : s.prices.staged.state = .complete) (hset : s.prices.staged.whole = some set) (hv : m * 60 ≤ v) :
    minutePrices v s = notifyPrices 1 (s.prices.activate set).2 { s with prices := (s.prices.activate set).1 } := by
  simp only [minutePrices, hmode, hstate, hset, if_pos hv]

/-- A complete set staged is a whole set. -/
theorem whole_of_complete {t : Staged} (h : t.state = .complete) : ∃ set, t.whole = some set := by
  obtain ⟨tickets, surcharges, combos, rates, waiting⟩ := t
  cases tickets <;> cases surcharges <;> cases combos <;> cases rates <;> cases waiting <;>
    simp_all [Staged.state, Staged.marks, Staged.whole]

/-- R24: what is swept before the notices. -/
theorem minuteSwept_only (v : Nat) (s : State) : Only [.screenings, .vouchers] s (minuteSwept v s) := by
  unfold minuteSwept
  exact (show Only [.screenings, .vouchers] s { s with screenings := _ } by simp).trans
    ((only_minuteVouchers (bs := [.screenings, .vouchers]) (by simp)).2 (Only.refl _ _))

/-- R12, R82: the acts of a minute check, in whatever order, send their notices and activate a timed set. -/
theorem foldl_minuteActs {v : Nat} {s u : State} {acts : List (State → State)} (hp : acts.Perm (minuteActs v s))
    (hu : u.prices = s.prices) : ∃ told act, Says (on .ol told) u (acts.foldl (fun s f => f s) u)
      ∧ told.Perm ((s.screenings.filter (fun c => c.closesAt v)).map closedFrame ++ act)
      ∧ Timed v act s (acts.foldl (fun s f => f s) u) := by
  have hswept : (minuteSwept v s).prices = s.prices := minuteSwept_only v s .prices (by simp)
  have hclosing : ∀ d : List Screening, ∀ w : State,
      (d.map screeningClosed).foldl (fun s f => f s) w = d.foldl (fun s c => screeningClosed c s) w := fun d w => by
    rw [List.foldl_map]
  have hdue_eq : (minuteSwept v s).pricesDue v = s.pricesDue v := by
    unfold State.pricesDue
    rw [hswept]
  unfold minuteActs at hp
  rw [hdue_eq] at hp
  by_cases hdue : s.pricesDue v = true
  · have hdue' := hdue
    unfold State.pricesDue at hdue'
    split at hdue'
    · next m hmode =>
      rw [Bool.and_eq_true, decide_eq_true_eq, beq_iff_eq] at hdue'
      obtain ⟨hstate, hv⟩ := hdue'
      obtain ⟨set, hset⟩ := whole_of_complete hstate
      rw [if_pos hdue] at hp
      obtain ⟨before, later, rfl⟩ := List.append_of_mem (hp.mem_iff.2 (by simp : minutePrices v ∈ _))
      have hrest : (before ++ later).Perm ((s.screenings.filter (fun c => c.closesAt v)).map screeningClosed) :=
        (List.perm_cons _).1 (List.perm_middle.symm.trans (hp.trans (List.perm_append_singleton _ _)))
      obtain ⟨d, hd, hperm⟩ := exists_eq_map_of_perm hrest
      obtain ⟨d₁, d₂, rfl, rfl, rfl⟩ := List.append_eq_map_iff.1 hd
      rw [List.foldl_append, List.foldl_cons, hclosing, hclosing]
      have h₁ := foldl_screeningClosed_says d₁ u
      have hp₁ : (d₁.foldl (fun s c => screeningClosed c s) u).prices = s.prices :=
        (foldl_screeningClosed_only d₁ u .prices (by simp)).trans hu
      rw [minutePrices_due (by rw [hp₁]; exact hmode) (by rw [hp₁]; exact hstate) (by rw [hp₁]; exact hset) hv, hp₁]
      generalize d₁.foldl (fun s c => screeningClosed c s) u = u₁ at h₁
      have h₂ : Says (on .ol [noticeFrame 0xE8 (bytes1 1 ++ (s.prices.activate set).2.bytes (s.prices.activate set).1)])
          u₁ (notifyPrices 1 (s.prices.activate set).2 { u₁ with prices := (s.prices.activate set).1 }) :=
        Says.after_only (t := { u₁ with prices := (s.prices.activate set).1 }) (bs := [.prices])
          (says_notifyOffice _ _ _) (by simp) (by simp)
      have hq : (notifyPrices 1 (s.prices.activate set).2 { u₁ with prices := (s.prices.activate set).1 }).prices
          = (s.prices.activate set).1 := rfl
      generalize notifyPrices 1 (s.prices.activate set).2 { u₁ with prices := (s.prices.activate set).1 } = u₂ at h₂ hq
      have h := (h₁.trans h₂).trans (foldl_screeningClosed_says d₂ u₂)
      rw [after_on, after_on] at h
      refine ⟨_, [noticeFrame 0xE8 (1 :: (s.prices.activate set).2.bytes (s.prices.activate set).1)], h, ?_, ?_, ?_⟩
      · have hmap := (hperm.map closedFrame)
        rw [List.map_append] at hmap
        rw [List.append_assoc]
        refine (List.perm_middle (l₁ := d₁.map closedFrame)).trans ?_
        exact (hmap.cons _).trans (List.perm_append_singleton _ _).symm
      · intro m' set' hm hs' hset' hv'
        rw [hset] at hset'
        cases hset'
        refine ⟨_, rfl, ?_⟩
        rw [(foldl_screeningClosed_only d₂ u₂ .prices (by simp) :), hq]
        exact activated_activate set s.prices
      · intro hlate
        exact absurd (hlate m hmode hstate) (by omega)
    · simp at hdue'
  · rw [if_neg hdue, List.append_nil] at hp
    obtain ⟨d, rfl, hperm⟩ := exists_eq_map_of_perm hp
    rw [hclosing]
    refine ⟨_, [], foldl_screeningClosed_says d u, ?_, ?_, fun _ => ⟨rfl, ?_⟩⟩
    · rw [List.append_nil]
      exact hperm.map closedFrame
    · intro m set hmode hstate hset hv
      exact absurd (by simp [State.pricesDue, hmode, hstate, hv]) hdue
    · exact (foldl_screeningClosed_only d u .prices (by simp)).trans hu

/-- R24: a minute check. -/
theorem minuteCheck_checks (v : Nat) (s : State) :
    ∃ told, Says (on .ol told) s (minuteCheck v s) ∧ Checked True v told s (minuteCheck v s) := by
  have honly := minuteSwept_only v s
  have hspend : Only [.choice] (minuteSwept v s) ((minuteSwept v s).spend (minuteActs v s).length) := by simp
  obtain ⟨told, act, hsays, hperm, htimed⟩ := foldl_minuteActs (u := (minuteSwept v s).spend (minuteActs v s).length)
    (arranged_perm (minuteSwept v s) (minuteActs v s))
    ((hspend .prices (by simp)).trans (honly .prices (by simp)))
  rw [← minuteCheck_eq] at hsays htimed
  have hvouchers : (minuteCheck v s).vouchers = (minuteSwept v s).vouchers := minuteCheck_only v s .vouchers (by simp)
  have hend : ∀ x : Voucher, decide ((State.windowEndClock { s with screenings := s.screenings.map (fun c =>
      if c.closesAt v then { c with state := .closed } else c) } x) ≤ v)
        = decide ((s.startOf x.screening + s.params.windowAfter) * 60 ≤ v) := fun x => by
    unfold State.windowEndClock windowEnd
    rw [startOf_congr (s := s) (v := v) rfl]
  refine ⟨told, (hsays.after_only hspend (by simp)).after_only honly (by simp), fun _ => ⟨?_, ?_, ?_, fun k => ?_, act, ?_, htimed⟩,
    fun h => absurd trivial h⟩
  · rw [minuteCheck_screenings]
    refine List.map_congr_left fun c _ => ?_
    simp only [closesAt_iff]
  · rw [hvouchers]
    refine (settleVouchers_records _ _ _ _).trans (List.map_congr_left fun x _ => ?_)
    simp only [hend, Bool.and_eq_true, beq_iff_eq, decide_eq_true_eq]
  · rw [hvouchers]
    exact settleVouchers_serial _ _ _ _
  · rw [hvouchers]
    refine (settleVouchers_stock _ _ (by simp) _ k).trans ?_
    refine congrArg (fun n => Stock.move .outstanding .available n (s.vouchers.stock.get k)) ?_
    refine List.countP_congr fun x _ => ?_
    simp only [hend, Bool.and_eq_true, beq_iff_eq, decide_eq_true_eq]
    tauto
  · have hf : (s.screenings.filter (fun c => c.closesAt v))
        = s.screenings.filter (fun c => c.state ≠ .closed ∧ (c.start + c.late) * 60 ≤ v) :=
      List.filter_congr fun c _ => by
        rw [Bool.eq_iff_iff, closesAt_iff, decide_eq_true_eq]
    rw [← hf]
    exact hperm

section
variable {due : Prop} {v : Nat} {told act : List Frame} {s s' t t' : State}

theorem Timed.congr (h : Timed v act s t) (hs : s'.prices = s.prices) (ht : t'.prices = t.prices) : Timed v act s' t' := by
  unfold Timed at h ⊢
  rw [hs, ht]
  exact h

/-- A minute check seen from states that differ elsewhere. -/
theorem Checked.congr (h : Checked due v told s t) {bs cs : List Block} (hs : Only bs s s') (ht : Only cs t t')
    (hb : ∀ b ∈ [Block.screenings, .vouchers, .prices], b ∉ bs ∧ b ∉ cs) (hp : .params ∉ bs) :
    Checked due v told s' t' := by
  obtain ⟨hscreenings, hscreenings'⟩ := hb .screenings (by simp)
  obtain ⟨hvouchers, hvouchers'⟩ := hb .vouchers (by simp)
  obtain ⟨hprices, hprices'⟩ := hb .prices (by simp)
  have e₁ : s'.screenings = s.screenings := hs .screenings hscreenings
  have e₂ : s'.vouchers = s.vouchers := hs .vouchers hvouchers
  have e₃ : s'.prices = s.prices := hs .prices hprices
  have e₄ : s'.params = s.params := hs .params hp
  have f₁ : t'.screenings = t.screenings := ht .screenings hscreenings'
  have f₂ : t'.vouchers = t.vouchers := ht .vouchers hvouchers'
  have f₃ : t'.prices = t.prices := ht .prices hprices'
  have hstart : s'.startOf = s.startOf := by
    funext n
    simp only [State.startOf, State.screening, e₁]
  have htimed : ∀ a, Timed v a s t → Timed v a s' t' := fun a ha => ha.congr e₃ f₃
  unfold Checked at h ⊢
  rw [e₁, e₂, e₃, e₄, f₁, f₂, f₃, hstart]
  obtain ⟨hran, hnone⟩ := h
  refine ⟨fun hd => ?_, hnone⟩
  obtain ⟨hc, hr, hserial, hstock, a, hperm, ha⟩ := hran hd
  exact ⟨hc, hr, hserial, hstock, a, hperm, htimed a ha⟩

/-- Where no minute check ran. -/
theorem Checked.idle (h : ¬ due) {bs : List Block} (hs : Only bs s t)
    (hb : ∀ b ∈ [Block.screenings, .vouchers, .prices], b ∉ bs) : Checked due v [] s t :=
  ⟨fun hd => absurd hd h, fun _ => ⟨rfl, hs .screenings (hb _ (by simp)), hs .vouchers (hb _ (by simp)),
    hs .prices (hb _ (by simp))⟩⟩

end

theorem minuteCheck_touches (v : Nat) (s : State) :
    Only [.screenings, .vouchers, .prices, .lines, .choice] s (minuteCheck v s) :=
  ((minuteSwept_only v s).mono (by simp)).trans ((minuteCheck_only v s).mono (by simp))

/-- R23, R24: a move of the clock. -/
theorem moveClock_checks (v : Nat) (s : State) : ∃ told, Says (on .ol told) s (moveClock v s)
    ∧ Checked (s.clock.isSet = true ∧ s.clock.value / 60 < v / 60) v told s (moveClock v s) := by
  have hput : Only [.clock] s (putClock v s) := by simp
  unfold moveClock
  dsimp only
  by_cases hc : s.clock.isSet = true ∧ s.clock.value / 60 < v / 60
  · rw [if_pos (by simp [hc])]
    obtain ⟨told, hsays, hchecked⟩ := minuteCheck_checks v (putClock v s)
    refine ⟨told, hsays.after_only hput (by simp), ?_⟩
    have h := hchecked.congr hput.symm (Only.refl [] _) (by simp) (by simp)
    exact ⟨fun _ => h.1 trivial, fun hn => absurd hc hn⟩
  · rw [if_neg (by simpa using hc)]
    exact ⟨[], on_nil .ol ▸ .of_only hput (by simp), .idle hc hput (by simp)⟩

theorem moveClock_clock (v : Nat) (s : State) : (moveClock v s).clock
    = { s.clock with value := v, fraction := if v = 172799 then 0 else s.clock.fraction } := by
  unfold moveClock
  dsimp only
  split
  · exact minuteCheck_touches v (putClock v s) .clock (by simp)
  · rfl

theorem moveClock_touches (v : Nat) (s : State) :
    Only [.clock, .screenings, .vouchers, .prices, .lines, .choice] s (moveClock v s) := by
  have hput : Only [.clock, .screenings, .vouchers, .prices, .lines, .choice] s (putClock v s) := by simp
  unfold moveClock
  dsimp only
  split
  · exact hput.trans ((minuteCheck_touches v _).mono (by simp))
  · exact hput

/-- R23: to the same minute or an earlier one, V is set and nothing else happens. -/
theorem moveClock_back {v : Nat} {s : State} (h : v / 60 ≤ s.clock.value / 60) : moveClock v s = putClock v s := by
  unfold moveClock
  dsimp only
  rw [if_neg (by simp; omega)]



-- ## The clock's requests

theorem startOr1_eq {present : Byte} {w : BitVec 24} (h : present.toNat ≤ 1) :
    startOr1 present w = if present = 1 then w.toNat else 1 := by
  unfold startOr1
  rw [readFlag_of_le h]
  by_cases hp : present = 1
  · rw [if_pos hp, if_pos (by simp [hp])]
  · rw [if_neg hp, if_neg (by simpa using hp)]

/-- Settles O24: each of the four requests passes its checks and sets its fields. -/
theorem clockRequestsSetTheClock : Obligations.ClockRequestsSetTheClock := by
  unfold Obligations.ClockRequestsSetTheClock
  refine ⟨?_, fun src tag v who r s h hset hv hmin => ?_, fun src tag mode who r s m h hm => ?_, fun src tag who r s h => ?_⟩
  · intro src tag f who r s h hday hclock hsaleFlag hserialFlag hscreenings hsale hserial sale serial
    have hok : ((readFlag f.salePresent).isSome && (readFlag f.serialPresent).isSome) = true := by
      rw [readFlag_of_le hsaleFlag, readFlag_of_le hserialFlag]
      rfl
    have hsaleStart : startOr1 f.salePresent f.saleStart = sale := startOr1_eq hsaleFlag
    have hserialStart : startOr1 f.serialPresent f.serialStart = serial := startOr1_eq hserialFlag
    have hsaleRange : 1 ≤ sale ∧ sale ≤ 999999 := by
      by_cases hp : f.salePresent = 1
      · rw [show sale = f.saleStart.toNat from if_pos hp]
        exact hsale hp
      · simp [sale, if_neg hp]
    have hserialRange : 1 ≤ serial ∧ serial ≤ 999999 := by
      by_cases hp : f.serialPresent = 1
      · rw [show serial = f.serialStart.toNat from if_pos hp]
        exact hserial hp
      · simp [serial, if_neg hp]
    have hrange : dayInRange f = true := by
      obtain ⟨h₁, h₂⟩ := hday
      simp [dayInRange, hsaleStart, hserialStart, hsaleRange, hserialRange, h₁, h₂, Config.clockEnd, hclock]
    generalize hu : hearing (.dayOpen src tag f) r s = u
    have hus : Only [.lines, .outstanding] s u := hu ▸ only_hearing _ _ _
    have hscr : u.screenings = [] := (hus .screenings (by simp)).trans hscreenings
    have hcl : u.clock = s.clock := hus .clock (by simp)
    have hsl : u.sales = s.sales := hus .sales (by simp)
    have hvo : u.vouchers = s.vouchers := hus .vouchers (by simp)
    refine h.answers (u := { putClock f.clock.toNat u with
      clock := { (putClock f.clock.toNat u).clock with isSet := true, day := f.day.toNat }
      sales := { u.sales with next := sale }
      vouchers := { u.vouchers with serial := serial } }) (fun _ => rfl) rfl hok ?_ ?_ (by simp) fun t ht => ?_
    · dsimp only
      rw [hu, if_neg (by rw [hrange]; simp), if_neg (by simp [hscr]), hsaleStart, hserialStart]
      rfl
    · rw [hu]
      intro b hb
      cases b <;> simp_all [Block.same, putClock]
    · refine ⟨(ht .clock (by simp)).trans ?_, (ht .sales (by simp)).trans ?_, (ht .vouchers (by simp)).trans ?_⟩
      · simp [putClock, hcl, Config.clockEnd]
      · simp [hsl]
      · simp [hvo]
  · generalize hu : hearing (.setTime src tag v) r s = u
    have hcl : u.clock = s.clock := hu ▸ hearing_clock _ _ _
    refine h.answers (u := putClock v.toNat u) (fun _ => rfl) rfl rfl ?_
      (hu ▸ (only_putClock (by simp)).2 (Only.refl _ _)) (by simp) fun t ht => (ht .clock (by simp)).trans ?_
    · rw [hu, if_neg (by simp [hcl, hset]), if_neg (by rw [Config.clockEnd]; omega), moveClock_back (by rw [hcl]; exact hmin),
        hcl]
    · rw [putClock, hcl, Config.clockEnd]
  · generalize hu : hearing (.setSync src tag mode) r s = u
    have hcl : u.clock = s.clock := hu ▸ hearing_clock _ _ _
    refine h.answers (u := { u with clock := setSync m u.clock }) (fun _ => rfl) rfl rfl ?_
      (hu ▸ (only_clock (by simp)).2 (Only.refl _ _)) (by simp) fun t ht => (ht .clock (by simp)).trans ?_
    · simp only [hu, hm]
    · rw [← hcl]
      rfl
  · generalize hu : hearing (.clearPulseCount src tag) r s = u
    have hcl : u.clock = s.clock := hu ▸ hearing_clock _ _ _
    refine h.answers (u := { u with clock := { u.clock with pulses := 0 } }) (fun _ => rfl) rfl rfl ?_
      (hu ▸ (only_clock (by simp)).2 (Only.refl _ _)) (by simp) fun t ht => (ht .clock (by simp)).trans ?_
    · rw [hu, hcl]
    · rw [hcl]

/-- Settles O25: a clock second and SET_TIME move the clock, and the move brings the minute check. -/
theorem minuteChecksFollowTheClock : Obligations.MinuteChecksFollowTheClock := by
  unfold Obligations.MinuteChecksFollowTheClock
  refine ⟨fun s hq hv => ?_, fun s hq hv => ?_, fun src tag v who r s h hset hv hmin => ?_⟩
  · have hzero : Only [.clock] s { s with clock := { s.clock with fraction := 0 } } := by simp
    obtain ⟨told, hsays, hchecked⟩ := moveClock_checks (s.clock.value + 1) { s with clock := { s.clock with fraction := 0 } }
    have hf : clockSecond s = moveClock (s.clock.value + 1) { s with clock := { s.clock with fraction := 0 } } := by
      rw [clockSecond, if_pos ((clockRuns_iff s).2 hv)]
    have hdoes := command_does (i := .clockSecond) (bs := [.clock, .screenings, .vouchers, .prices]) (Q := fun t =>
      t.clock = { s.clock with value := s.clock.value + 1, fraction := 0 }
      ∧ Checked (s.clock.isSet = true ∧ s.clock.value / 60 < (s.clock.value + 1) / 60) (s.clock.value + 1) told s t)
      hq rfl hf
      ((hzero.mono (by simp)).trans ((moveClock_touches _ _).mono (by simp))) (hsays.after_only hzero (by simp)) (by simp)
      fun t ht => ⟨(ht .clock (by simp)).trans ?_, hchecked.congr hzero.symm ht (by simp) (by simp)⟩
    · obtain ⟨t, hx, he, hQ⟩ := hdoes
      exact ⟨t, told, hx, he, hQ⟩
    · rw [moveClock_clock]
      simp
  · refine command_idle hq rfl ?_
    rw [clockSecond, if_neg (by rw [clockRuns_iff]; omega)]
  · generalize hu : hearing (.setTime src tag v) r s = u
    have hus : Only [.lines, .outstanding] s u := hu ▸ only_hearing _ _ _
    have hcl : u.clock = s.clock := hus .clock (by simp)
    obtain ⟨told, hsays, hchecked⟩ := moveClock_checks v.toNat u
    obtain ⟨t, hruns, hQ⟩ := h.runs (bs := [.clock, .screenings, .vouchers, .prices]) (fun _ => rfl) rfl rfl
      (out := after (on .ol told) (on r.link.line [answerFrame r .ok (bytes3 s.clock.value ++ bytes3 v.toNat)]))
      (u := answer r .ok (bytes3 s.clock.value ++ bytes3 v.toNat) (moveClock v.toNat u))
      (Q := fun t => t.clock = { s.clock with
          value := v.toNat, fraction := if v.toNat = 172799 then 0 else s.clock.fraction }
      ∧ Checked True v.toNat told s t)
      (by
        rw [hu, if_neg (by simp [hcl, hset]), if_neg (by rw [Config.clockEnd]; omega), hcl])
      (by
        rw [hu]
        exact (only_answer (by simp)).2 ((moveClock_touches _ _).mono (by simp)))
      (by rw [hu]; exact hsays.trans (says_answer ..)) (by simp) (by simp)
      fun t ht => by
        have hmoved : Only [.lines, .latched, .choice] (moveClock v.toNat u) t :=
          ((only_answer (by simp)).2 (Only.refl _ _)).trans ht
        refine ⟨?_, ?_⟩
        · rw [hmoved .clock (by simp), moveClock_clock, hcl]
        · obtain ⟨hran, -⟩ := hchecked.congr hus.symm hmoved (by simp) (by simp)
          refine ⟨fun _ => hran ⟨by rw [hcl]; exact hset, by rw [hcl]; exact hmin⟩, fun hn => absurd trivial hn⟩
    exact ⟨t, told, hruns, hQ⟩

-- ## The minute pulse (R25 to R28)

/-- R25: the minute nearest to a reading. -/
def Clock.nearest (c : Clock) : Nat := (1000 * c.value + c.fraction + 30000) / 60000

theorem nearestMinute_eq (c : Clock) : nearestMinute c.reading = 60000 * c.nearest := by
  rw [nearestMinute, Clock.reading, Clock.nearest, Nat.mul_comm]

theorem deviation_bounds (c : Clock) : ((1000 * c.value + c.fraction : Nat) : Int) - deviationOf c.reading = 60000 * c.nearest
    ∧ -30000 ≤ deviationOf c.reading ∧ deviationOf c.reading < 30000 := by
  have hn := nearestMinute_eq c
  unfold deviationOf
  rw [hn, Clock.reading, Clock.nearest]
  omega

/-- R27: no alignment is made at the end of the day. -/
theorem align_last {s : State} (h : s.clock.nearest = 2880) : align s = s := by
  unfold align
  dsimp only
  rw [nearestMinute_eq, h, if_pos (Or.inl rfl)]

/-- R27: an alignment sets the clock onto the nearest minute, and the minute check follows. -/
theorem align_checks {s : State} (hf : s.clock.fraction ≤ 999) (h : s.clock.nearest ≠ 2880) :
    ∃ told, Says (on .ol told) s (align s)
      ∧ (align s).clock = { s.clock with value := 60 * s.clock.nearest, fraction := 0 }
      ∧ Checked (s.clock.isSet = true ∧ s.clock.value / 60 < s.clock.nearest) (60 * s.clock.nearest) told s (align s) := by
  unfold align
  dsimp only
  rw [nearestMinute_eq]
  by_cases hon : 60000 * s.clock.nearest = s.clock.reading
  · rw [if_pos (Or.inr hon)]
    rw [Clock.reading] at hon
    have hzero : s.clock.fraction = 0 := by omega
    have hvalue : s.clock.value = 60 * s.clock.nearest := by omega
    refine ⟨[], on_nil .ol ▸ .refl s, ?_, .idle (by omega) (Only.refl [] s) (by simp)⟩
    rw [← hvalue, ← hzero]
  · rw [if_neg (by omega), show 60000 * s.clock.nearest / 1000 = 60 * s.clock.nearest by omega]
    obtain ⟨told, hsays, hchecked⟩ := moveClock_checks (60 * s.clock.nearest) s
    have hzero : Only [.clock] (moveClock (60 * s.clock.nearest) s) { moveClock (60 * s.clock.nearest) s with
      clock := { (moveClock (60 * s.clock.nearest) s).clock with fraction := 0 } } := by simp
    refine ⟨told, hsays.then_only hzero (by simp), ?_, ?_⟩
    · dsimp only
      rw [moveClock_clock]
    · have hc := hchecked.congr (Only.refl [] s) hzero (by simp) (by simp)
      rwa [show 60 * s.clock.nearest / 60 = s.clock.nearest by omega] at hc

/-- R25, R28: the clock with a pulse counted, and measured. -/
def Clock.pulsed (c : Clock) (d : Option Int) : Clock :=
  { c with pulses := bump c.pulses, noPulse := .running 150, deviation := d }

theorem takePulse_stopped {s : State} (hs : s.clock.sync ≠ .off) (hv : s.clock.value = 172799) :
    takePulse s = { s with clock := s.clock.pulsed none } := by
  unfold takePulse
  rw [if_neg hs]
  dsimp only
  rw [if_neg (by rw [clockRuns_iff]; dsimp only; omega)]
  rfl

theorem takePulse_running {s : State} (hs : s.clock.sync ≠ .off) (hv : s.clock.value < 172799) :
    takePulse s = (let u := { s with clock := s.clock.pulsed (some (deviationOf s.clock.reading)) }
      match s.clock.sync with
      | .track => if (deviationOf s.clock.reading).natAbs ≤ s.params.jitterWindow then align u else u
      | .once => { align u with clock := { (align u).clock with sync := .watch } }
      | _ => u) := by
  unfold takePulse
  rw [if_neg hs]
  dsimp only
  split
  · rfl
  · next hstopped => exact absurd ((clockRuns_iff _).2 hv) hstopped

theorem align_touches (s : State) : Only [.clock, .screenings, .vouchers, .prices, .lines, .choice] s (align s) := by
  unfold align
  dsimp only
  split
  · exact Only.refl _ s
  · refine (moveClock_touches (nearestMinute s.clock.reading / 1000) s).trans ?_
    exact (only_clock (by simp)).2 (Only.refl _ _)

/-- R27: the pulse stays with its measure: the mode does not align, or the deviation is too great, or the day ends. -/
def State.measuresOnly (s : State) : Prop :=
  s.clock.sync = .watch ∨ (s.clock.sync = .track ∧ s.params.jitterWindow < (deviationOf s.clock.reading).natAbs)
    ∨ s.clock.nearest = 2880

/-- R27: the mode aligns. -/
def State.aligns (s : State) : Prop :=
  s.clock.sync = .once ∨ (s.clock.sync = .track ∧ (deviationOf s.clock.reading).natAbs ≤ s.params.jitterWindow)

/-- R25 to R27: what a pulse leaves of a state whose clock runs. -/
structure PulseTaken (s : State) (told : List Frame) (w : State) : Prop where
  sends : Says (on .ol told) s w
  touches : Only [.clock, .screenings, .vouchers, .prices, .lines, .choice] s w
  clock : w.clock = { s.clock.pulsed (some (deviationOf s.clock.reading)) with
    value := w.clock.value, fraction := w.clock.fraction
    sync := if s.clock.sync = .once then .watch else s.clock.sync }
  stays : s.measuresOnly → Only [.clock] s w ∧ w.clock.value = s.clock.value ∧ w.clock.fraction = s.clock.fraction ∧ told = []
  moves : s.aligns → s.clock.nearest ≠ 2880 → w.clock.value = 60 * s.clock.nearest ∧ w.clock.fraction = 0
    ∧ Checked (s.clock.isSet = true ∧ s.clock.value / 60 < s.clock.nearest) (60 * s.clock.nearest) told s w

/-- A pulse that measures and leaves the clock's value. -/
theorem PulseTaken.measured {s : State} {m : SyncMode} (hm : m = if s.clock.sync = .once then .watch else s.clock.sync)
    (ha : s.aligns → s.clock.nearest = 2880) :
    PulseTaken s [] { s with clock := { s.clock.pulsed (some (deviationOf s.clock.reading)) with sync := m } } := by
  have honly : Only [.clock] s { s with clock := { s.clock.pulsed (some (deviationOf s.clock.reading)) with sync := m } } := by
    simp
  exact ⟨on_nil .ol ▸ .of_only honly (by simp), honly.mono (by simp), by rw [hm], fun _ => ⟨honly, rfl, rfl, rfl⟩,
    fun h hn => absurd (ha h) hn⟩

/-- A pulse that aligns. -/
theorem PulseTaken.aligned {s u : State} {m : SyncMode} (hu : u = { s with clock := s.clock.pulsed (some (deviationOf s.clock.reading)) })
    (hm : m = if s.clock.sync = .once then .watch else s.clock.sync) (hf : s.clock.fraction ≤ 999) (ha : s.aligns)
    (hn : s.clock.nearest ≠ 2880) :
    ∃ told, PulseTaken s told { align u with clock := { (align u).clock with sync := m } } := by
  subst hu
  have honly : Only [.clock] s { s with clock := s.clock.pulsed (some (deviationOf s.clock.reading)) } := by simp
  obtain ⟨told, hsays, hclock, hchecked⟩ := align_checks
    (s := { s with clock := s.clock.pulsed (some (deviationOf s.clock.reading)) }) hf hn
  have htouches := align_touches { s with clock := s.clock.pulsed (some (deviationOf s.clock.reading)) }
  generalize align { s with clock := s.clock.pulsed (some (deviationOf s.clock.reading)) } = w at hsays hclock hchecked htouches
  have hlast : Only [.clock] w { w with clock := { w.clock with sync := m } } := by simp
  refine ⟨told, (hsays.after_only honly (by simp)).then_only hlast (by simp),
    (honly.mono (by simp)).trans (htouches.trans (hlast.mono (by simp))), ?_, fun h => ?_, fun _ _ => ⟨?_, ?_, ?_⟩⟩
  · rw [hclock, hm]
  · rcases h with h | ⟨h, hj⟩ | h
    · rcases ha with ha | ⟨ha, -⟩ <;> simp [h] at ha
    · rcases ha with ha | ⟨-, ha⟩
      · simp [h] at ha
      · omega
    · exact absurd h hn
  · rw [hclock]
    rfl
  · rw [hclock]
  · exact hchecked.congr honly.symm hlast (by simp) (by simp)

/-- R25 to R27: a pulse, mode by mode. -/
theorem takePulse_takes {s : State} (hs : s.clock.sync ≠ .off) (hv : s.clock.value < 172799) (hf : s.clock.fraction ≤ 999) :
    ∃ told, PulseTaken s told (takePulse s) := by
  rw [takePulse_running hs hv]
  dsimp only
  have hlast : s.clock.nearest = 2880 → align { s with clock := s.clock.pulsed (some (deviationOf s.clock.reading)) }
      = { s with clock := s.clock.pulsed (some (deviationOf s.clock.reading)) } := fun h => align_last h
  cases hsync : s.clock.sync with
  | off => exact absurd hsync hs
  | watch =>
    refine ⟨[], ?_⟩
    have h := PulseTaken.measured (s := s) (m := .watch) (by simp [hsync]) (fun h => by simp [State.aligns, hsync] at h)
    rwa [← hsync] at h
  | track =>
    dsimp only
    split
    · next hj =>
      by_cases hn : s.clock.nearest = 2880
      · rw [hlast hn]
        have h := PulseTaken.measured (s := s) (m := .track) (by simp [hsync]) fun _ => hn
        rw [← hsync] at h
        exact ⟨[], h⟩
      · obtain ⟨told, h⟩ := PulseTaken.aligned (s := s) (m := .track) rfl (by simp [hsync]) hf (.inr ⟨hsync, hj⟩) hn
        refine ⟨told, ?_⟩
        obtain ⟨-, -, hclock, -⟩ := align_checks
          (s := { s with clock := s.clock.pulsed (some (deviationOf s.clock.reading)) }) hf hn
        have hmode : (align { s with clock := s.clock.pulsed (some (deviationOf s.clock.reading)) }).clock.sync = .track := by
          rw [hclock]
          exact hsync
        rwa [← hmode] at h
    · next hj =>
      have h := PulseTaken.measured (s := s) (m := .track) (by simp [hsync])
        (fun h => by simp [State.aligns, hsync, hj] at h)
      rw [← hsync] at h
      exact ⟨[], h⟩
  | once =>
    dsimp only
    by_cases hn : s.clock.nearest = 2880
    · rw [hlast hn]
      exact ⟨[], .measured (by simp [hsync]) fun _ => hn⟩
    · exact PulseTaken.aligned rfl (by simp [hsync]) hf (.inl hsync) hn

/-- Settles O26: a pulse counts and measures; the alignment is a move of the clock onto the nearest minute. -/
theorem pulsesMeasureAndAlign : Obligations.PulsesMeasureAndAlign := by
  unfold Obligations.PulsesMeasureAndAlign
  refine ⟨fun s hq hs => ?_, fun s hq hs hv => ?_, fun s hq hs hv hf => ?_, fun s hs => ?_, fun s hs => ?_⟩
  · exact command_idle (i := .minutePulse) hq rfl (by rw [takePulse, if_pos hs])
  · exact command_does (i := .minutePulse) hq rfl (takePulse_stopped hs hv) (by simp)
      (.of_only (bs := [.clock]) (by simp) (by simp)) (by simp) fun t ht => ht .clock (by simp)
  · obtain ⟨hd, hlo, hhi⟩ := deviation_bounds s.clock
    obtain ⟨told, hsays, htouches, hclock, hstays, hmoves⟩ := takePulse_takes hs hv hf
    generalize hw : takePulse s = w at hsays htouches hclock hstays hmoves
    obtain ⟨t, hx, he, hQ⟩ := command_does (i := .minutePulse) (bs := [.clock, .screenings, .vouchers, .prices])
      (Q := fun t => Only [.lines, .latched, .choice] w t) hq rfl hw (htouches.mono (by simp)) hsays (by simp) fun t ht => ht
    refine ⟨t, _, s.clock.nearest, told, hx, he, hd, hlo, hhi, ?_⟩
    rw [(hQ .clock (by simp) : t.clock = w.clock)]
    refine ⟨by rw [hclock]; rfl, by rw [hclock]; rfl, by rw [hclock]; rfl, by rw [hclock]; rfl, by rw [hclock]; rfl,
      by rw [hclock], fun h => ?_, fun h hn => ?_⟩
    · obtain ⟨hk, hval, hfrac, htold⟩ := hstays h
      have hst : Only [.clock, .lines, .latched, .choice] s t := (hk.mono (by simp)).trans (hQ.mono (by simp))
      exact ⟨hval, hfrac, hst .screenings (by simp), hst .vouchers (by simp), hst .prices (by simp), htold⟩
    · obtain ⟨hval, hfrac, hchecked⟩ := hmoves h hn
      exact ⟨hval, hfrac, hchecked.congr (Only.refl [] s) hQ (by simp) (by simp)⟩
  · refine event_does (i := .noPulseExpiry) (u := { s with clock := { s.clock with noPulse := .expired, deviation := none } })
      rfl ?_ (by simp) (.of_only (bs := [.clock]) (by simp) (by simp)) (by simp) fun t ht => ht .clock (by simp)
    simp [expireNoPulse, hs]
  · refine event_idle (i := .noPulseExpiry) rfl ?_
    simp [expireNoPulse, hs]

end Sys2Proof.Machine
end

section
/-! PROOFS. The second tick (O27). -/

namespace Sys2Proof.Machine

/-- R69: the tick brings the basket to the warning lead, and it was not warned before. -/
def Basket.warnsNext (b : Basket) (lead : Nat) : Bool :=
  match b.hold with
  | .running n => decide (n - 1 ≤ lead ∧ 0 < n - 1) && !b.warningSent
  | _ => false

/-- R69: the frame of a HOLD_WARNING, of a basket before the tick. -/
def warningFrame (i : Fin 16) (b : Basket) : Frame :=
  noticeFrame 0xE2 (bytes1 i.val ++ bytes2 b.ref ++ bytes2 (b.hold.seconds - 1) ++ [if b.extensionUsed then 0 else 1])

theorem ticked_of_running {b : Basket} {n : Nat} (h : b.hold = .running n) : b.ticked = { b with hold := .running (n - 1) } := by
  rw [Basket.ticked, h]

theorem ticked_of_still {b : Basket} (h : b.hold.runs = false) : b.ticked = b := by
  unfold Basket.ticked
  cases hh : b.hold with
  | running n => simp [hh, Hold.runs] at h
  | absent => rfl
  | suspended n => rfl

/-- R69: only a basket whose countdown runs is warned. -/
theorem runs_of_warnsNext {b : Basket} {lead : Nat} (h : b.warnsNext lead = true) : ∃ n, b.hold = .running n := by
  cases hh : b.hold with
  | running n => exact ⟨n, rfl⟩
  | absent => simp [Basket.warnsNext, hh] at h
  | suspended n => simp [Basket.warnsNext, hh] at h

theorem ticked_warned (b : Basket) (lead : Nat) : b.ticked.warned lead = b.warnsNext lead := by
  cases hh : b.hold with
  | running n => simp [ticked_of_running hh, Basket.warned, Basket.warnsNext, hh]
  | absent => simp [ticked_of_still (b := b) (by simp [hh, Hold.runs]), Basket.warned, Basket.warnsNext, hh]
  | suspended n => simp [ticked_of_still (b := b) (by simp [hh, Hold.runs]), Basket.warned, Basket.warnsNext, hh]

theorem ticked_owner (b : Basket) : b.ticked.owner = b.owner := by
  unfold Basket.ticked
  split <;> rfl

/-- R69: the warning of a basket one second on. -/
theorem warningFrame_ticked (i : Fin 16) {b : Basket} {lead : Nat} (h : b.warnsNext lead = true) :
    noticeFrame 0xE2 (bytes1 i.val ++ bytes2 b.ticked.ref ++ bytes2 b.ticked.hold.seconds ++ flagByte (!b.ticked.extensionUsed))
      = warningFrame i b := by
  obtain ⟨n, hn⟩ := runs_of_warnsNext h
  rw [ticked_of_running hn, warningFrame, hn]
  cases b.extensionUsed <;> rfl

theorem toOwner_congr {s u : State} (h : u.ifc.stations = s.ifc.stations) (o : Owner) (f : Frame) :
    toOwner u o f = toOwner s o f := by
  simp only [toOwner, State.binding, h]

/-- The live baskets after a change of every basket. -/
theorem liveBaskets_map {s u : State} {f : Basket → Basket} (h : u.baskets = s.baskets.map (fun b => b.map f)) :
    u.liveBaskets = s.liveBaskets.map (fun x => (x.1, f x.2)) := by
  unfold State.liveBaskets
  rw [h, List.map_filterMap]
  refine List.filterMap_congr fun i _ => ?_
  rw [Tab.get_map]
  cases s.baskets.get i <;> rfl

/-- R69: the warning sent, the basket's record being marked. -/
theorem holdWarning_says (i : Fin 16) {b : Basket} {lead : Nat} (h : b.warnsNext lead = true) {s u : State}
    (hu : u.ifc.stations = s.ifc.stations) :
    Says (toOwner s b.owner (warningFrame i b)) u (holdWarning i b.ticked u) := by
  rw [← warningFrame_ticked i h, ← ticked_owner, ← toOwner_congr hu]
  exact says_notifyOwner ..

/-- The warnings of the baskets listed, in their order. -/
theorem foldl_holdWarning_says (s : State) (l : List (Fin 16 × Basket)) (u : State) {lead : Nat}
    (hl : ∀ x ∈ l, x.2.warnsNext lead = true) (hu : u.ifc.stations = s.ifc.stations) :
    Says (fun k => l.flatMap (fun x => toOwner s x.2.owner (warningFrame x.1 x.2) k)) u
      ((l.map (fun x => (x.1, x.2.ticked))).foldl
        (fun s x => holdWarning x.1 x.2 (s.putBasket x.1 { x.2 with warningSent := true })) u) := by
  induction l generalizing u with
  | nil => exact .refl u
  | cons x l ih =>
    rw [List.map_cons, List.foldl_cons]
    dsimp only
    have hput : Only [.baskets] u (u.putBasket x.1 { x.2.ticked with warningSent := true }) := by simp
    have hstations : (u.putBasket x.1 { x.2.ticked with warningSent := true }).ifc.stations = s.ifc.stations :=
      (hput .stations (by simp)).trans hu
    have hwarn := holdWarning_says x.1 (hl x (by simp)) (u := u.putBasket x.1 { x.2.ticked with warningSent := true }) hstations
    have hnext : (holdWarning x.1 x.2.ticked (u.putBasket x.1 { x.2.ticked with warningSent := true })).ifc.stations
        = s.ifc.stations :=
      ((only_holdWarning (bs := [.lines]) (by simp)).2 (Only.refl _ _) .stations (by simp)).trans hstations
    have h := (hwarn.after_only hput (by simp)).trans (ih _ (fun y hy => hl y (List.mem_cons_of_mem _ hy)) hnext)
    simp only [List.flatMap_cons]
    exact h

/-- R17: the tick at the hold countdowns, before its warnings. -/
def State.ticking (s : State) : State := { s with baskets := s.baskets.map (fun b => b.map Basket.ticked) }

/-- R69: the baskets a tick warns, in the order of their warnings. -/
def State.warnings (s : State) : List (Fin 16 × Basket) :=
  s.ticking.arranged (s.ticking.liveBaskets.filter (fun x => x.2.warned s.params.warningLead))

theorem tickBaskets_eq (s : State) : tickBaskets s = s.warnings.foldl
    (fun s x => holdWarning x.1 x.2 (s.putBasket x.1 { x.2 with warningSent := true }))
    (s.ticking.spend (s.ticking.liveBaskets.filter (fun x => x.2.warned s.params.warningLead)).length) := rfl

theorem ticking_get (s : State) (i : Fin 16) : s.ticking.baskets.get i = (s.baskets.get i).map Basket.ticked := by
  rw [State.ticking, Tab.get_map]

theorem mem_warnings (s : State) (x : Fin 16 × Basket) :
    x ∈ s.warnings ↔ s.ticking.baskets.get x.1 = some x.2 ∧ x.2.warned s.params.warningLead = true := by
  rw [State.warnings, (arranged_perm _ _).mem_iff, List.mem_filter, mem_liveBaskets]

/-- The baskets warned are those that the tick brings to the lead. -/
theorem warnings_eq (s : State) : ∃ warned : List (Fin 16 × Basket), s.warnings = warned.map (fun x => (x.1, x.2.ticked))
    ∧ warned.Perm (s.liveBaskets.filter (fun x => x.2.warnsNext s.params.warningLead)) := by
  refine exists_eq_map_of_perm ((arranged_perm _ _).trans (.of_eq ?_))
  rw [liveBaskets_map (s := s) (u := s.ticking) rfl, List.filter_map]
  exact congrArg _ (List.filter_congr fun x _ => ticked_warned x.2 _)

/-- R17, R69: the tick at the basket unit warns, in some order, the baskets it brings to the lead. -/
theorem tickBaskets_says (s : State) : ∃ warned : List (Fin 16 × Basket),
    Says (fun k => warned.flatMap (fun x => toOwner s x.2.owner (warningFrame x.1 x.2) k)) s (tickBaskets s)
      ∧ warned.Perm (s.liveBaskets.filter (fun x => x.2.warnsNext s.params.warningLead)) := by
  obtain ⟨warned, heq, hperm⟩ := warnings_eq s
  refine ⟨warned, ?_, hperm⟩
  rw [tickBaskets_eq, heq]
  have hfrom : Only [.baskets, .choice] s
      (s.ticking.spend (s.ticking.liveBaskets.filter (fun x => x.2.warned s.params.warningLead)).length) := by
    simp [State.ticking]
  refine Says.after_only (foldl_holdWarning_says s warned _ (lead := s.params.warningLead) (fun x hx => ?_)
    (hfrom .stations (by simp))) hfrom (by simp)
  exact (List.mem_filter.1 (hperm.mem_iff.1 hx)).2

theorem mem_warnings_slot {s : State} {i : Fin 16} {b : Basket} (hb : s.baskets.get i = some b) :
    i ∈ s.warnings.map Prod.fst ↔ b.warnsNext s.params.warningLead = true := by
  have hget : s.ticking.baskets.get i = some b.ticked := by rw [ticking_get, hb, Option.map_some]
  rw [List.mem_map, ← ticked_warned]
  constructor
  · rintro ⟨x, hx, rfl⟩
    obtain ⟨hc, hw⟩ := (mem_warnings s x).1 hx
    rwa [← Option.some.inj (hget.symm.trans hc)] at hw
  · intro hw
    exact ⟨(i, b.ticked), (mem_warnings s _).2 ⟨hget, hw⟩, rfl⟩

/-- R17, R69: what the tick makes of the basket of a slot. -/
theorem tickBaskets_basket (s : State) (i : Fin 16) : (tickBaskets s).baskets.get i
    = (s.baskets.get i).map (fun b => match b.hold with
      | .running n => { b with
          hold := .running (n - 1)
          warningSent := b.warningSent || decide (n - 1 ≤ s.params.warningLead ∧ 0 < n - 1) }
      | _ => b) := by
  rw [tickBaskets_eq, foldl_holdWarning_get s.ticking (fun x hx => ((mem_warnings s x).1 hx).1), spend_baskets, ticking_get]
  cases hb : s.baskets.get i with
  | none => simp
  | some b =>
    have hiff := mem_warnings_slot hb
    simp only [Option.map_some]
    by_cases hw : b.warnsNext s.params.warningLead = true
    · obtain ⟨n, hn⟩ := runs_of_warnsNext hw
      rw [if_pos (hiff.2 hw), ticked_of_running hn, Basket.warnedNow]
      simp only [Basket.warnsNext, hn, Bool.and_eq_true] at hw
      simp only [hn, hw.1, Bool.or_true]
    · rw [if_neg (fun h => hw (hiff.1 h))]
      cases hh : b.hold with
      | absent => rw [ticked_of_still (by simp [hh, Hold.runs])]
      | suspended n => rw [ticked_of_still (by simp [hh, Hold.runs])]
      | running n =>
        rw [ticked_of_running hh]
        simp only [Basket.warnsNext, hh, Bool.and_eq_true, Bool.not_eq_true', not_and, Bool.not_eq_false] at hw
        have hsent : (b.warningSent || decide (n - 1 ≤ s.params.warningLead ∧ 0 < n - 1)) = b.warningSent := by
          cases hd : decide (n - 1 ≤ s.params.warningLead ∧ 0 < n - 1) with
          | false => rw [Bool.or_false]
          | true => rw [hw hd, Bool.or_true]
        simp only [hsent]

/-- R17: the ticks before that at the basket unit. -/
def tickRest (s : State) : State := tickClock (tickPrint (tickSales (tickPay s)))

theorem tickRest_only (s : State) : Only [.clock, .print, .sales, .pay] s (tickRest s) := by
  simp [tickRest]

/-- Settles O27: the five ticks, each at its own countdowns. -/
theorem secondTickReachesEveryCountdown : Obligations.SecondTickReachesEveryCountdown := by
  unfold Obligations.SecondTickReachesEveryCountdown
  intro s hq
  have hrest := tickRest_only s
  have hbaskets : (tickRest s).baskets = s.baskets := hrest .baskets (by simp)
  have hparams : (tickRest s).params = s.params := hrest .params (by simp)
  have hticked : Only [.baskets, .lines, .choice] (tickRest s) (tickBaskets (tickRest s)) :=
    (only_tickBaskets (by simp)).2 (Only.refl _ _)
  obtain ⟨warned, hsays, hperm⟩ := tickBaskets_says (tickRest s)
  have hlive : (tickRest s).liveBaskets = s.liveBaskets := by rw [State.liveBaskets, hbaskets]; rfl
  rw [hlive, hparams] at hperm
  obtain ⟨t, hx, he, hQ⟩ := command_does (i := .secondTick) (s := s) (u := tickBaskets (tickRest s))
    (bs := [.clock, .baskets, .pay, .sales, .print])
    (Q := fun t => Only [.baskets, .lines, .latched, .choice] (tickRest s) t
      ∧ t.baskets = (tickBaskets (tickRest s)).baskets) hq rfl rfl
    ((hrest.mono (by simp)).trans (hticked.mono (by simp))) (hsays.after_only hrest (by simp)) (by simp)
    fun t ht => ⟨(hticked.mono (by simp)).trans (ht.mono (by simp)), ht .baskets (by simp)⟩
  obtain ⟨hk, hb⟩ := hQ
  have hclock : t.clock = (tickRest s).clock := hk .clock (by simp)
  have hpay : t.pay = (tickRest s).pay := hk .pay (by simp)
  have hsales : t.sales = (tickRest s).sales := hk .sales (by simp)
  have hprint : t.print = (tickRest s).print := hk .print (by simp)
  refine ⟨t, warned, hx, ?_, hperm, hclock.trans rfl, fun i => ?_, fun i => ?_, ?_, ?_, ?_, fun i => ?_, ?_, fun i => ?_,
    ?_, ?_, ?_⟩
  · have hout : (fun k => warned.flatMap (fun x => toOwner (tickRest s) x.2.owner (warningFrame x.1 x.2) k))
        = fun k => warned.flatMap (fun x => toOwner s x.2.owner (warningFrame x.1 x.2) k) := by
      funext k
      simp only [toOwner_congr (hrest .stations (by simp))]
    rw [hout] at he
    exact he
  · rw [hb, tickBaskets_basket, hbaskets, hparams] <;> rfl
  · rw [State.payLine, hpay]
    exact Tab.get_map _ _ _
  · rw [hpay]
    rfl
  · rw [hpay]
    rfl
  · rw [hsales]
    refine List.map_congr_left fun k _ => ?_
    cases k.quote with
    | none => rfl
    | some q =>
      dsimp only [Option.map_some]
      cases q.taken <;> rfl
  · rw [hsales]
    exact Tab.get_map _ _ _
  · rw [hsales]
    rfl
  · rw [State.ticketLine, hprint]
    exact Tab.get_map _ _ _
  · rw [hprint]
    rfl
  · rw [hprint]
    rfl
  · rw [hprint]
    rfl

end Sys2Proof.Machine
end

section
/-! PROOFS. The seat request queue and the arbiter's choice (O28, O29). -/

namespace Sys2Proof.Machine

theorem placeEntry_touches (x : Entry) (s : State) : Only [.engine] s (placeEntry x s) := by
  simp

/-- Settles O28: what is heard joins the tail, unanswered. -/
theorem seatRequestsJoinTheQueue : Obligations.SeatRequestsJoinTheQueue := by
  unfold Obligations.SeatRequestsJoinTheQueue
  refine ⟨fun src tag q who r s o h ho => ?_, fun src tag f who r s h => ?_⟩
  · have hj := placeEntry_touches (.request o r q) (hearing (.seatRequestJoin src tag q) r s)
    refine h.runs (u := placeEntry (.request o r q) (hearing (.seatRequestJoin src tag q) r s)) (ok := true)
      (src := src) (tag := tag) (kind := seatRequestKind q) (fun _ => rfl) (by cases q <;> rfl) rfl ?_ (hj.mono (by simp))
      (.of_only hj (by simp)) (by simp) (by simp) fun t ht => (ht .engine (by simp)).trans ?_
    · simp only [ho]
    · simp [placeEntry]
  · have hj := placeEntry_touches (.restore r f) (hearing (.restoreSale src tag f) r s)
    refine h.runs (u := placeEntry (.restore r f) (hearing (.restoreSale src tag f) r s)) (fun _ => rfl) rfl rfl rfl
      (hj.mono (by simp)) (.of_only hj (by simp)) (by simp) (by simp) fun t ht => (ht .engine (by simp)).trans ?_
    simp [placeEntry]

-- ## What is pulled from the queue

theorem pull_some {e : Engine} {p : Entry → Bool} {x : Entry} {rest : List Entry} (h : e.pull p = some (x, rest)) :
    ∃ older newer, e.queue = older ++ x :: newer ∧ rest = older ++ newer ∧ p x = true ∧ ∀ y ∈ older, p y = false := by
  unfold Engine.pull at h
  split at h
  · cases h
  · next i hi =>
    obtain ⟨hlt, hpi, hmin⟩ := List.findIdx?_eq_some_iff_getElem.1 hi
    rw [List.getElem?_eq_getElem hlt, Option.map_some, Option.some.injEq, Prod.mk.injEq] at h
    obtain ⟨rfl, rfl⟩ := h
    refine ⟨e.queue.take i, e.queue.drop (i + 1), ?_, List.eraseIdx_eq_take_drop_succ _ _, hpi, fun y hy => ?_⟩
    · rw [List.getElem_cons_drop, List.take_append_drop]
    · obtain ⟨j, hj, rfl⟩ := List.mem_iff_getElem.1 hy
      rw [List.length_take] at hj
      rw [List.getElem_take]
      simpa using hmin j (by omega)

theorem pull_eq_none {e : Engine} {p : Entry → Bool} : e.pull p = none ↔ ∀ y ∈ e.queue, p y = false := by
  unfold Engine.pull
  split
  · next h => exact iff_of_true rfl (fun y hy => by simpa using List.findIdx?_eq_none_iff.1 h y hy)
  · next i hi =>
    obtain ⟨hlt, hpi, -⟩ := List.findIdx?_eq_some_iff_getElem.1 hi
    rw [List.getElem?_eq_getElem hlt]
    refine iff_of_false (by simp) fun h => ?_
    rw [h _ (List.getElem_mem hlt)] at hpi
    cases hpi

/-- A requester has an entry waiting. -/
def Engine.waits (e : Engine) (q : Fin 9) : Prop := ∃ y ∈ e.queue, y.requester = some q

theorem waits_iff (e : Engine) (q : Fin 9) : e.queue.any (fun x => x.requester == some q) = true ↔ e.waits q := by
  simp [Engine.waits]

/-- R35: the requester served next is the first of its level round the ring. -/
theorem nextOf_some {e : Engine} {level : Level} {p q : Fin 9} (h : e.nextOf level p = some q) :
    e.levels.get q = level ∧ e.waits q
      ∧ ∀ q', e.levels.get q' = level → e.waits q' → (q - (p + 1)).val ≤ (q' - (p + 1)).val := by
  unfold Engine.nextOf ringFrom at h
  rw [List.find?_map, Option.map_eq_some_iff] at h
  obtain ⟨k, hk, rfl⟩ := h
  obtain ⟨hkp, i, hi, rfl, hmin⟩ := List.find?_eq_some_iff_getElem.1 hk
  simp only [Function.comp_apply, Bool.and_eq_true, beq_iff_eq, waits_iff] at hkp
  obtain ⟨hlevel, hwaits⟩ := hkp
  refine ⟨hlevel, hwaits, fun q' hl hw => ?_⟩
  have hring : p + 1 + (q' - (p + 1)) = q' := by omega
  rw [show p + 1 + (indices 9)[i] - (p + 1) = (indices 9)[i] by omega]
  by_contra hlt
  have hnot := hmin (q' - (p + 1)).val (by simp [indices] at hlt ⊢; omega)
  have hget : (indices 9)[(q' - (p + 1)).val]'(by simp [indices]) = q' - (p + 1) := by simp [indices]
  rw [hget] at hnot
  simp only [Function.comp_apply, hring, Bool.not_eq_true', Bool.and_eq_false_iff, beq_eq_false_iff_ne] at hnot
  rcases hnot with hnot | hnot
  · exact hnot hl
  · rw [(waits_iff e q').2 hw] at hnot
    cases hnot

theorem nextOf_none {e : Engine} {level : Level} {p : Fin 9} (h : e.nextOf level p = none) {q : Fin 9}
    (hl : e.levels.get q = level) : ¬ e.waits q := by
  intro hw
  unfold Engine.nextOf ringFrom at h
  rw [List.find?_map, Option.map_eq_none_iff, List.find?_eq_none] at h
  have hq := h (q - (p + 1)) (by simp [indices])
  have hring : p + 1 + (q - (p + 1)) = q := by omega
  rw [Function.comp_apply, hring, Bool.and_eq_true, beq_iff_eq, waits_iff] at hq
  exact hq ⟨hl, hw⟩

theorem isNone_false_iff {α : Type} (o : Option α) : o.isNone = false ↔ o ≠ none := by
  cases o <;> simp

/-- R34, R35: an internal entry is taken before any other. -/
theorem take_internal {e : Engine} {x : Entry} {rest : List Entry}
    (h : e.pull (fun x => x.requester.isNone) = some (x, rest)) : e.take = some (x, { e with queue := rest }) := by
  simp only [Engine.take, h]

theorem take_high {e : Engine} {q : Fin 9} (h : e.pull (fun x => x.requester.isNone) = none)
    (hq : e.nextOf .high e.highPointer = some q) : e.take = (e.pull (fun x => x.requester == some q)).map
      (fun (x, rest) => (x, { e with queue := rest, highPointer := q })) := by
  simp only [Engine.take, h, hq]

theorem take_low {e : Engine} {q : Fin 9} (h : e.pull (fun x => x.requester.isNone) = none)
    (hh : e.nextOf .high e.highPointer = none) (hq : e.nextOf .low e.lowPointer = some q) :
    e.take = (e.pull (fun x => x.requester == some q)).map
      (fun (x, rest) => (x, { e with queue := rest, lowPointer := q })) := by
  simp only [Engine.take, h, hh, hq]

theorem take_empty {e : Engine} (h : e.pull (fun x => x.requester.isNone) = none)
    (hh : e.nextOf .high e.highPointer = none) (hl : e.nextOf .low e.lowPointer = none) : e.take = none := by
  simp only [Engine.take, h, hh, hl]

/-- The requester served has an entry. -/
theorem pull_of_waits {e : Engine} {q : Fin 9} (h : e.waits q) :
    ∃ x older newer, e.pull (fun x => x.requester == some q) = some (x, older ++ newer) ∧ e.queue = older ++ x :: newer
      ∧ x.requester = some q ∧ ∀ y ∈ older, y.requester ≠ some q := by
  cases hp : e.pull (fun x => x.requester == some q) with
  | none =>
    obtain ⟨y, hy, hyq⟩ := h
    have := pull_eq_none.1 hp y hy
    simp [hyq] at this
  | some v =>
    obtain ⟨x, rest⟩ := v
    obtain ⟨older, newer, hqueue, rfl, hx, holder⟩ := pull_some hp
    exact ⟨x, older, newer, rfl, hqueue, by simpa using hx, fun y hy => by simpa using holder y hy⟩

/-- Settles O29: internal entries first, and then the first requester of the first level with one waiting. -/
theorem arbiterTakesByLevelAndRing : Obligations.ArbiterTakesByLevelAndRing := by
  unfold Obligations.ArbiterTakesByLevelAndRing
  refine ⟨fun e e' x h => ?_, fun e => ?_⟩
  · cases hp : e.pull (fun x => x.requester.isNone) with
    | some v =>
      obtain ⟨y, rest⟩ := v
      rw [take_internal hp, Option.some.injEq, Prod.mk.injEq] at h
      obtain ⟨rfl, rfl⟩ := h
      obtain ⟨older, newer, hqueue, rfl, hy, holder⟩ := pull_some hp
      have hnone : y.requester = none := by simpa using hy
      refine ⟨older, newer, hqueue, fun z hz => ?_, ?_⟩
      · rw [hnone]
        exact (isNone_false_iff _).1 (holder z hz)
      · rw [hnone]
    | none =>
      have hall : ∀ y ∈ e.queue, y.requester ≠ none := fun y hy => (isNone_false_iff _).1 (pull_eq_none.1 hp y hy)
      cases hh : e.nextOf .high e.highPointer with
      | some q =>
        obtain ⟨hlevel, hwaits, hfirst⟩ := nextOf_some hh
        obtain ⟨y, older, newer, hpull, hqueue, hy, holder⟩ := pull_of_waits hwaits
        rw [take_high hp hh, hpull, Option.map_some, Option.some.injEq, Prod.mk.injEq] at h
        obtain ⟨rfl, rfl⟩ := h
        refine ⟨older, newer, hqueue, fun z hz => by rw [hy]; exact holder z hz, ?_⟩
        rw [hy]
        refine ⟨hall, fun _ => ⟨rfl, fun z hz p hzp hp => hfirst p hp ⟨z, hz, hzp⟩⟩, fun hlow => ?_⟩
        rw [hlevel] at hlow
        cases hlow
      | none =>
        cases hl : e.nextOf .low e.lowPointer with
        | none => rw [take_empty hp hh hl] at h; cases h
        | some q =>
          obtain ⟨hlevel, hwaits, hfirst⟩ := nextOf_some hl
          obtain ⟨y, older, newer, hpull, hqueue, hy, holder⟩ := pull_of_waits hwaits
          rw [take_low hp hh hl, hpull, Option.map_some, Option.some.injEq, Prod.mk.injEq] at h
          obtain ⟨rfl, rfl⟩ := h
          refine ⟨older, newer, hqueue, fun z hz => by rw [hy]; exact holder z hz, ?_⟩
          rw [hy]
          refine ⟨hall, fun hhigh => ?_, fun _ => ⟨rfl, fun z hz p hzp => ?_⟩⟩
          · rw [hlevel] at hhigh
            cases hhigh
          · have hlow : e.levels.get p = .low := by
              cases hlp : e.levels.get p with
              | low => rfl
              | high => exact absurd ⟨z, hz, hzp⟩ (nextOf_none hh hlp)
            exact ⟨hlow, hfirst p hlow ⟨z, hz, hzp⟩⟩
  · constructor
    · intro h
      by_contra hne
      obtain ⟨y, hy⟩ := List.exists_mem_of_ne_nil _ hne
      cases hp : e.pull (fun x => x.requester.isNone) with
      | some v => rw [take_internal (x := v.1) (rest := v.2) hp] at h; cases h
      | none =>
        cases hh : e.nextOf .high e.highPointer with
        | some q =>
          obtain ⟨-, hwaits, -⟩ := nextOf_some hh
          obtain ⟨x, older, newer, hpull, -⟩ := pull_of_waits hwaits
          rw [take_high hp hh, hpull] at h
          cases h
        | none =>
          cases hl : e.nextOf .low e.lowPointer with
          | some q =>
            obtain ⟨-, hwaits, -⟩ := nextOf_some hl
            obtain ⟨x, older, newer, hpull, -⟩ := pull_of_waits hwaits
            rw [take_low hp hh hl, hpull] at h
            cases h
          | none =>
            have hy' : y.requester.isNone = false := pull_eq_none.1 hp y hy
            obtain ⟨q, hq⟩ := Option.ne_none_iff_exists'.1 ((isNone_false_iff _).1 hy')
            cases hlevel : e.levels.get q with
            | high => exact nextOf_none hh hlevel ⟨y, hy, hq⟩
            | low => exact nextOf_none hl hlevel ⟨y, hy, hq⟩
    · intro h
      have hpull : e.pull (fun x => x.requester.isNone) = none := pull_eq_none.2 (by simp [h])
      have hnext : ∀ level p, e.nextOf level p = none := fun level p => by simp [Engine.nextOf, h]
      exact take_empty hpull (hnext _ _) (hnext _ _)

end Sys2Proof.Machine
end

section
/-! PROOFS. Concession links, the counts of bad frames, levels and parameters (O58, O59). -/

namespace Sys2Proof.Machine

-- ## Concession links and the counts of bad frames

theorem readConcession_of_toNat {b : Byte} {n : Fin 4} (h : b.toNat = 0x30 + n.val) : readConcession b = some n :=
  offset_eq (by omega)

/-- R160: the counts of the lines named are 0. -/
def clearedCounts (ls : List Line) (s : State) : State :=
  ls.foldl (fun u l => u.onLine l (fun x => { x with badFrames := 0 })) s

theorem line_clearedCounts (ls : List Line) (s : State) (l : Line) : (clearedCounts ls s).line l
    = { s.line l with badFrames := if l ∈ ls then 0 else (s.line l).badFrames } := by
  unfold clearedCounts
  induction ls generalizing s with
  | nil => simp
  | cons k ls ih =>
    rw [List.foldl_cons, ih, line_onLine]
    by_cases hk : k = l
    · simp [hk]
    · rw [if_neg hk]
      have hmem : l ∈ k :: ls ↔ l ∈ ls := by simp [Ne.symm hk]
      simp only [hmem]

theorem clearedCounts_only (ls : List Line) (s : State) : Only [.lines] s (clearedCounts ls s) :=
  Only.foldl _ (fun w l => by simp) ls s

/-- What is handed on and sent in a state, seen from the state with the counts cleared. -/
theorem Sent.cleared {l : Line} {fs : List Frame} {s t : State} (ls : List Line) (h : Sent l fs s t) :
    Sent l fs (clearedCounts ls s) (clearedCounts ls t) := by
  obtain ⟨hsending, hreceiver, hbad, hhanded⟩ := h
  refine ⟨?_, ?_, ?_, ?_⟩ <;> simp [line_clearedCounts, hsending, hreceiver, hbad, hhanded]

theorem readLine_lineByte (l : Line) : readLine (lineByte l) = some (.line l) := by
  cases l with
  | kl i => revert i; decide
  | pl i => revert i; decide
  | tl i => revert i; decide
  | cl i => revert i; decide
  | ol => decide

theorem clearsFrameCounts {src : Link} {tag line : Byte} {who : Requester} {r : Reply} {s : State} {ls : List Line}
    (h : Heard (.clearFrameCount src tag line) who r s) (hls : readLines line = some ls) :
    ∃ t, exec (.clearFrameCount src tag line) s = .next t ∧ Outstands r s t
      ∧ Effect [.outstanding] (on r.link.line [answerFrame r .ok
          (BitVec.ofNat 8 ls.length :: ls.flatMap (fun l => bytes2 (s.line l).badFrames))]) (clearedCounts ls s) t := by
  generalize hu : hearing (.clearFrameCount src tag line) r s = u
  have hus : Only [.lines, .outstanding] s u := hu ▸ only_hearing _ _ _
  have hbad : ∀ l, (u.line l).badFrames = (s.line l).badFrames := fun l => by
    rw [← hu]
    exact (sent_hearing _ r s l).badFrames
  have hx : exec (.clearFrameCount src tag line) s = .next (latchAlarms (answer r .ok
      (BitVec.ofNat 8 ls.length :: ls.flatMap (fun l => bytes2 (s.line l).badFrames)) (clearedCounts ls u))) := by
    rw [h.exec_eq (src := src) (tag := tag) (kind := 0x4A) (ok := true) (fun _ => rfl) rfl rfl]
    simp only [hls, hu, hbad, listBytes]
    rfl
  have hanswer := says_answer r .ok (BitVec.ofNat 8 ls.length :: ls.flatMap (fun l => bytes2 (s.line l).badFrames))
    (clearedCounts ls u)
  have honly : Only [.lines, .outstanding] (clearedCounts ls s) (clearedCounts ls u) :=
    ((clearedCounts_only ls s).symm.mono (by simp)).trans (hus.trans ((clearedCounts_only ls u).mono (by simp)))
  refine ⟨_, hx, ?_, effect_of ?_ (fun l => hanswer.sent (fun k => ?_) l) ?_⟩
  · have h1 := hu ▸ hearing_outstands (.clearFrameCount src tag line) r s
    have h2 : Block.outstanding.same u (clearedCounts ls u) := clearedCounts_only ls u .outstanding (by simp)
    simp only [Outstands, Block.same] at h1 h2 ⊢
    simp only [latchAlarms_kiosk, latchAlarms_concession, latchAlarms_office]
    exact ⟨h2.1.trans h1.1, h2.2.1.trans h1.2.1, h2.2.2.trans h1.2.2⟩
  · exact (only_answer (by simp)).2 (honly.mono (by simp))
  · exact (hu ▸ sent_hearing (.clearFrameCount src tag line) r s k).cleared ls
  · exact ((only_answer (bs := [.lines, .outstanding]) (by simp)).2 honly) .latched (by simp)

/-- Settles O58: the link named opens or locks; the counts named are answered and cleared. -/
theorem linksOpenAndCountsClear : Obligations.LinksOpenAndCountsClear := by
  unfold Obligations.LinksOpenAndCountsClear
  refine ⟨fun src tag line who r s n opens i hline hi h => ?_, fun src tag line who r s ls h hls => ⟨fun l => ?_, ?_⟩⟩
  · have hread := readConcession_of_toNat hline
    subst hi
    cases opens with
    | true =>
      refine h.answers (i := .openConcession src tag line) (u := setConcession n true (hearing (.openConcession src tag line) r s))
        (fun _ => rfl) rfl rfl ?_ ((only_setConcession (by simp)).2 (Only.refl _ _)) (by simp) fun t ht => (ht .concessions (by simp)).trans ?_
      · simp only [hread]
      · rw [setConcession, hearing_concessionOpen]
    | false =>
      refine h.answers (i := .closeConcession src tag line) (u := setConcession n false (hearing (.closeConcession src tag line) r s))
        (fun _ => rfl) rfl rfl ?_ ((only_setConcession (by simp)).2 (Only.refl _ _)) (by simp) fun t ht => (ht .concessions (by simp)).trans ?_
      · simp only [hread]
      · rw [setConcession, hearing_concessionOpen]
  · exact congrArg LineState.badFrames (line_clearedCounts ls s l)
  · refine clearsFrameCounts h ?_
    rcases hls with ⟨rfl, rfl⟩ | ⟨l, rfl, rfl⟩
    · rfl
    · rw [readLines, readLine_lineByte]

-- ## Levels and parameters

theorem readOwner_level {level : Byte} {l : Level} (h : level = 1 ∧ l = .high ∨ level = 2 ∧ l = .low) :
    readLevel level = some l := by
  rcases h with ⟨rfl, rfl⟩ | ⟨rfl, rfl⟩ <;> rfl

theorem anyGrant_eq_false {s : State} (h : ∀ k, (s.ticketLine k).state ≠ .printing) : s.anyGrant = false := by
  rw [State.anyGrant, List.any_eq_false]
  intro x hx
  obtain ⟨k, rfl⟩ := (s.print.lines.mem_list x).1 hx
  simpa [TicketLine.granted, State.ticketLine] using h k

theorem anyGrant_of_printing {s : State} {k : Fin 8} (h : (s.ticketLine k).state = .printing) : s.anyGrant = true := by
  rw [State.anyGrant, List.any_eq_true]
  exact ⟨_, (s.print.lines.mem_list _).2 ⟨k, rfl⟩, by simpa [TicketLine.granted, State.ticketLine] using h⟩

section
variable {src : Link} {tag param line present : Byte} {value : BitVec 16} {who : Requester} {r : Reply} {s : State}
  {q : Parameter} {p : Params}

/-- R176: SET_PARAM of a value that the parameter takes. -/
theorem setsParam (h : Heard (.setParam src tag param line present value) who r s) (hpresent : present = 1)
    (hq : namedParameter param.toNat line = some q) (hp : q.take s.params value.toNat = some p)
    (hgrant : isPower param.toNat = true → s.anyGrant = false) :
    ∃ t, Answers (.setParam src tag param line present value) r .ok (bytes2 (q.value s.params) ++ bytes2 (q.value p))
      [.params] s t ∧ t.params = p := by
  subst hpresent
  generalize hu : hearing (.setParam src tag param line 1 value) r s = u
  have hus : Only [.lines, .outstanding] s u := hu ▸ only_hearing _ _ _
  have hparams : u.params = s.params := hus .params (by simp)
  have hany : u.anyGrant = s.anyGrant := by
    rw [State.anyGrant, (hus .print (by simp) : u.print = s.print)]
    rfl
  refine h.answers (u := { u with params := p }) (fun _ => rfl) rfl rfl ?_ (hu ▸ (only_params (by simp)).2 (Only.refl _ _))
    (by simp) fun t ht => ht .params (by simp)
  have hbusy : (isPower param.toNat && u.anyGrant) = false := by
    rw [hany]
    cases hi : isPower param.toNat with
    | false => rfl
    | true => rw [hgrant hi]; rfl
  have hflag : readFlag 1 = some true := rfl
  simp only [hu, hq, hflag, if_true, hparams, hp, hbusy, Bool.false_eq_true, if_false]

/-- R176: with no value carried the value in force is answered twice. -/
theorem keepsParam (h : Heard (.setParam src tag param line 0 value) who r s)
    (hq : namedParameter param.toNat line = some q) (hgrant : s.anyGrant = false) :
    ∃ t, Answers (.setParam src tag param line 0 value) r .ok (bytes2 (q.value s.params) ++ bytes2 (q.value s.params))
      [] s t := by
  generalize hu : hearing (.setParam src tag param line 0 value) r s = u
  have hus : Only [.lines, .outstanding] s u := hu ▸ only_hearing _ _ _
  have hparams : u.params = s.params := hus .params (by simp)
  have hany : u.anyGrant = false := by
    rw [← hgrant, State.anyGrant, (hus .print (by simp) : u.print = s.print)]
    rfl
  refine h.answers_only (fun _ => rfl) rfl rfl ?_
  have hflag : ¬ readFlag 0 = some true := by decide
  simp only [hu, hq, if_neg hflag, hparams, hany, Bool.and_false, Bool.false_eq_true, if_false]
  rw [← hparams]

/-- R176: a power parameter is refused while a grant is held. -/
theorem refusesParam (h : Heard (.setParam src tag param line present value) who r s) (hpresent : present.toNat ≤ 1)
    (hq : namedParameter param.toNat line = some q) (hp : q.take s.params value.toNat ≠ none)
    (hpower : isPower param.toNat = true) (hgrant : s.anyGrant = true) :
    ∃ t, Answers (.setParam src tag param line present value) r .busy [] [] s t := by
  generalize hu : hearing (.setParam src tag param line present value) r s = u
  have hus : Only [.lines, .outstanding] s u := hu ▸ only_hearing _ _ _
  have hparams : u.params = s.params := hus .params (by simp)
  have hany : u.anyGrant = true := by
    rw [← hgrant, State.anyGrant, (hus .print (by simp) : u.print = s.print)]
    rfl
  refine h.answers_only (fun _ => rfl) rfl (by rw [readFlag_of_le hpresent]; rfl) ?_
  obtain ⟨p, hp⟩ := Option.ne_none_iff_exists'.1 hp
  simp only [hu, hq, hparams, hp]
  split
  · next heq =>
    split at heq <;> cases heq
  · simp only [hpower, hany, Bool.and_self, if_true]

end

/-- R176: a numeric parameter is clamped to its range. -/
theorem parameter_of_numeric {n lo hi : Nat} {get : Params → Nat} (h : (n, lo, hi, get) ∈ numericParameters) :
    n < 256 ∧ n ≠ 17 ∧ isPower n = false ∧ (∀ (p : Params) v, get (p.put n v) = v)
      ∧ ∃ q, parameter n none = some q ∧ q.value = get ∧ ∀ p v, q.take p v = some (p.put n (max lo (min hi v))) := by
  simp only [numericParameters, List.mem_cons, Prod.mk.injEq, List.not_mem_nil, or_false] at h
  rcases h with ⟨rfl, rfl, rfl, rfl⟩ | ⟨rfl, rfl, rfl, rfl⟩ | ⟨rfl, rfl, rfl, rfl⟩ | ⟨rfl, rfl, rfl, rfl⟩
    | ⟨rfl, rfl, rfl, rfl⟩ | ⟨rfl, rfl, rfl, rfl⟩ | ⟨rfl, rfl, rfl, rfl⟩ | ⟨rfl, rfl, rfl, rfl⟩
    | ⟨rfl, rfl, rfl, rfl⟩ | ⟨rfl, rfl, rfl, rfl⟩ | ⟨rfl, rfl, rfl, rfl⟩ | ⟨rfl, rfl, rfl, rfl⟩
    | ⟨rfl, rfl, rfl, rfl⟩ | ⟨rfl, rfl, rfl, rfl⟩ | ⟨rfl, rfl, rfl, rfl⟩ | ⟨rfl, rfl, rfl, rfl⟩
  all_goals exact ⟨by decide, by decide, rfl, fun _ _ => rfl, _, rfl, rfl, fun _ _ => rfl⟩

/-- R176: a numeric parameter set leaves the others. -/
theorem put_other {m n lo hi : Nat} {get : Params → Nat} (h : (m, lo, hi, get) ∈ numericParameters) (hne : m ≠ n)
    (p : Params) (v : Nat) : get (p.put n v) = get p := by
  simp only [numericParameters, List.mem_cons, Prod.mk.injEq, List.not_mem_nil, or_false] at h
  rcases h with ⟨rfl, rfl, rfl, rfl⟩ | ⟨rfl, rfl, rfl, rfl⟩ | ⟨rfl, rfl, rfl, rfl⟩ | ⟨rfl, rfl, rfl, rfl⟩
    | ⟨rfl, rfl, rfl, rfl⟩ | ⟨rfl, rfl, rfl, rfl⟩ | ⟨rfl, rfl, rfl, rfl⟩ | ⟨rfl, rfl, rfl, rfl⟩
    | ⟨rfl, rfl, rfl, rfl⟩ | ⟨rfl, rfl, rfl, rfl⟩ | ⟨rfl, rfl, rfl, rfl⟩ | ⟨rfl, rfl, rfl, rfl⟩
    | ⟨rfl, rfl, rfl, rfl⟩ | ⟨rfl, rfl, rfl, rfl⟩ | ⟨rfl, rfl, rfl, rfl⟩ | ⟨rfl, rfl, rfl, rfl⟩
  all_goals
    unfold Params.put
    split <;> simp_all

theorem max_largestDraw {p : Params} {m : Nat} (hm : 10 ≤ m) (hdraws : ∀ i, p.draws.get i ≤ m)
    (hreached : m = 10 ∨ ∃ i, p.draws.get i = m) : max 10 p.largestDraw = m := by
  have hle := largestDraw_le hdraws
  rcases hreached with rfl | ⟨i, rfl⟩
  · omega
  · have := le_largestDraw p i
    omega

theorem clampFilter_eq (n : Nat) : clampFilter n = if n ≤ 50 then 50 else if n ≤ 100 then 100
    else if n ≤ 200 then 200 else 400 := rfl

/-- The parameter of a place, as a request names it with the line byte NONE. -/
theorem namedParameter_none {n : Nat} {q : Parameter} (hn : n ≠ 17) (hq : parameter n none = some q) :
    namedParameter n 0xFF = some q := by
  rw [namedParameter, if_neg hn, if_pos rfl, hq]

theorem namedParameter_draw {line : Byte} {i : Fin 8} (h : line.toNat = 0x20 + i.val) :
    namedParameter 17 line = parameter 17 (some i) := by
  rw [namedParameter, if_pos rfl, readTicketLine, offset_eq (i := i) (by omega)]
  rfl

/-- A power parameter named takes what suits it. -/
theorem power_named {param line : Byte} {v : Nat} (h : within 16 18 param.toNat)
    (hline : if param = 17 then ∃ i : Fin 8, line.toNat = 0x20 + i.val else line = 0xFF)
    (hmode : param = 18 → within 1 2 v) :
    isPower param.toNat = true ∧ ∃ q, namedParameter param.toNat line = some q ∧ ∀ p, q.take p v ≠ none := by
  obtain ⟨hlo, hhi⟩ := h
  have hcases : param = 16 ∨ param = 17 ∨ param = 18 := by bv_omega
  rcases hcases with rfl | rfl | rfl
  · rw [if_neg (by decide)] at hline
    subst hline
    exact ⟨rfl, _, rfl, fun p => by simp⟩
  · rw [if_pos rfl] at hline
    obtain ⟨i, hi⟩ := hline
    exact ⟨rfl, _, namedParameter_draw hi, fun p => by simp⟩
  · rw [if_neg (by decide)] at hline
    subst hline
    refine ⟨rfl, _, rfl, fun p => ?_⟩
    obtain ⟨h₁, h₂⟩ := hmode rfl
    have hv : v = 1 ∨ v = 2 := by omega
    rcases hv with rfl | rfl <;> simp [readSupply]

/-- Settles O59: SET_LEVEL sets one level; SET_PARAM sets one parameter to what its kind takes. -/
theorem levelsAndParametersAreSet : Obligations.LevelsAndParametersAreSet := by
  unfold Obligations.LevelsAndParametersAreSet
  refine ⟨?_, ?_, ?_, ?_, ?_, ?_, ?_, ?_, ?_⟩
  · intro src tag requester level who r s o l h ho hl
    generalize hu : hearing (.setLevel src tag requester level) r s = u
    have hengine : u.engine = s.engine := hu ▸ hearing_engine _ _ _
    refine h.answers (u := { u with engine := { u.engine with levels := u.engine.levels.set o.ring l } }) (fun _ => rfl)
      rfl rfl ?_ (hu ▸ (only_engine (by simp)).2 (Only.refl _ _)) (by simp) fun t ht => (ht .engine (by simp)).trans ?_
    · simp only [hu, ho, readOwner_level hl, hengine]
      cases s.engine.levels.get o.ring <;> rfl
    · rw [hengine]
  · intro src tag param line present value who r s n lo hi get h hpresent hline hparam hn
    obtain ⟨hlt, hne, hpower, hget, q, hq, hvalue, htake⟩ := parameter_of_numeric hn
    have hplace : param.toNat = n := by
      rw [hparam, BitVec.toNat_ofNat]
      omega
    have hnamed : namedParameter param.toNat line = some q := by
      rw [hplace, hline]
      exact namedParameter_none hne hq
    obtain ⟨t, ht, hp⟩ := setsParam h hpresent hnamed (htake _ _) (fun hi => by rw [hplace, hpower] at hi; cases hi)
    rw [hvalue, hget] at ht
    refine ⟨t, ht, ?_, hp, fun m lo' hi' get' hm hmn => ?_⟩
    · rw [hp, hget]
    · rw [hp]
      exact put_other hm hmn _ _
  · intro src tag line value who r s i h hline hgrant
    obtain ⟨t, ht, hp⟩ := setsParam h rfl (namedParameter_draw hline) rfl fun _ => anyGrant_eq_false hgrant
    refine ⟨t, ?_, hp⟩
    dsimp only at ht
    rwa [Tab.get_set_self] at ht
  · intro src tag value who r s m h hgrant hm hdraws hreached
    obtain ⟨t, ht, hp⟩ := setsParam h rfl (namedParameter_none (by decide) rfl) rfl fun _ => anyGrant_eq_false hgrant
    rw [max_largestDraw hm hdraws hreached] at ht hp
    exact ⟨t, ht, hp⟩
  · intro src tag value who r s mode h hgrant hmode
    have htake : readSupply value.toNat = some mode := by
      rcases hmode with ⟨rfl, rfl⟩ | ⟨rfl, rfl⟩ <;> rfl
    obtain ⟨t, ht, hp⟩ := setsParam (p := { s.params with supply := mode }) h rfl (namedParameter_none (by decide) rfl)
      (by simp only [htake, Option.map_some]) fun _ => anyGrant_eq_false hgrant
    refine ⟨t, ?_, hp⟩
    have hafter : mode.number = value.toNat := by
      rcases hmode with ⟨rfl, rfl⟩ | ⟨rfl, rfl⟩ <;> rfl
    have hbefore : s.params.supply.number = if s.params.supply = .individual then 1 else 2 := by
      cases s.params.supply <;> rfl
    dsimp only at ht
    rwa [hafter, hbefore] at ht
  · intro src tag value who r s policy h hpolicy
    have htake : readPolicy value.toNat = some policy := by
      rcases hpolicy with ⟨rfl, rfl⟩ | ⟨rfl, rfl⟩ <;> rfl
    obtain ⟨t, ht, hp⟩ := setsParam (p := { s.params with doubtPolicy := policy }) h rfl
      (namedParameter_none (by decide) rfl) (by simp only [htake, Option.map_some]) (fun hi => by cases hi)
    refine ⟨t, ?_, hp⟩
    have hafter : policy.number = value.toNat := by
      rcases hpolicy with ⟨rfl, rfl⟩ | ⟨rfl, rfl⟩ <;> rfl
    have hbefore : s.params.doubtPolicy.number = if s.params.doubtPolicy = .keep then 1 else 2 := by
      cases s.params.doubtPolicy <;> rfl
    dsimp only at ht
    rwa [hafter, hbefore] at ht
  · intro src tag value who r s n h hn
    subst hn
    exact setsParam h rfl (namedParameter_none (by decide) rfl) rfl (fun hi => by cases hi)
  · intro src tag param line present value who r s k h hparam hline hpresent hmode hk
    obtain ⟨hpower, q, hq, htake⟩ := power_named hparam hline hmode
    exact refusesParam h hpresent hq (htake _) hpower (anyGrant_of_printing hk)
  · intro src tag param line value who r s q h hq hgrant
    exact keepsParam h hq (anyGrant_eq_false hgrant)

end Sys2Proof.Machine
end

section
/-! PROOFS. O60 fails: a state may hold a waiting entry whose answer has the first byte of an ALARM_NOTICE. -/

namespace Sys2Proof.Machine

/-- A QUERY_MAP of the office, of a screening that is not there, whose reply is of the kind 0x6C. No request has that
kind, and its answer begins with 0xEC. -/
def strayEntry : Entry := .request .office ⟨.office, 0, 0x6C⟩ (.queryMap 0 0 0)

/-- The part as after a reset, with that entry waiting. -/
def strayState : State := { State.reset with engine := { Engine.reset with queue := [strayEntry] } }

theorem strayState_takes : Takes strayEntry { Engine.reset with highPointer := 8 } strayState :=
  ⟨by decide +kernel, rfl, rfl⟩

/-- Refutes O60: QUERY_MAP answers the entry with a frame that begins as an ALARM_NOTICE does, and is none. Nothing in
the statement says that the reply of a waiting entry is of a request's kind. -/
theorem not_alarmsAreEnabledAndAcknowledged : ¬ Obligations.AlarmsAreEnabledAndAcknowledged := by
  unfold Obligations.AlarmsAreEnabledAndAcknowledged
  rintro ⟨-, -, h⟩
  obtain ⟨t, hx, -, -, hframes⟩ := h .queryMap strayState (by decide) (by simp) (by simp) (by simp) (by simp) (by simp)
  obtain ⟨u, hu, heffect, -⟩ := strayState_takes.answers_only (i := .queryMap) (r := ⟨.office, 0, 0x6C⟩)
    (result := .noSuch) (fields := []) (fun _ => rfl) rfl rfl
  cases hx.symm.trans hu
  obtain ⟨quiet, -⟩ := strayState_takes
  obtain ⟨notices, hsending, -, -⟩ := (heffect.sends .ol).sending
  have hmem : answerFrame ⟨.office, 0, 0x6C⟩ .noSuch [] ∈ (t.line .ol).sending := by
    rw [hsending]
    simp [on, Link.line]
  rcases hframes quiet _ hmem (by decide) with hbefore | ⟨k, hk⟩
  · revert hbefore
    decide +kernel
  · have hcloses := congrArg Frame.closes hk
    cases hcloses

end Sys2Proof.Machine
end

section
/-! PROOFS. The staged prices (O49). -/

namespace Sys2Proof.Machine

theorem markBytes_eq (t : Staged) : t.markBytes = t.marks.map (fun m => if m then 1 else 0) := by
  obtain ⟨tickets, surcharges, combos, rates, waiting⟩ := t
  cases tickets <;> cases surcharges <;> cases combos <;> cases rates <;> rfl

/-- R78: a set is COMPLETE as it is whole and does not wait. -/
theorem complete_iff {t : Staged} : t.state = .complete ↔ t.waiting = false ∧ t.whole ≠ none := by
  obtain ⟨tickets, surcharges, combos, rates, waiting⟩ := t
  cases tickets <;> cases surcharges <;> cases combos <;> cases rates <;> cases waiting <;>
    simp [Staged.state, Staged.marks, Staged.whole]

theorem attempt_whole {b : PriceBook} {set : PriceSet} (h : b.staged.whole = some set) :
    b.attempt = ((b.activate set).1, some (b.activate set).2) := by
  simp only [PriceBook.attempt, h]

/-- R80: an outcome has a figure in each of its places. -/
theorem outcomeBytes_some (a : Activation) (b : PriceBook) : outcomeBytes (some a) b = 1 :: a.bytes b := rfl

theorem outcomeBytes_none (b : PriceBook) : outcomeBytes none b = [0, 0, 0, 0, 0, 0, 0] := rfl

theorem completes_eq_false {b : PriceBook} {t : Staged}
    (h : b.mode ≠ .onLastPart ∨ b.staged.state = .complete ∨ t.state ≠ .complete) : completes b t = false := by
  simp only [completes, Bool.and_eq_false_iff, beq_eq_false_iff_ne, bne_eq_false_iff_eq]
  tauto

theorem completes_eq_true {b : PriceBook} {t : Staged} (hmode : b.mode = .onLastPart) (hbefore : b.staged.state ≠ .complete)
    (hafter : t.state = .complete) : completes b t = true := by
  simp [completes, hmode, hbefore, hafter]

/-- A request at the price unit that ends with its answer and the book `b`. -/
theorem Heard.prices {i : Instr} {who : Requester} {r : Reply} {s : State} {src : Link} {tag kind : Byte} {ok : Bool}
    {run : Requester → Reply → State → State} {result : Result} {fields : List Byte} {b : PriceBook}
    (h : Heard i who r s) (hx : ∀ s, exec i s = request i src tag kind ok run s)
    (hi : requestOf i = some (src, tag, kind)) (hok : ok = true)
    (hrun : ∀ u, u.prices = s.prices → run who r u = answer r result fields { u with prices := b }) :
    ∃ t, Answers i r result fields [.prices] s t ∧ t.prices = b :=
  h.answers hx hi hok (hrun _ (hearing_prices i r s)) ((only_prices (by simp)).2 (Only.refl _ _)) (by simp)
    fun t ht => ht .prices (by simp)

/-- Settles O49: each stores what it carries, and activates a whole set under ON_LAST_PART alone. -/
theorem stagedPricesAreKept : Obligations.StagedPricesAreKept := by
  unfold Obligations.StagedPricesAreKept
  refine ⟨?_, ?_, ?_, ?_, ?_⟩
  · intro src tag part fields who r s p h hp hrange hwaiting hno
    refine h.prices (fun _ => rfl) rfl (by rw [hp]; rfl) fun u hu => ?_
    have hcompletes := completes_eq_false (b := s.prices) (t := s.prices.staged.store p) hno
    simp only [hp, hu, hwaiting, hrange, hcompletes, Bool.false_eq_true, if_false, Bool.not_true, markBytes_eq,
      outcomeBytes_none]
  · intro src tag part fields who r s p set h hp hrange hwaiting hmode hbefore hafter hset
    have hcompletes := completes_eq_true hmode hbefore hafter
    have hattempt := attempt_whole (b := { s.prices with staged := s.prices.staged.store p }) hset
    have hact := activated_activate set { s.prices with staged := s.prices.staged.store p }
    generalize PriceBook.activate { s.prices with staged := s.prices.staged.store p } set = x at hattempt hact
    obtain ⟨t, ht, hprices⟩ := h.prices (result := .ok) (b := x.1)
      (fields := x.1.staged.marks.map (fun m => if m then 1 else 0) ++ 1 :: x.2.bytes x.1) (fun _ => rfl) rfl
      (by rw [hp]; rfl) fun u hu => by
        simp only [hp, hu, hwaiting, hrange, hcompletes, Bool.false_eq_true, if_false, Bool.not_true, if_true, hattempt,
          markBytes_eq, outcomeBytes_some]
    rw [← hprices] at ht hact
    exact ⟨t, _, ht, hact⟩
  · intro src tag minute who r s set h hstate hset
    have hattempt := attempt_whole (b := { s.prices with mode := .onLastPart }) hset
    have hact := activated_activate set { s.prices with mode := .onLastPart }
    obtain ⟨hwaiting, -⟩ := complete_iff.1 hstate
    generalize PriceBook.activate { s.prices with mode := .onLastPart } set = x at hattempt hact
    obtain ⟨t, ht, hprices⟩ := h.prices (result := .ok) (b := x.1) (fields := 1 :: x.2.bytes x.1) (fun _ => rfl) rfl rfl fun u hu => by
        have hread : readMode 3 minute.toNat = some .onLastPart := rfl
        simp only [hread, hu, hwaiting, hstate, Bool.false_eq_true, if_false, and_self, if_true, hattempt, outcomeBytes_some]
    rw [← hprices] at ht hact
    exact ⟨t, _, ht, hact⟩
  · intro src tag mode minute who r s m h hm hwaiting
    refine h.prices (fun _ => rfl) rfl rfl fun u hu => ?_
    have hread : readMode mode minute.toNat = some m := by
      rcases hm with ⟨rfl, rfl⟩ | ⟨rfl, hle, rfl⟩ | ⟨rfl, rfl, -⟩
      · rfl
      · simp [readMode, hle]
      · rfl
    have hno : ¬ (m = .onLastPart ∧ s.prices.staged.state = .complete) := by
      rintro ⟨rfl, hstate⟩
      rcases hm with ⟨-, hm⟩ | ⟨-, -, hm⟩ | ⟨-, -, hm⟩
      · cases hm
      · cases hm
      · exact hm hstate
    simp only [hread, hu, hwaiting, Bool.false_eq_true, if_false, if_neg hno, outcomeBytes_none]
  · intro src tag who r s h
    refine h.prices (fun _ => rfl) rfl rfl fun u hu => ?_
    rw [hu]
    cases s.prices.staged.state <;> rfl

end Sys2Proof.Machine
end

section
/-! PROOFS. The internal entries RELEASE_BASKET and FREE_SALE, and the activation a released basket completes
(O32, O50). -/

namespace Sys2Proof.Machine

-- ## The array of a screening

theorem Grid.at_change (g : Grid) (f : SeatState → SeatState) (y : Seat) : Grid.at (Grid.change g f) y = (Grid.at g y).map f := by
  unfold Grid.at Grid.change
  by_cases h : y.1 = 0 ∨ y.2 = 0
  · simp [h]
  · simp only [h, if_false, List.getElem?_map]
    cases g[y.1 - 1]? with
    | none => rfl
    | some row =>
      simp only [Option.map_some, Option.bind_some, List.getElem?_map]
      cases row[y.2 - 1]? with
      | none => rfl
      | some o => cases o <;> rfl

theorem Grid.at_freeHeld (g : Grid) (slot ref : Nat) (y : Seat) : Grid.at (Grid.freeHeld g slot ref) y
    = if Grid.at g y = some (.held slot ref) then some .free else Grid.at g y := by
  rw [Grid.freeHeld, Grid.at_change]
  cases Grid.at g y with
  | none => simp
  | some x => by_cases h : x = .held slot ref <;> simp [h]

theorem Grid.at_freeSold (g : Grid) (n : Nat) (y : Seat) : Grid.at (Grid.freeSold g n) y
    = match Grid.at g y with
      | some (.sold m i) => if m = n then some .free else some (.sold m i)
      | other => other := by
  rw [Grid.freeSold, Grid.at_change]
  cases Grid.at g y with
  | none => rfl
  | some x =>
    cases x with
    | sold m i =>
      simp only [Option.map_some]
      split <;> rfl
    | free => rfl
    | blocked => rfl
    | held a b => rfl

/-- A change of one screening keeps the ids, so the screening is found again. -/
theorem screening_onScreening {s : State} {n : Nat} {c : Screening} (h : s.screening n = some c) {f : Screening → Screening}
    (hf : ∀ k, (f k).id = k.id) : (s.onScreening n f).screening n = some (f c) := by
  unfold State.screening at h ⊢
  rw [onScreening_screenings, List.find?_map]
  have hid : ((fun r : Screening => r.id == n) ∘ fun k : Screening => if k.id = n then f k else k) = fun r => r.id == n := by
    funext k
    simp only [Function.comp_apply]
    split
    · rw [hf]
    · rfl
  rw [hid, h, Option.map_some]
  have hc : c.id = n := screening_id (s := s) h
  rw [if_pos hc]

/-- A change of one screening's array changes nothing else of the screenings. -/
theorem seatsOnly_of {s t : State} {n : Nat} {F : Grid → Grid}
    (h : t.screenings = (s.onScreening n (fun c => c.withSeats (F c.seats))).screenings) : SeatsOnly n s t :=
  ⟨F, h.trans (onScreening_screenings _ _ _)⟩

theorem screening_of_onScreening {s t : State} {n : Nat} {c : Screening} {F : Grid → Grid}
    (h : t.screenings = (s.onScreening n (fun c => c.withSeats (F c.seats))).screenings) (hc : s.screening n = some c) :
    t.screening n = some (c.withSeats (F c.seats)) := by
  rw [← screening_onScreening hc (f := fun c => c.withSeats (F c.seats)) fun _ => rfl]
  unfold State.screening
  rw [h]

-- ## Stock

/-- R135: a move of as many units as stand there. -/
theorem Stock.move_basket {n : Nat} {k : Stock} (h : n ≤ k.inBaskets) : Stock.move .inBaskets .available n k
    = { k with inBaskets := k.inBaskets - n, available := k.available + n } := by
  simp [Stock.move, Stock.at, Stock.put, Nat.min_eq_left h]

theorem moveStock_get (kind : Fin 8) (p q : Place) (n : Nat) (s : State) (k : Fin 8) :
    (moveStock kind p q n s).vouchers.stock.get k
      = if kind = k then Stock.move p q n (s.vouchers.stock.get k) else s.vouchers.stock.get k := by
  unfold moveStock State.onStock
  dsimp only
  rw [Tab.get_modify]

theorem returnStock_cons (l : VoucherLine) (vs : List VoucherLine) (s : State) :
    returnStock (l :: vs) s = returnStock vs (moveStock l.kind .inBaskets .available l.quantity s) := rfl

theorem returnStock_stock_other {vs : List VoucherLine} {k : Fin 8} (h : k ∉ vs.map (·.kind)) (s : State) :
    (returnStock vs s).vouchers.stock.get k = s.vouchers.stock.get k := by
  induction vs generalizing s with
  | nil => rfl
  | cons l vs ih =>
    rw [List.map_cons, List.mem_cons, not_or] at h
    obtain ⟨hne, hrest⟩ := h
    rw [returnStock_cons, ih hrest, moveStock_get, if_neg (Ne.symm hne)]

/-- R72: each line's units are available again. -/
theorem returnStock_stock {vs : List VoucherLine} (hn : (vs.map (·.kind)).Nodup) {s : State}
    (hle : ∀ v ∈ vs, v.quantity ≤ (s.vouchers.stock.get v.kind).inBaskets) {v : VoucherLine} (hv : v ∈ vs) :
    (returnStock vs s).vouchers.stock.get v.kind = { s.vouchers.stock.get v.kind with
      inBaskets := (s.vouchers.stock.get v.kind).inBaskets - v.quantity
      available := (s.vouchers.stock.get v.kind).available + v.quantity } := by
  induction vs generalizing s with
  | nil => cases hv
  | cons l vs ih =>
    rw [List.map_cons, List.nodup_cons] at hn
    obtain ⟨hl, hrest⟩ := hn
    have hother : ∀ w ∈ vs, (moveStock l.kind .inBaskets .available l.quantity s).vouchers.stock.get w.kind
        = s.vouchers.stock.get w.kind := fun w hw => by
      rw [moveStock_get, if_neg]
      rintro e
      exact hl (e ▸ List.mem_map_of_mem hw)
    rw [returnStock_cons]
    rcases List.mem_cons.1 hv with rfl | hv
    · rw [returnStock_stock_other hl, moveStock_get, if_pos rfl, Stock.move_basket (hle v (by simp))]
    · rw [ih hrest (fun w hw => by rw [hother w hw]; exact hle w (List.mem_cons_of_mem _ hw)) hv, hother v hv]

theorem returnStock_records (vs : List VoucherLine) (s : State) :
    (returnStock vs s).vouchers.records = s.vouchers.records ∧ (returnStock vs s).vouchers.serial = s.vouchers.serial := by
  induction vs generalizing s with
  | nil => exact ⟨rfl, rfl⟩
  | cons l vs ih =>
    rw [returnStock_cons]
    exact ih (moveStock l.kind .inBaskets .available l.quantity s)

-- ## The banks as a basket leaves (R76, R84)

/-- The frame of a PRICES_ACTIVE of a deferred activation. -/
def deferredFrame (fields : List Byte) : Frame := noticeFrame 0xE8 (2 :: fields)

/-- R84: what the emptied RETAINED bank shows as discarded. -/
def Activation.shown (discarded : Option Nat) : Activation → Activation
  | .completed g none => .completed g discarded
  | other => other

/-- R84: the price book as the RETAINED bank empties and a deferred activation completes. -/
theorem emptyRetained_completes {s : State} {set : PriceSet} (hw : s.prices.staged.waiting = true)
    (hset : s.prices.staged.whole = some set) :
    let x := PriceBook.activate { s.prices with
      retained := none, staged := { s.prices.staged with waiting := false } } set
    emptyRetained s = notifyPrices 2 (x.2.shown (s.prices.retained.map (·.generation))) { s with prices := x.1 } := by
  intro x
  simp only [emptyRetained, hw, if_true, hset]
  rfl

theorem emptyRetained_still {s : State} (hw : s.prices.staged.waiting = false) :
    emptyRetained s = { s with prices := { s.prices with retained := none } } := by
  simp only [emptyRetained, hw, Bool.false_eq_true, if_false]

theorem emptyRetained_part {s : State} (hset : s.prices.staged.whole = none) :
    emptyRetained s = { s with prices := { s.prices with retained := none } } := by
  simp only [emptyRetained, hset, ite_self]

/-- R76: the count of ACTIVE falls. -/
theorem uncountBasket_active {s : State} {g : Nat} {k : Bank} (h : s.prices.active = some k) (hg : k.generation = g) :
    uncountBasket g s = { s with prices := { s.prices with active := some { k with count := k.count - 1 } } } := by
  simp only [uncountBasket, h, if_pos hg]

theorem uncountBasket_other {s : State} {g : Nat} (h : ∀ k, s.prices.active = some k → k.generation ≠ g) :
    uncountBasket g s = uncountBasket.uncountRetained g s := by
  unfold uncountBasket
  split
  · next k hk => rw [if_neg (h k hk)]
  · rfl

/-- The state as RETAINED's count falls. -/
def State.retainedDown (q : Bank) (s : State) : State :=
  { s with prices := { s.prices with retained := some { q with count := q.count - 1 } } }

theorem uncountRetained_eq {s : State} {g : Nat} {q : Bank} (h : s.prices.retained = some q) (hg : q.generation = g) :
    uncountBasket.uncountRetained g s = if q.count ≤ 1 then emptyRetained (s.retainedDown q) else s.retainedDown q := by
  simp only [uncountBasket.uncountRetained, h, if_pos hg]
  rfl

/-- What a basket that leaves has sent of a deferred activation. -/
def Defers (s : State) (first : Line → List Frame) : Prop :=
  first = nothing ∨ ∃ fields, first = on .ol [deferredFrame fields] ∧ s.prices.staged.waiting = true

theorem emptyRetained_says (s : State) : ∃ first, Says first s (emptyRetained s) ∧ Defers s first := by
  cases hw : s.prices.staged.waiting with
  | false =>
    rw [emptyRetained_still hw]
    exact ⟨nothing, .of_only (bs := [.prices]) (by simp) (by simp), .inl rfl⟩
  | true =>
    cases hset : s.prices.staged.whole with
    | none =>
      rw [emptyRetained_part hset]
      exact ⟨nothing, .of_only (bs := [.prices]) (by simp) (by simp), .inl rfl⟩
    | some set =>
      rw [emptyRetained_completes hw hset]
      exact ⟨_, (says_notifyOffice _ _ _).after_only (bs := [.prices]) (by simp) (by simp), .inr ⟨_, rfl, hw⟩⟩

theorem uncountBasket_says (g : Nat) (s : State) : ∃ first, Says first s (uncountBasket g s) ∧ Defers s first := by
  have still : ∀ {u : State}, Only [.prices] s u → ∃ first, Says first s u ∧ Defers s first := fun hu =>
    ⟨nothing, .of_only hu (by simp), .inl rfl⟩
  have retained : ∃ first, Says first s (uncountBasket.uncountRetained g s) ∧ Defers s first := by
    cases hr : s.prices.retained with
    | none =>
      simp only [uncountBasket.uncountRetained, hr]
      exact still (Only.refl _ s)
    | some q =>
      by_cases hg : q.generation = g
      · rw [uncountRetained_eq hr hg]
        split
        · obtain ⟨first, hsays, hd⟩ := emptyRetained_says (s.retainedDown q)
          exact ⟨first, hsays.after_only (bs := [.prices]) (by simp [State.retainedDown]) (by simp), hd⟩
        · exact still (by simp [State.retainedDown])
      · simp only [uncountBasket.uncountRetained, hr, if_neg hg]
        exact still (Only.refl _ s)
  unfold uncountBasket
  split
  · split
    · exact still (by simp)
    · exact retained
  · exact retained

theorem lockIfClosing_stations (o : Owner) (s : State) (m : Fin 8) : (lockIfClosing o s).ifc.stations.get m
    = if o = .station m ∧ (s.ifc.stations.get m).state = .closing then { s.ifc.stations.get m with state := .locked }
      else s.ifc.stations.get m := by
  cases o with
  | office => simp [lockIfClosing]
  | station n =>
    simp only [lockIfClosing, State.onStation, Tab.get_modify]
    by_cases h : n = m
    · subst h
      simp
    · simp [h]

/-- R72, R76, R168: what the freeing of a slot does. -/
theorem freeSlot_leaves (i : Fin 16) (b : Basket) (s : State) : LeavesSlot i b s (freeSlot i b s) := by
  have hcount : Only [.prices, .lines] s (uncountBasket b.generation s) := (only_uncountBasket (by simp)).2 (Only.refl _ s)
  have hb : (uncountBasket b.generation s).baskets = s.baskets := hcount .baskets (by simp)
  have hs : (uncountBasket b.generation s).ifc.stations = s.ifc.stations := hcount .stations (by simp)
  have hlock : Only [.stations] { uncountBasket b.generation s with baskets := (uncountBasket b.generation s).baskets.set i none }
      (freeSlot i b s) := by
    simp [freeSlot]
  have hp : (freeSlot i b s).prices = (uncountBasket b.generation s).prices := hlock .prices (by simp)
  refine ⟨?_, fun m => ?_, fun k hk hg => ?_, fun q hother hq hg => ⟨fun hcount => ?_, fun hcount hw => ?_⟩⟩
  · rw [(hlock .baskets (by simp) : (freeSlot i b s).baskets = _), hb]
  · rw [freeSlot, lockIfClosing_stations]
    dsimp only
    rw [hs]
  · rw [hp, uncountBasket_active hk hg]
  · rw [hp, uncountBasket_other hother, uncountRetained_eq hq hg, if_neg (by omega)]
    rfl
  · rw [hp, uncountBasket_other hother, uncountRetained_eq hq hg, if_pos hcount,
      emptyRetained_still (by simpa [State.retainedDown] using hw)]
    rfl

theorem freeSlot_says (i : Fin 16) (b : Basket) (s : State) : ∃ first, Says first s (freeSlot i b s) ∧ Defers s first := by
  obtain ⟨first, hsays, hd⟩ := uncountBasket_says b.generation s
  refine ⟨first, hsays.then_only (bs := [.baskets, .stations]) ?_ (by simp), hd⟩
  simp [freeSlot]

/-- What a basket leaving its slot does, seen from states that differ elsewhere. -/
theorem LeavesSlot.congr {i : Fin 16} {b : Basket} {s t s' t' : State} (h : LeavesSlot i b s t) {bs cs : List Block}
    (hs : Only bs s s') (ht : Only cs t t') (hb : ∀ x ∈ [Block.baskets, .stations, .prices], x ∉ bs ∧ x ∉ cs) :
    LeavesSlot i b s' t' := by
  have e₁ : s'.baskets = s.baskets := hs .baskets (hb .baskets (by simp)).1
  have e₂ : s'.ifc.stations = s.ifc.stations := hs .stations (hb .stations (by simp)).1
  have e₃ : s'.prices = s.prices := hs .prices (hb .prices (by simp)).1
  have f₁ : t'.baskets = t.baskets := ht .baskets (hb .baskets (by simp)).2
  have f₂ : t'.ifc.stations = t.ifc.stations := ht .stations (hb .stations (by simp)).2
  have f₃ : t'.prices = t.prices := ht .prices (hb .prices (by simp)).2
  unfold LeavesSlot at h ⊢
  rw [e₁, e₂, e₃, f₁, f₂, f₃]
  exact h

-- ## What the end of a basket tells (R72)

theorem toOwner_of_bindings {s u : State} (h : ∀ n, u.binding n = s.binding n) (o : Owner) (f : Frame) :
    toOwner u o f = toOwner s o f := by
  cases o with
  | office => rfl
  | station n => rw [toOwner, toOwner, h]

theorem freeSlot_binding (i : Fin 16) (b : Basket) (s : State) (m : Fin 8) : (freeSlot i b s).binding m = s.binding m := by
  obtain ⟨-, hs, -⟩ := freeSlot_leaves i b s
  rw [State.binding, hs m]
  split <;> rfl

/-- The frame of a BASKET_ENDED. -/
def endedFrame (slot : Fin 16) (b : Basket) (reason : EndReason) (n : Nat) : Frame :=
  noticeFrame 0xE6 (bytes1 slot.val ++ bytes2 b.ref ++ [reason.code] ++ bytes1 n)

/-- The answer of the request that waits for a basket to leave its slot. -/
def waiterFrames (b : Basket) (n : Nat) : Line → List Frame :=
  b.waiter.elim nothing (fun w => on w.link.line [answerFrame w .ok (bytes1 n)])

/-- R72: the frames that an end sends, by its reason. -/
def endFrames (s : State) (slot : Fin 16) (b : Basket) (n : Nat) (reason : EndReason) : Line → List Frame :=
  match reason with
  | .committed => nothing
  | .cancelled => waiterFrames b n
  | .voided => after (toOwner s b.owner (endedFrame slot b reason n)) (waiterFrames b n)
  | _ => toOwner s b.owner (endedFrame slot b reason n)

theorem answerWaiter_says (b : Basket) (n : Nat) (s : State) : Says (waiterFrames b n) s (answerWaiter b n s) := by
  unfold answerWaiter waiterFrames
  split
  · next h => simpa [h] using Says.refl s
  · next w h => simpa [h] using says_answer w .ok (bytes1 n) s

theorem tellEnd_says (slot : Fin 16) (b : Basket) (n : Nat) (reason : EndReason) (s : State) :
    Says (endFrames s slot b n reason) s (tellEnd slot b reason n s) := by
  cases reason with
  | committed => exact .refl s
  | cancelled => exact answerWaiter_says b n s
  | voided => exact (says_notifyOwner _ _ _ s).trans (answerWaiter_says b n _)
  | expired => exact says_notifyOwner _ _ _ s
  | payFailed => exact says_notifyOwner _ _ _ s
  | stationClosed => exact says_notifyOwner _ _ _ s
  | doubtReleased => exact says_notifyOwner _ _ _ s

theorem endFrames_congr {s u : State} (h : ∀ n, u.binding n = s.binding n) (slot : Fin 16) (b : Basket) (n : Nat)
    (reason : EndReason) : endFrames u slot b n reason = endFrames s slot b n reason := by
  unfold endFrames
  simp only [toOwner_of_bindings h]

-- ## RELEASE_BASKET (R50, R72)

/-- R50: the array freed of what the basket holds. -/
def freedOf (slot : Fin 16) (ref scr : Nat) (u : State) : State :=
  u.onScreening scr (fun c => c.withSeats (Grid.freeHeld c.seats slot.val ref))

/-- R50: the seats that the basket holds, on its screening. -/
def heldOf (slot : Fin 16) (ref scr : Nat) (u : State) : Nat :=
  (u.screening scr).elim 0 (fun c => Grid.heldBy c.seats slot.val ref)

theorem runReleaseBasket_eq {slot : Fin 16} {ref scr : Nat} {u : State} {b : Basket} (hb : u.basket slot ref = some b) :
    runReleaseBasket slot ref scr u = tellEnd slot b (b.endReason.getD .cancelled) (heldOf slot ref scr u)
      (freeSlot slot b (returnStock b.vouchers (freedOf slot ref scr u))) := by
  have hb' : (freedOf slot ref scr u).basket slot ref = some b := hb
  unfold runReleaseBasket
  dsimp only
  rw [show u.onScreening scr (fun c => c.withSeats (Grid.freeHeld c.seats slot.val ref)) = freedOf slot ref scr u from rfl, hb']
  rfl

theorem freedOf_only (slot : Fin 16) (ref scr : Nat) (u : State) : Only [.screenings] u (freedOf slot ref scr u) := by
  simp [freedOf]

theorem returnStock_only (vs : List VoucherLine) (u : State) : Only [.vouchers] u (returnStock vs u) :=
  (only_returnStock (by simp)).2 (Only.refl _ u)

theorem freeSlot_only (i : Fin 16) (b : Basket) (u : State) : Only [.baskets, .prices, .lines, .stations] u (freeSlot i b u) :=
  (only_freeSlot (by simp)).2 (Only.refl _ u)

theorem tellEnd_only (i : Fin 16) (b : Basket) (reason : EndReason) (n : Nat) (u : State) :
    Only [.lines] u (tellEnd i b reason n u) := (only_tellEnd (by simp)).2 (Only.refl _ u)

/-- R50, R72: what RELEASE_BASKET carried out leaves, and sends. -/
structure Released (slot : Fin 16) (ref scr : Nat) (b : Basket) (first : Line → List Frame) (s w : State) : Prop where
  sends : Says (after first (endFrames s slot b (heldOf slot ref scr s) (b.endReason.getD .cancelled))) s w
  touches : Only [.screenings, .vouchers, .baskets, .prices, .stations, .lines] s w
  screenings : w.screenings = (freedOf slot ref scr s).screenings
  vouchers : w.vouchers = (returnStock b.vouchers s).vouchers
  leaves : LeavesSlot slot b s w

theorem returnStock_vouchers {vs : List VoucherLine} {s u : State} (h : u.vouchers = s.vouchers) :
    (returnStock vs u).vouchers = (returnStock vs s).vouchers := by
  induction vs generalizing s u with
  | nil => exact h
  | cons l vs ih =>
    rw [returnStock_cons, returnStock_cons]
    refine ih ?_
    simp only [moveStock, State.onStock, h]

theorem runReleaseBasket_releases {slot : Fin 16} {ref scr : Nat} {s : State} {b : Basket} (hb : s.basket slot ref = some b)
    {first : Line → List Frame} (hfirst : Says first (returnStock b.vouchers (freedOf slot ref scr s))
      (freeSlot slot b (returnStock b.vouchers (freedOf slot ref scr s)))) :
    Released slot ref scr b first s (runReleaseBasket slot ref scr s) := by
  rw [runReleaseBasket_eq hb]
  have hstart : Only [.screenings, .vouchers] s (returnStock b.vouchers (freedOf slot ref scr s)) :=
    ((freedOf_only slot ref scr s).mono (by simp)).trans ((returnStock_only _ _).mono (by simp))
  have hvouchers := returnStock_vouchers (vs := b.vouchers)
    ((freedOf_only slot ref scr s) .vouchers (by simp) : (freedOf slot ref scr s).vouchers = s.vouchers)
  have hscreenings : (returnStock b.vouchers (freedOf slot ref scr s)).screenings = (freedOf slot ref scr s).screenings :=
    returnStock_only _ _ .screenings (by simp)
  generalize returnStock b.vouchers (freedOf slot ref scr s) = u at *
  have hfree := freeSlot_only slot b u
  have hlast := tellEnd_only slot b (b.endReason.getD .cancelled) (heldOf slot ref scr s) (freeSlot slot b u)
  have hbinding : ∀ n, (freeSlot slot b u).binding n = s.binding n := fun n => by
    rw [freeSlot_binding, State.binding, State.binding, (hstart .stations (by simp) : u.ifc.stations = s.ifc.stations)]
  have htell := tellEnd_says slot b (heldOf slot ref scr s) (b.endReason.getD .cancelled) (freeSlot slot b u)
  rw [endFrames_congr hbinding] at htell
  refine ⟨(hfirst.trans htell).after_only hstart (by simp),
    (hstart.mono (by simp)).trans ((hfree.mono (by simp)).trans (hlast.mono (by simp))), ?_, ?_, ?_⟩
  · exact (hlast .screenings (by simp)).trans ((hfree .screenings (by simp)).trans hscreenings)
  · exact (hlast .vouchers (by simp)).trans ((hfree .vouchers (by simp)).trans hvouchers)
  · exact (freeSlot_leaves slot b u).congr hstart.symm hlast (by simp)

-- ## FREE_SALE (R52, R120)

theorem voidVouchers_vouchers (n : Nat) (s : State) : (voidVouchers n s).vouchers.records = s.vouchers.records.map (fun v =>
      if v.sale = n ∧ v.state = .suspended then { v with state := .void } else v)
    ∧ (voidVouchers n s).vouchers.serial = s.vouchers.serial
    ∧ ∀ kind, (voidVouchers n s).vouchers.stock.get kind = Stock.move .outstanding .available
        (s.vouchers.records.countP (fun v => v.sale == n && v.state == .suspended && v.kind == kind))
        (s.vouchers.stock.get kind) := by
  refine ⟨(settleVouchers_records _ _ _ s).trans (List.map_congr_left fun v _ => ?_), settleVouchers_serial _ _ _ s,
    settleVouchers_stock _ _ (by simp) s⟩
  simp only [Bool.and_eq_true, beq_iff_eq]

theorem sale_number {s : State} {n : Nat} {k : Sale} (h : s.sale n = some k) : k.number = n := by
  simpa using List.find?_some h

theorem sale_onSale {s : State} {n : Nat} {k : Sale} (h : s.sale n = some k) {f : Sale → Sale}
    (hf : ∀ k, (f k).number = k.number) : (s.onSale n f).sale n = some (f k) := by
  have hk := sale_number h
  unfold State.sale State.onSale at *
  rw [List.find?_map]
  have hid : ((fun r : Sale => r.number == n) ∘ fun r : Sale => if r.number == n then f r else r) = fun r => r.number == n := by
    funext r
    simp only [Function.comp_apply]
    split
    · rw [hf]
    · rfl
  rw [hid, h, Option.map_some, if_pos (by simpa using hk)]

/-- R120: the refund that completes. -/
theorem completeRefund_says (k : Sale) (q : Quote) (u : State) : Says
    (after (q.taken.elim nothing (fun w => on w.link.line [answerFrame w .ok (amountBytes q.amount)]))
      (on .ol [noticeFrame 0xEB ([1] ++ bytes3 k.number ++ bytes2 k.screening ++ [ownerByte k.origin]
        ++ paymentBytes k.payment ++ amountBytes q.amount ++ bytes1 (u.countVouchers k.number .suspended)
        ++ bytes1 (u.countVouchers k.number .redeemed))])) u (completeRefund k q u) := by
  unfold completeRefund
  dsimp only
  have hstart : Only [.sales, .vouchers] u
      (voidVouchers k.number (u.onSale k.number (fun r => { r with state := .refunded, quote := none }))) := by simp
  generalize voidVouchers k.number (u.onSale k.number (fun r => { r with state := .refunded, quote := none })) = v at hstart
  have hnotice : ∀ w : State, Says (on .ol [noticeFrame 0xEB ([1] ++ bytes3 k.number ++ bytes2 k.screening ++ [ownerByte k.origin]
        ++ paymentBytes k.payment ++ amountBytes q.amount ++ bytes1 (u.countVouchers k.number .suspended)
        ++ bytes1 (u.countVouchers k.number .redeemed))]) w
      (refundNotice 1 k (bytes2 k.screening ++ [ownerByte k.origin] ++ paymentBytes k.payment ++ amountBytes q.amount
        ++ bytes1 (u.countVouchers k.number .suspended) ++ bytes1 (u.countVouchers k.number .redeemed)) w) := fun w => by
    have h := says_notifyOffice 0xEB (bytes1 1 ++ bytes3 k.number ++ (bytes2 k.screening ++ [ownerByte k.origin]
      ++ paymentBytes k.payment ++ amountBytes q.amount ++ bytes1 (u.countVouchers k.number .suspended)
      ++ bytes1 (u.countVouchers k.number .redeemed))) w
    simp only [← List.append_assoc] at h
    exact h
  cases htaken : q.taken with
  | none =>
    rw [Option.elim_none, nothing_after]
    exact (hnotice v).after_only hstart (by simp)
  | some w =>
    rw [Option.elim_some]
    exact ((says_answer w .ok (amountBytes q.amount) v).trans (hnotice _)).after_only hstart (by simp)

end Sys2Proof.Machine
end

section
/-! PROOFS. O32 and O50. -/

namespace Sys2Proof.Machine

theorem countVouchers_eq (s : State) (n : Nat) (state : VoucherState) :
    s.countVouchers n state = s.vouchers.records.countP (fun v => v.sale == n && v.state == state) := by
  rw [State.countVouchers, List.countP_eq_length_filter]

/-- The sold seats of a sale freed. -/
def unsoldOf (scr n : Nat) (u : State) : State := u.onScreening scr (fun c => c.withSeats (Grid.freeSold c.seats n))

theorem runFreeSale_eq {scr n : Nat} {u : State} {k : Sale} {q : Quote} (hk : u.sale n = some k) (hq : k.quote = some q) :
    runFreeSale scr n u = completeRefund k q (unsoldOf scr n u) := by
  have hk' : (unsoldOf scr n u).sale n = some k := hk
  unfold runFreeSale
  dsimp only
  rw [show u.onScreening scr (fun c => c.withSeats (Grid.freeSold c.seats n)) = unsoldOf scr n u from rfl, hk']
  simp only [hq]

/-- R120: the sale as its refund completes. -/
def Sale.refundDone (k : Sale) : Sale := { k with state := .refunded, quote := none }

/-- What a refund that completes leaves of the sales and the vouchers. -/
theorem completeRefund_only (k : Sale) (q : Quote) (u : State) :
    Only [.lines] (voidVouchers k.number (u.onSale k.number Sale.refundDone)) (completeRefund k q u) := by
  unfold completeRefund
  dsimp only
  rw [only_refundNotice (by simp)]
  cases q.taken with
  | none => exact Only.refl _ _
  | some w => exact (only_answer (by simp)).2 (Only.refl _ _)

/-- Settles O32: RELEASE_BASKET empties the slot and tells of it; FREE_SALE completes the refund. -/
theorem internalEntriesFreeSeats : Obligations.InternalEntriesFreeSeats := by
  unfold Obligations.InternalEntriesFreeSeats
  refine ⟨?_, ?_⟩
  · intro slot ref scr e s b c h hb hc hkinds hstock n
    have hb' : State.basket { s with engine := e } slot ref = some b := hb
    have hc' : State.screening { s with engine := e } scr = some c := hc
    obtain ⟨first, hfirst, hdefers⟩ := freeSlot_says slot b (returnStock b.vouchers (freedOf slot ref scr { s with engine := e }))
    have hpre : Only [.screenings, .vouchers, .engine] s (returnStock b.vouchers (freedOf slot ref scr { s with engine := e })) :=
      ((only_engine (by simp)).2 (Only.refl _ s)).trans
        (((freedOf_only slot ref scr _).mono (by simp)).trans ((returnStock_only _ _).mono (by simp)))
    obtain ⟨hsends, htouches, hscreenings, hvouchers, hleaves⟩ := runReleaseBasket_releases hb' hfirst
    have hn : heldOf slot ref scr { s with engine := e } = n := by
      rw [heldOf, hc']
      rfl
    rw [hn] at hsends
    obtain ⟨t, ⟨hx, heffect, he⟩, hQ⟩ := h.carries (i := .releaseBasket) (bs := [.screenings, .baskets, .prices, .vouchers, .stations])
      (out := after first (endFrames s slot b n (b.endReason.getD .cancelled))) (u := runReleaseBasket slot ref scr { s with engine := e })
      (Q := fun t => Only [.lines, .latched, .choice] (runReleaseBasket slot ref scr { s with engine := e }) t)
      (fun _ => rfl) rfl rfl (htouches.mono (by simp)) hsends (by simp) (by simp) fun t ht => ht
    have hscr := (hQ .screenings (by simp) : t.screenings = _).trans hscreenings
    have hvo : t.vouchers = (returnStock b.vouchers { s with engine := e }).vouchers := (hQ .vouchers (by simp)).trans hvouchers
    obtain ⟨hrecords, hserial⟩ := returnStock_records b.vouchers { s with engine := e }
    refine ⟨t, _, first, _, hx, he, heffect, ?_, fun reason hreason => ?_, ?_, seatsOnly_of (F := fun g => Grid.freeHeld g slot.val ref) hscr,
      screening_of_onScreening hscr hc, Grid.at_freeHeld c.seats slot.val ref, ?_, ?_, fun v hv => ?_, fun k hk => ?_⟩
    · rcases hdefers with hd | ⟨fields, hd, hw⟩
      · exact .inl hd
      · refine .inr ⟨fields, hd, ?_⟩
        rwa [(hpre .prices (by simp) : State.prices _ = s.prices)] at hw
    · rw [hreason, Option.getD_some]
      cases reason <;> rfl
    · exact hleaves.congr ((only_engine (by simp)).2 (Only.refl [.engine] s)).symm hQ (by simp)
    · rw [hvo, hrecords]
    · rw [hvo, hserial]
    · rw [hvo]
      exact returnStock_stock (s := { s with engine := e }) hkinds hstock hv
    · rw [hvo]
      exact returnStock_stock_other hk _
  · intro scr n e s k q c h hk hq hc of
    have hnumber := sale_number hk
    have hk' : State.sale { s with engine := e } n = some k := hk
    have hsays := completeRefund_says k q (unsoldOf scr n { s with engine := e })
    have honly := completeRefund_only k q (unsoldOf scr n { s with engine := e })
    have hfree : Only [.screenings] { s with engine := e } (unsoldOf scr n { s with engine := e }) := by simp [unsoldOf]
    rw [hnumber] at honly hsays
    have hvoid : Only [.sales, .vouchers] (unsoldOf scr n { s with engine := e })
        (voidVouchers n ((unsoldOf scr n { s with engine := e }).onSale n Sale.refundDone)) := by simp
    obtain ⟨hrecords, hserial, hstock⟩ := voidVouchers_vouchers n ((unsoldOf scr n { s with engine := e }).onSale n Sale.refundDone)
    obtain ⟨t, ht, hQ⟩ := h.carries (i := .freeSale) (bs := [.screenings, .sales, .vouchers])
      (u := completeRefund k q (unsoldOf scr n { s with engine := e }))
      (Q := fun t => Only [.lines, .latched, .choice]
        (voidVouchers n ((unsoldOf scr n { s with engine := e }).onSale n Sale.refundDone)) t)
      (fun _ => rfl) rfl (runFreeSale_eq hk' hq)
      ((hfree.mono (by simp)).trans ((hvoid.mono (by simp)).trans (honly.mono (by simp)))) (hsays.after_only hfree (by simp))
      (by simp) (by simp) fun t ht => (honly.mono (by simp)).trans ht
    have hsales : t.sales = ((unsoldOf scr n { s with engine := e }).onSale n Sale.refundDone).sales :=
      (hQ .sales (by simp)).trans (((only_voidVouchers (bs := [.vouchers]) (by simp)).2 (Only.refl _ _)) .sales (by simp))
    have hscr : t.screenings = (unsoldOf scr n { s with engine := e }).screenings :=
      (hQ .screenings (by simp)).trans (hvoid .screenings (by simp))
    have hvo := (hQ .vouchers (by simp) : t.vouchers = _)
    refine ⟨t, _, ?_, seatsOnly_of (F := fun g => Grid.freeSold g n) hscr, screening_of_onScreening hscr hc,
      fun y => (Grid.at_freeSold c.seats n y).trans ?_, ?_, hsales.trans ?_, ?_, ?_, fun kind => ?_⟩
    · rw [countVouchers_eq, countVouchers_eq] at ht
      exact ht
    · rcases Grid.at c.seats y with _ | _ | _ | _ | _ <;> rfl
    · rw [State.sale, hsales]
      exact sale_onSale hk' (f := Sale.refundDone) fun _ => rfl
    · simp only [State.onSale, unsoldOf, State.onScreening, beq_iff_eq]
      rfl
    · rw [hvo]
      exact hrecords
    · rw [hvo]
      exact hserial
    · rw [hvo]
      exact hstock kind

-- ## APPLY_PRICES (R81) and the activation deferred (R84)

section
variable {src : Link} {tag : Byte} {who : Requester} {r : Reply} {s : State} {set : PriceSet}

theorem applies {b : PriceBook} {g : Nat} {d : Option Nat} (h : Heard (.applyPrices src tag) who r s)
    (hset : s.prices.staged.whole = some set) (hw : s.prices.staged.waiting = false)
    (hact : s.prices.activate set = (b, .completed g d)) :
    ∃ t, Answers (.applyPrices src tag) r .ok (Activation.bytes (.completed g d) b) [.prices] s t ∧ t.prices = b := by
  have hstate := complete_iff.2 ⟨hw, by rw [hset]; simp⟩
  refine h.prices (fun _ => rfl) rfl rfl fun u hu => ?_
  simp only [hu, hstate, attempt_whole hset, hact]

theorem appliesLater {b : PriceBook} (h : Heard (.applyPrices src tag) who r s) (hset : s.prices.staged.whole = some set)
    (hw : s.prices.staged.waiting = false) (hact : s.prices.activate set = (b, .deferred)) :
    ∃ t, Answers (.applyPrices src tag) r .okPending b.pendingBytes [.prices] s t ∧ t.prices = b := by
  have hstate := complete_iff.2 ⟨hw, by rw [hset]; simp⟩
  refine h.prices (fun _ => rfl) rfl rfl fun u hu => ?_
  simp only [hu, hstate, attempt_whole hset, hact]

end

/-- R78: a set that waits is in PENDING. -/
theorem state_of_waiting {t : Staged} (h : t.waiting = true) : t.state = .waiting := by
  rw [Staged.state, if_pos h]

/-- A set not whole is neither COMPLETE nor waits. -/
theorem state_of_part {t : Staged} (hw : t.waiting = false) (hset : t.whole = none) : t.state = .empty ∨ t.state = .part := by
  have hno := mt complete_iff.1 (fun h => h.2 hset)
  cases hs : t.state with
  | empty => exact .inl rfl
  | part => exact .inr rfl
  | complete => exact absurd hs hno
  | waiting =>
    rw [Staged.state, hw, if_neg (by simp)] at hs
    split at hs
    · cases hs
    · split at hs <;> cases hs

/-- R84: the PRICES_ACTIVE of the activation that an emptied RETAINED bank completes. -/
theorem emptyRetained_frame {s : State} {set : PriceSet} (hw : s.prices.staged.waiting = true)
    (hset : s.prices.staged.whole = some set) :
    let x := PriceBook.activate { s.prices with
      retained := none, staged := { s.prices.staged with waiting := false } } set
    Says (on .ol [deferredFrame ((x.2.shown (s.prices.retained.map (·.generation))).bytes x.1)]) s (emptyRetained s)
      ∧ (emptyRetained s).prices = x.1 := by
  intro x
  rw [emptyRetained_completes hw hset]
  refine ⟨(says_notifyOffice _ _ _).after_only (bs := [.prices]) (by simp) (by simp), ?_⟩
  exact ((only_notifyPrices (bs := [.lines]) (by simp)).2 (Only.refl _ _)) .prices (by simp)

/-- R84: what is sent and what the banks hold as the last basket of the RETAINED bank leaves. -/
theorem freeSlot_completes {slot : Fin 16} {b : Basket} {s : State} {q : Bank} {set : PriceSet}
    (hq : s.prices.retained = some q) (hg : q.generation = b.generation)
    (hother : ∀ k, s.prices.active = some k → k.generation ≠ b.generation) (hcount : q.count ≤ 1)
    (hw : s.prices.staged.waiting = true) (hset : s.prices.staged.whole = some set) :
    let x := PriceBook.activate { s.prices with
      retained := none, staged := { s.prices.staged with waiting := false } } set
    Says (on .ol [deferredFrame ((x.2.shown (some q.generation)).bytes x.1)]) s (freeSlot slot b s)
      ∧ (freeSlot slot b s).prices = x.1 := by
  intro x
  obtain ⟨hsays, hprices⟩ := emptyRetained_frame (s := s.retainedDown q) hw hset
  have hdown : uncountBasket b.generation s = emptyRetained (s.retainedDown q) := by
    rw [uncountBasket_other hother, uncountRetained_eq hq hg, if_pos hcount]
  have hlast : Only [.baskets, .stations] (uncountBasket b.generation s) (freeSlot slot b s) := by simp [freeSlot]
  rw [hdown] at hlast
  refine ⟨(hsays.then_only hlast (by simp)).after_only (bs := [.prices]) (by simp [State.retainedDown]) (by simp), ?_⟩
  exact (hlast .prices (by simp)).trans hprices

/-- Settles O50: the four ways of an activation; and RELEASE_BASKET, by the freeing of its slot. -/
theorem appliedPricesComeIntoForce : Obligations.AppliedPricesComeIntoForce := by
  unfold Obligations.AppliedPricesComeIntoForce
  refine ⟨?_, ?_, ?_, ?_⟩
  · intro src tag who r s set h hset hw g entered
    refine ⟨fun k hk => ?_, fun hnone => ?_, fun k hk hcount => ?_, fun k hk hcount hret => ?_, fun k q hk hcount hret => ?_⟩
    · obtain ⟨hactive, hretained⟩ := freshGeneration_ne s.prices
      exact hk.elim (hactive k) (hretained k)
    · exact applies h hset hw (activate_first hnone)
    · exact applies h hset hw (activate_discards hk hcount)
    · exact applies h hset hw (activate_retains hk hcount hret)
    · obtain ⟨t, ht, hp⟩ := appliesLater h hset hw (activate_defers hk hcount hret)
      simp only [PriceBook.pendingBytes, hret] at ht
      exact ⟨t, ht, hp⟩
  · intro src tag who r s h hset hw
    refine h.answers_only (fun _ => rfl) rfl rfl ?_
    rcases state_of_part hw hset with hs | hs <;> simp only [hearing_prices, hs, markBytes_eq]
  · intro src tag who r s q h hw hret
    refine h.answers_only (fun _ => rfl) rfl rfl ?_
    simp only [hearing_prices, state_of_waiting hw, PriceBook.pendingBytes, hret]
  · intro slot ref scr e s b q set h hb hret hg hother hcount hw hset g entered
    have hb' : State.basket { s with engine := e } slot ref = some b := hb
    have hpre : Only [.screenings, .vouchers, .engine] s (returnStock b.vouchers (freedOf slot ref scr { s with engine := e })) :=
      ((only_engine (by simp)).2 (Only.refl _ s)).trans
        (((freedOf_only slot ref scr _).mono (by simp)).trans ((returnStock_only _ _).mono (by simp)))
    have hprices : (returnStock b.vouchers (freedOf slot ref scr { s with engine := e })).prices = s.prices :=
      hpre .prices (by simp)
    obtain ⟨hsays, hbook⟩ := freeSlot_completes (slot := slot) (b := b)
      (s := returnStock b.vouchers (freedOf slot ref scr { s with engine := e })) (q := q) (set := set)
      (by rw [hprices]; exact hret) hg (by rw [hprices]; exact hother) hcount (by rw [hprices]; exact hw)
      (by rw [hprices]; exact hset)
    rw [hprices] at hsays hbook
    generalize hact : PriceBook.activate { s.prices with
      retained := none, staged := { s.prices.staged with waiting := false } } set = x at hsays hbook
    obtain ⟨hsends, htouches, -, -, -⟩ := runReleaseBasket_releases hb' hsays
    obtain ⟨t, ⟨hx, heffect, -⟩, hQ⟩ := h.carries (i := .releaseBasket)
      (bs := [.screenings, .baskets, .prices, .vouchers, .stations]) (u := runReleaseBasket slot ref scr { s with engine := e })
      (Q := fun t => Only [.lines, .latched, .choice] (runReleaseBasket slot ref scr { s with engine := e }) t)
      (fun _ => rfl) rfl rfl (htouches.mono (by simp)) hsends (by simp) (by simp) fun t ht => ht
    have hp : t.prices = (freeSlot slot b (returnStock b.vouchers (freedOf slot ref scr { s with engine := e }))).prices := by
      rw [(hQ .prices (by simp) : t.prices = _), runReleaseBasket_eq hb']
      exact tellEnd_only _ _ _ _ _ .prices (by simp)
    have hpt := hp.trans hbook
    obtain ⟨notices, hsending, -, -⟩ := (heffect.sends .ol).sending
    refine ⟨t, (x.2.shown (some q.generation)).bytes x.1, endFrames { s with engine := e } slot b (heldOf slot ref scr { s with engine := e })
      (b.endReason.getD .cancelled) .ol ++ notices, hx, ?_, fun hnone => ?_, fun k hk hk0 => ?_, fun k hk hk0 => ?_⟩
    · rw [hsending]
      simp only [after, on, if_true, List.append_assoc]
      rfl
    · rw [hpt, ← hact, activate_first (b := { s.prices with retained := none, staged := { s.prices.staged with waiting := false } }) hnone]
      exact ⟨rfl, rfl⟩
    · rw [hpt, ← hact, activate_discards (b := { s.prices with retained := none, staged := { s.prices.staged with waiting := false } }) hk hk0]
      exact ⟨rfl, rfl⟩
    · rw [hpt, ← hact, activate_retains (b := { s.prices with retained := none, staged := { s.prices.staged with waiting := false } }) hk hk0 rfl]
      exact ⟨rfl, rfl⟩

end Sys2Proof.Machine
end

section
/-! PROOFS. Requests naming a basket: OPEN_BASKET, vouchers, TALLY (O35 to O37). -/

namespace Sys2Proof.Machine

-- ## A request naming a basket

theorem Owned.onOwned_eq {who : Requester} {slot : Byte} {ref : BitVec 16} {i : Fin 16} {b : Basket} {u : State}
    (ho : Owned who slot ref i b u) (hb : b.state ≠ .ending) (r : Reply) (f : Owner → Fin 16 → Basket → State → State) :
    onOwned who r slot ref f u = f b.owner i b u := by
  rw [onOwned, ho.owned_eq, if_neg hb]

-- ## The lowest free slot

/-- The first index with a property. -/
theorem find_indices {n : Nat} {p : Fin n → Bool} {i : Fin n} (hi : p i = true) (hmin : ∀ j, j < i → p j = false) :
    (indices n).find? p = some i := by
  rw [List.find?_eq_some_iff_getElem]
  refine ⟨hi, i.val, by simp [indices], by simp [indices], fun j hj => ?_⟩
  have hlt : j < n := hj.trans i.isLt
  have hget : (indices n)[j]'(by simp [indices, hlt]) = ⟨j, hlt⟩ := by simp [indices]
  rw [hget, hmin ⟨j, hlt⟩ hj]
  rfl

/-- R55: the ref of a new basket is the first from the counter on that no live basket has. -/
theorem freeRef_firstFrom (s : State) :
    FirstFrom 65535 s.nextBasketRef (fun n => ∃ j b, s.baskets.get j = some b ∧ b.ref = n) s.freeRef := by
  have h := firstFree_firstFrom (held := fun n => s.liveBaskets.any (fun x => x.2.ref == n)) (top := 65535) (fuel := 17)
    (c := s.nextBasketRef) (freeRef_free s)
  have hheld : (fun n => s.liveBaskets.any (fun x => x.2.ref == n) = true)
      = fun n => ∃ j b, s.baskets.get j = some b ∧ b.ref = n := by
    funext n
    simp only [eq_iff_iff, List.any_eq_true, beq_iff_eq]
    constructor
    · rintro ⟨⟨j, b⟩, hx, rfl⟩
      exact ⟨j, b, (mem_liveBaskets s j b).1 hx, rfl⟩
    · rintro ⟨j, b, hb, rfl⟩
      exact ⟨(j, b), (mem_liveBaskets s j b).2 hb, rfl⟩
  rw [hheld] at h
  exact h

theorem length_basketsOf (s : State) (o : Owner) : (s.basketsOf o).length
    = ((indices 16).filter (fun j => (s.baskets.get j).any (fun b => b.owner == o))).length := by
  rw [State.basketsOf, ← List.countP_eq_length_filter, ← List.countP_eq_length_filter]
  exact countP_liveBaskets (fun b => b.owner == o) s

theorem basketsOf_eq_nil {s : State} {o : Owner} (h : ∀ j b, s.baskets.get j = some b → b.owner ≠ o) : s.basketsOf o = [] := by
  rw [State.basketsOf, List.filter_eq_nil_iff]
  rintro ⟨j, b⟩ hx
  simpa using h j b ((mem_liveBaskets s j b).1 hx)

theorem atLimit_eq_none {s : State} {o : Owner} (hstation : o ≠ .office → ∀ j b, s.baskets.get j = some b → b.owner ≠ o)
    (hoffice : o = .office → ((indices 16).filter (fun j =>
      (s.baskets.get j).any (fun b => b.owner == .office))).length < 8) : s.atLimit o = none := by
  cases o with
  | office =>
    have h := hoffice rfl
    rw [← length_basketsOf] at h
    simp only [State.atLimit]
    rw [if_neg (by omega)]
  | station n => simp only [State.atLimit, basketsOf_eq_nil (hstation (by simp))]

theorem opensFor_of {c : Screening} {o : Owner}
    (h : c.state = .onSale ∧ (o = .office ∨ c.kioskSales = true) ∨ c.state = .loaded ∧ o = .office) : c.opensFor o = true := by
  rcases h with ⟨hs, rfl | hk⟩ | ⟨hs, rfl⟩
  · simp [Screening.opensFor, hs]
  · cases o <;> simp [Screening.opensFor, hs, hk]
  · simp [Screening.opensFor, hs]

/-- R59: OPEN_BASKET that passes its checks. -/
theorem runOpenBasket_opens {o : Owner} {r : Reply} {id : Nat} {s : State} {c : Screening} {k : Bank} {i : Fin 16}
    (hid : id ≠ 0) (hc : s.screening id = some c) (hopens : c.opensFor o = true) (hlimit : s.atLimit o = none)
    (hk : s.prices.active = some k) (hi : (indices 16).find? (fun i => (s.baskets.get i).isNone) = some i) :
    runOpenBasket o r id s = answer r .ok (bytes1 i.val ++ bytes2 s.freeRef ++ bytes1 k.generation ++ bytes2 (s.holdTime o))
      { countBasket (s.putBasket i (newBasket s.freeRef o id k.generation (s.holdTime o))) with
        nextBasketRef := wrapSucc 65535 s.freeRef } := by
  unfold runOpenBasket
  rw [if_neg hid]
  simp only [hc, hopens, hlimit, hk, hi, Bool.not_true, Bool.false_eq_true, if_false]

/-- Settles O35: the checks of R59 pass, and the record is made. -/
theorem openBasketCreatesABasket : Obligations.OpenBasketCreatesABasket := by
  unfold Obligations.OpenBasketCreatesABasket
  intro src tag id who r s o c k i h ho hid hc hopens hstation hoffice hk hi hmin hold
  have hlowest : (indices 16).find? (fun j => (s.baskets.get j).isNone) = some i :=
    find_indices (by simp [hi]) fun j hj => (isNone_false_iff _).2 (hmin j hj)
  have hhold : s.holdTime o = hold := by
    cases o <;> rfl
  generalize hu : hearing (.openBasket src tag id) r s = u
  have hus : Only [.lines, .outstanding] s u := hu ▸ only_hearing _ _ _
  have hb : u.baskets = s.baskets := hus .baskets (by simp)
  have hp : u.prices = s.prices := hus .prices (by simp)
  have href : u.freeRef = s.freeRef := by
    rw [← hu]
    simp only [State.freeRef, hearing_liveBaskets, hearing_nextBasketRef]
  have hholdu : u.holdTime o = hold := by
    rw [← hhold]
    have hparams : u.params = s.params := hus .params (by simp)
    cases o <;> simp only [State.holdTime, hparams]
  have hlimit : u.atLimit o = none := atLimit_eq_none (by rwa [hb]) (by rwa [hb])
  have hrun := runOpenBasket_opens (r := r) (id := id.toNat) (s := u) (c := c) (k := k) (i := i) (by
      intro e
      exact hid (BitVec.eq_of_toNat_eq e)) (by rw [← hu, hearing_screening]; exact hc) (opensFor_of hopens)
    hlimit (by rw [hp]; exact hk) (by rw [hb]; exact hlowest)
  rw [href, hholdu] at hrun
  have hopened := h.answers (bs := [.baskets, .prices, .nextRef]) (Q := fun t =>
      t.baskets = s.baskets.set i (some (newBasket s.freeRef o id.toNat k.generation hold))
      ∧ t.prices = { s.prices with active := some { k with count := k.count + 1 } }
      ∧ t.nextBasketRef = (if s.freeRef = 65535 then 1 else s.freeRef + 1))
    (fun _ => rfl) rfl rfl (by simp only [hu, ho]; exact hrun) (by rw [hu]; simp) (by simp) fun t ht => ⟨?_, ?_, ?_⟩
  · obtain ⟨t, ht, hbaskets, hprices, hnext⟩ := hopened
    exact ⟨t, s.freeRef, ht, freeRef_firstFrom s, hbaskets, hprices, hnext⟩
  · rw [(ht .baskets (by simp) : t.baskets = _), ← hb]
    rfl
  · rw [(ht .prices (by simp) : t.prices = _)]
    simp [countBasket, State.putBasket, hp, hk]
  · rw [(ht .nextRef (by simp) : t.nextBasketRef = _), wrapSucc]

-- ## Voucher lines

theorem readKind_of_toNat {kind : Byte} {k : Fin 8} (h : kind.toNat = k.val + 1) : readKind kind = some k := offset_eq h

theorem readQuantity_of {q : Byte} (h : within 1 8 q.toNat) : readQuantity q = some q.toNat := by
  obtain ⟨hlo, hhi⟩ := h
  rw [readQuantity, if_pos ⟨hlo, hhi⟩]

/-- R135: the move of a kind's units, as a record of its stock. -/
theorem moveStock_vouchers (kind : Fin 8) (p q : Place) (n : Nat) (s : State) : (moveStock kind p q n s).vouchers
    = { s.vouchers with stock := s.vouchers.stock.set kind (Stock.move p q n (s.vouchers.stock.get kind)) } := rfl

theorem Stock.move_available {n : Nat} {k : Stock} (h : n ≤ k.available) : Stock.move .available .inBaskets n k
    = { k with available := k.available - n, inBaskets := k.inBaskets + n } := by
  simp [Stock.move, Stock.at, Stock.put, Nat.min_eq_left h]

theorem addLine_eq (k : Fin 8) (q : Nat) (lines : List VoucherLine) : addLine k q lines
    = if ∃ l ∈ lines, l.kind = k then lines.map (fun l => if l.kind = k then { l with quantity := l.quantity + q } else l)
      else lines ++ [⟨k, q⟩] := by
  have hany : (lines.any (fun l => l.kind == k) = true) ↔ ∃ l ∈ lines, l.kind = k := by simp
  simp only [addLine, hany]

/-- A request that writes a basket's record and moves stock. -/
theorem Heard.basketAndStock {i : Instr} {who : Requester} {r : Reply} {s : State} {src : Link} {tag kind : Byte} {ok : Bool}
    {run : Requester → Reply → State → State} {fields : List Byte} {j : Fin 16} {b : Basket} {k : Fin 8} {p q : Place}
    {n : Nat} (h : Heard i who r s) (hx : ∀ s, exec i s = request i src tag kind ok run s)
    (hi : requestOf i = some (src, tag, kind)) (hok : ok = true)
    (hrun : run who r (hearing i r s) = answer r .ok fields (moveStock k p q n ((hearing i r s).putBasket j b))) :
    ∃ t, Answers i r .ok fields [.baskets, .vouchers] s t ∧ t.baskets = s.baskets.set j (some b)
      ∧ t.vouchers = { s.vouchers with stock := s.vouchers.stock.set k (Stock.move p q n (s.vouchers.stock.get k)) } := by
  refine h.answers hx hi hok hrun ((only_moveStock (by simp)).2 ((only_putBasket (by simp)).2 (Only.refl _ _))) (by simp)
    fun t ht => ⟨(ht .baskets (by simp)).trans ?_, (ht .vouchers (by simp)).trans ?_⟩
  · rw [← hearing_baskets i r s]
    rfl
  · rw [← hearing_vouchers i r s]
    rfl

/-- Settles O36: the checks of R61 and R62 pass, and the units move. -/
theorem voucherLinesMoveStock : Obligations.VoucherLinesMoveStock := by
  unfold Obligations.VoucherLinesMoveStock
  refine ⟨?_, ?_⟩
  · intro src tag slot ref kind quantity who r s i b k g h ho hb hkind hq hg hoffered hsum hroom hstock
    obtain ⟨t, ht, hbaskets, hvouchers⟩ := h.basketAndStock (j := i) (k := k) (p := .available) (q := .inBaskets)
      (n := quantity.toNat) (b := { b with vouchers := addLine k quantity.toNat b.vouchers })
      (fields := listBytes VoucherLine.bytes (addLine k quantity.toNat b.vouchers)) (fun _ => rfl) rfl rfl (by
        have hnotLimit : ¬ (8 < quantityOf b.vouchers + quantity.toNat
            ∨ (!b.vouchers.any (fun l => l.kind == k)) = true ∧ 4 ≤ b.vouchers.length) := by
          rintro (hlt | ⟨hnone, hlen⟩)
          · rw [quantityOf] at hlt
            omega
          · rcases hroom with hlt | ⟨l, hl, rfl⟩
            · omega
            · simp only [Bool.not_eq_true', List.any_eq_false] at hnone
              exact hnone l hl (by simp)
        rw [(ho.hearing _ r).onOwned_eq (by simp [hb])]
        have hoffer : (hearing (.addVoucher src tag slot ref kind quantity) r s).offered b.generation k = true := by
          rw [State.offered, hearing_prices, hg]
          exact hoffered
        simp only [readKind_of_toNat hkind, readQuantity_of hq, hb, hoffer, hearing_vouchers, if_neg hnotLimit,
          if_neg (Nat.not_lt.2 hstock), ne_eq, not_true_eq_false, if_false, Bool.not_true, Bool.false_eq_true])
    rw [Stock.move_available hstock] at hvouchers
    exact ⟨t, _, ht, addLine_eq k _ _, hbaskets, hvouchers⟩
  · intro src tag slot ref kind quantity who r s i b k l h ho hb hkind hq hl hle hstock
    obtain ⟨t, ht, hbaskets, hvouchers⟩ := h.basketAndStock (j := i) (k := k) (p := .inBaskets) (q := .available)
      (n := quantity.toNat) (b := { b with vouchers := dropLine k quantity.toNat b.vouchers })
      (fields := listBytes VoucherLine.bytes (dropLine k quantity.toNat b.vouchers)) (fun _ => rfl) rfl rfl (by
        rw [(ho.hearing _ r).onOwned_eq (by simp [hb])]
        simp only [readKind_of_toNat hkind, readQuantity_of hq, hb, hl, if_neg (Nat.not_lt.2 hle), ne_eq,
          not_true_eq_false, if_false])
    rw [Stock.move_basket hstock] at hvouchers
    exact ⟨t, _, ht, rfl, hbaskets, hvouchers⟩

-- ## TALLY

theorem tallyOf_eq {s : State} {b : Basket} {k : Bank} {c : Screening} {h : PlanHeader} {rows : List (List Cell)}
    (hk : s.prices.bank b.generation = some k) (hc : s.screening b.screening = some c) (hp : s.plan c.plan = some (h, rows)) :
    s.tallyOf b = some (computeTally b.generation k.set rows c.cls c.matinee b.lines b.vouchers) := by
  simp only [State.tallyOf, hk, hc, hp, Option.map_some]

/-- Settles O37: the tally is that of the basket's lines. -/
theorem tallyStoresTheTally : Obligations.TallyStoresTheTally := by
  unfold Obligations.TallyStoresTheTally
  refine ⟨?_, ?_⟩
  · intro src tag slot ref who r s i b k c hd rows g h ho hb hlines hk hc hp hg
    have htally : (hearing (.tally src tag slot ref) r s).tallyOf b = some g := by
      rw [hg]
      refine tallyOf_eq (c := c) (h := hd) ?_ ?_ ?_
      · rw [hearing_prices]
        exact hk
      · rw [hearing_screening]
        exact hc
      · rw [hearing_plan]
        exact hp
    obtain ⟨t, ht, hbaskets⟩ := h.answers (u := (hearing (.tally src tag slot ref) r s).putBasket i (b.tallied g)) (bs := [.baskets])
      (Q := fun t => t.baskets = s.baskets.set i (some (b.tallied g))) (result := .ok) (fields := g.bytes) (fun _ => rfl) rfl rfl
      (by
        rw [(ho.hearing _ r).onOwned_eq (by simp [hb])]
        simp only [hb, if_neg hlines, htally])
      ((only_putBasket (by simp)).2 (Only.refl _ _)) (by simp) fun t ht => (ht .baskets (by simp)).trans (by
        rw [← hearing_baskets (.tally src tag slot ref) r s]
        rfl)
    refine ⟨t, ht, hbaskets, ?_⟩
    rw [hg]
    simp [computeTally]
  · intro src tag slot ref who r s i b g h ho hb hg
    refine h.answers_only (fun _ => rfl) rfl rfl ?_
    rw [(ho.hearing _ r).onOwned_eq (by simp [hb])]
    simp only [hb, hg]

end Sys2Proof.Machine
end

section
/-! PROOFS. CANCEL and the hold countdown, PAY, SETTLE and RESOLVE (O41 to O43). -/

namespace Sys2Proof.Machine

theorem printable_of_range {code : List Byte} (h : ∀ x ∈ code, 0x20 ≤ x.toNat ∧ x.toNat ≤ 0x7E) : code.all printable = true := by
  rw [List.all_eq_true]
  intro x hx
  obtain ⟨hlo, hhi⟩ := h x hx
  simp [printable, hlo, hhi]

-- ## The end of a basket (R72)

theorem releaseReservation_only (b : Basket) (s : State) : Only [.sales] s (releaseReservation b s) :=
  (only_releaseReservation (by simp)).2 (Only.refl _ s)

theorem releaseReservation_sales (b : Basket) (s : State) : (releaseReservation b s).sales = released b s := by
  unfold releaseReservation released
  split <;> rfl

theorem endBasket_only (i : Fin 16) (b : Basket) (reason : EndReason) (s : State) :
    Only [.engine, .baskets, .sales] s (endBasket i b reason s) := (only_endBasket (by simp)).2 (Only.refl _ s)

theorem endBasket_baskets (i : Fin 16) (b : Basket) (reason : EndReason) (s : State) :
    (endBasket i b reason s).baskets = s.baskets.set i (some (b.ended reason)) := by
  have h : (releaseReservation b s).baskets = s.baskets := releaseReservation_only b s .baskets (by simp)
  rw [← h]
  rfl

theorem endBasket_engine (i : Fin 16) (b : Basket) (reason : EndReason) (s : State) : (endBasket i b reason s).engine
    = { s.engine with queue := s.engine.queue ++ [.releaseBasket i b.ref b.screening] } := by
  have h : (releaseReservation b s).engine = s.engine := releaseReservation_only b s .engine (by simp)
  rw [← h]
  rfl

theorem endBasket_sales (i : Fin 16) (b : Basket) (reason : EndReason) (s : State) :
    (endBasket i b reason s).sales = released b s := by
  rw [← releaseReservation_sales]
  rfl

theorem released_congr {b : Basket} {s u : State} (h : u.sales = s.sales) : released b u = released b s := by
  rw [released, released, h]

/-- R70: a hold countdown that is not due. -/
theorem expireHold_idle {s : State} {i : Fin 16} (h : ∀ b, s.baskets.get i = some b → b.hold ≠ .running 0) : expireHold i s = s := by
  unfold expireHold
  split
  · rfl
  · next b hb => rw [if_neg (by simpa [Basket.expired] using h b hb)]

theorem expireHold_due {s : State} {i : Fin 16} {b : Basket} (hb : s.baskets.get i = some b) (h : b.hold = .running 0) :
    expireHold i s = endBasket i b .expired s := by
  unfold expireHold
  simp only [hb]
  rw [if_pos (by simp [Basket.expired, h])]

-- ## The abort of an attempt (R101)

theorem says_tellTerminal (line : Fin 8) (kind : Byte) (fields : List Byte) (s : State) :
    Says (on (.pl line) [noticeFrame kind fields]) s (tellTerminal line kind fields s) := says_send _ _ s

/-- The state that waits for an abort, before the terminal is told. -/
def aborting (i : Fin 16) (b : Basket) (r : Reply) (line : Fin 8) (rec : PayRecord) (s : State) : State :=
  (s.putBasket i { b with waiter := some r }).onPayLine line
    (fun l => { (l.onRecord rec.payRef (fun x => { x with state := .aborting })) with
      exchange := some ⟨.abort, rec.payRef, s.params.acceptWait⟩ })

theorem startAbort_eq (i : Fin 16) (b : Basket) (r : Reply) (line : Fin 8) (rec : PayRecord) (s : State) :
    startAbort i b r line rec s = tellTerminal line 0x51 (bytes2 rec.payRef) (aborting i b r line rec s) := rfl

/-- Settles O41: CANCEL and the expiry end the basket; CANCEL of an attempt in flight aborts it. -/
theorem basketsEndByCancelOrExpiry : Obligations.BasketsEndByCancelOrExpiry := by
  unfold Obligations.BasketsEndByCancelOrExpiry
  refine ⟨?_, ?_, ?_, ?_⟩
  · intro src tag slot ref who r s i b h ho hb
    generalize hu : hearing (.cancel src tag slot ref) r s = u
    have hus : Only [.lines, .outstanding] s u := hu ▸ only_hearing _ _ _
    have honly := endBasket_only i { b with waiter := some r } .cancelled u
    refine h.runs (bs := [.baskets, .engine, .sales]) (out := nothing) (u := endBasket i { b with waiter := some r } .cancelled u) (fun _ => rfl) rfl rfl ?_
      (by rw [hu]; exact honly.mono (by simp)) (by rw [hu]; exact .of_only honly (by simp)) (by simp) (by simp) fun t ht =>
        ⟨(ht .baskets (by simp)).trans ?_, (ht .engine (by simp)).trans ?_, (ht .sales (by simp)).trans ?_⟩
    · rw [hu, (hu ▸ ho.hearing _ r : Owned who slot ref i b u).onOwned_eq (by rcases hb with hb | hb <;> simp [hb])]
      rcases hb with hb | hb <;> simp only [hb]
    · rw [endBasket_baskets, (hus .baskets (by simp) : u.baskets = s.baskets)]
      rfl
    · rw [endBasket_engine, (hus .engine (by simp) : u.engine = s.engine)]
    · rw [endBasket_sales]
      exact released_congr (b := { b with waiter := some r }) (hus .sales (by simp))
  · intro src tag slot ref who r s i b line rec h ho hb hrec hstate
    generalize hu : hearing (.cancel src tag slot ref) r s = u
    have hus : Only [.lines, .outstanding] s u := hu ▸ only_hearing _ _ _
    have hpay : u.pay = s.pay := hus .pay (by simp)
    have honly : Only [.baskets, .pay] u (aborting i b r line rec u) := by simp [aborting]
    have hattempt : u.attemptLine b = some (line, rec) := by
      rw [← hrec]
      simp only [State.attemptLine, State.payLine, hpay]
    refine h.runs (bs := [.baskets, .pay]) (u := tellTerminal line 0x51 (bytes2 rec.payRef) (aborting i b r line rec u)) (fun _ => rfl) rfl rfl ?_
      (by rw [hu]; exact (only_tellTerminal (by simp)).2 (honly.mono (by simp)))
      (by rw [hu]; exact (says_tellTerminal ..).after_only honly (by simp)) (by simp) (by simp) fun t ht => ?_
    · rw [hu, (hu ▸ ho.hearing _ r : Owned who slot ref i b u).onOwned_eq (by simp [hb])]
      simp only [hb, hattempt, if_pos hstate]
      rfl
    · have hk : Only [.lines, .latched, .choice] (aborting i b r line rec u) t :=
        ((only_tellTerminal (by simp)).2 (Only.refl _ _)).trans ht
      refine ⟨(hk .baskets (by simp)).trans ?_, (hk .pay (by simp)).trans ?_⟩
      · rw [← (hus .baskets (by simp) : u.baskets = s.baskets)]
        rfl
      · rw [← hpay, State.payLine, ← hpay, ← (hus .params (by simp) : u.params = s.params)]
        rfl
  · intro s i b hb hhold
    have honly := endBasket_only i b .expired s
    exact event_does (i := .holdCountdownExpiry i) rfl (expireHold_due hb hhold) (honly.mono (by simp))
      (.of_only honly (by simp)) (by simp) fun t ht =>
        ⟨(ht .baskets (by simp)).trans (endBasket_baskets ..), (ht .engine (by simp)).trans (endBasket_engine ..),
          (ht .sales (by simp)).trans (endBasket_sales ..)⟩
  · intro s i hi
    exact event_idle (i := .holdCountdownExpiry i) rfl (expireHold_idle hi)

-- ## PAY (R95)

/-- The state of an attempt that begins, before its answer. -/
def attempting (i : Fin 16) (b : Basket) (line : Fin 8) (amount : Nat) (s : State) : State :=
  let w := (reserve (quantityOf b.vouchers) s).putBasket i { b with
    state := .paying, hold := .suspended b.hold.seconds, attempts := b.attempts + 1, reserved := true
    payRef := some s.freePayRef }
  { w with pay := { w.pay with nextRef := wrapSucc 65535 s.freePayRef } }.onPayLine line (fun l => { l with
    records := addRecord ⟨s.freePayRef, i, b.ref, amount, .sent, .none, none, none⟩ l.records
    exchange := some ⟨.authorization, s.freePayRef, s.params.acceptWait⟩ })

theorem startPayment_eq (i : Fin 16) (b : Basket) (r : Reply) (line : Fin 8) (amount : Nat) (s : State) :
    startPayment i b r line amount s = tellTerminal line 0x50 (bytes2 s.freePayRef ++ amountBytes amount)
      (answer r .ok (bytes2 s.freePayRef ++ bytes1 (b.attempts + 1)) (attempting i b line amount s)) := rfl

theorem freePayRef_congr {s u : State} (h : u.pay = s.pay) : u.freePayRef = s.freePayRef := by
  have hholds : u.holdsPayRef = s.holdsPayRef := by
    funext p
    simp only [State.holdsPayRef, h]
  rw [State.freePayRef, hholds, h]
  rfl

theorem hasRoom_congr {s u : State} (hs : u.sales = s.sales) (hv : u.vouchers = s.vouchers) (n : Nat) :
    u.hasRoom n = s.hasRoom n := by
  simp only [State.hasRoom, hs, hv]

theorem freeNumber_congr {s u : State} (h : u.sales = s.sales) (hp : u.print = s.print) : u.freeNumber = s.freeNumber := by
  have hholds : u.holdsNumber = s.holdsNumber := by
    funext n
    simp only [State.holdsNumber, h, hp]
  rw [State.freeNumber, hholds, h]
  rfl

/-- Settles O42: the checks of R95 pass, and the attempt begins. -/
theorem payStartsAnAttempt : Obligations.PayStartsAnAttempt := by
  unfold Obligations.PayStartsAnAttempt
  intro src tag slot ref amount who r s i b n k g h ho howner hb hattempts hg hamount hbinding hexchange hqueue hroom
  generalize hu : hearing (.pay src tag slot ref amount) r s = u
  have hus : Only [.lines, .outstanding] s u := hu ▸ only_hearing _ _ _
  have hpay : u.pay = s.pay := hus .pay (by simp)
  have hsales : u.sales = s.sales := hus .sales (by simp)
  have hparams : u.params = s.params := hus .params (by simp)
  have href := freePayRef_congr hpay
  have hline : u.freePayLine b.owner = some k.pay := by
    have hbindu : u.binding n = some k := by
      rw [State.binding, (hus .stations (by simp) : u.ifc.stations = s.ifc.stations)]
      exact hbinding
    have hlineu : u.payLine k.pay = s.payLine k.pay := by rw [State.payLine, hpay]; rfl
    simp only [State.freePayLine, howner, hbindu, hlineu, hexchange, hqueue, and_self, if_true]
  have htotal : b.total = g.total := by rw [Basket.total, hg]; rfl
  have honly : Only [.sales, .baskets, .pay] u (attempting i b k.pay g.total u) := by
    simp [attempting]
  obtain ⟨t, ht, hQ⟩ := h.runs (bs := [.baskets, .pay, .sales]) (u := tellTerminal k.pay 0x50 (bytes2 s.freePayRef ++ amountBytes g.total)
      (answer r .ok (bytes2 s.freePayRef ++ bytes1 (b.attempts + 1)) (attempting i b k.pay g.total u)))
    (out := after (on r.link.line [answerFrame r .ok (bytes2 s.freePayRef ++ bytes1 (b.attempts + 1))])
      (on (.pl k.pay) [noticeFrame 0x50 (bytes2 s.freePayRef ++ amountBytes g.total)]))
    (Q := fun t => Only [.lines, .latched, .choice] (attempting i b k.pay g.total u) t)
    (fun _ => rfl) rfl (by rw [hamount]; rfl) (by
      rw [hu, (hu ▸ ho.hearing _ r : Owned who slot ref i b u).onOwned_eq (by simp [hb])]
      have hnotOffice : b.owner ≠ .office := by simp [howner]
      have hroomu : u.hasRoom (quantityOf b.vouchers) = true := by
        rw [hasRoom_congr hsales (hus .vouchers (by simp))]
        exact hroom
      simp only [if_neg hnotOffice, hb, ne_eq, not_true_eq_false, if_false, hparams, if_neg (Nat.not_le.2 hattempts), hamount,
        htotal, hline, hroomu, Bool.not_true, Bool.false_eq_true]
      rw [startPayment_eq, href])
    (by rw [hu]; exact (only_tellTerminal (by simp)).2 ((only_answer (by simp)).2 (honly.mono (by simp))))
    (by rw [hu]; exact ((says_answer ..).trans (says_tellTerminal ..)).after_only honly (by simp)) (by simp) (by simp)
    fun t ht => ((only_tellTerminal (by simp)).2 ((only_answer (by simp)).2 (Only.refl _ _))).trans ht
  refine ⟨t, s.freePayRef, ht, rfl, (hQ .baskets (by simp)).trans ?_, (hQ .sales (by simp)).trans ?_, (hQ .pay (by simp)).trans ?_⟩
  · rw [← (hus .baskets (by simp) : u.baskets = s.baskets), ← href]
    rfl
  · rw [← hsales]
    rfl
  · rw [← href, ← hpay, State.payLine, ← hpay, ← hparams]
    rfl

-- ## SETTLE and RESOLVE (R108, R112 to R116)

theorem beginCommit_only (i : Fin 16) (b : Basket) (p : Option Payment) (l : Option (Fin 8)) (s : State) :
    Only [.sales, .baskets, .engine] s (beginCommit i b p l s) := (only_beginCommit (by simp)).2 (Only.refl _ s)

theorem readSettleLine_of {line : Byte} {l : Option (Fin 8)}
    (h : line = 0xFF ∧ l = none ∨ ∃ k : Fin 8, line.toNat = 0x20 + k.val ∧ l = some k) : readSettleLine line = some l := by
  rcases h with ⟨rfl, rfl⟩ | ⟨k, hk, rfl⟩
  · rfl
  · have hne : line ≠ 0xFF := by
      rintro rfl
      have := k.isLt
      simp at hk
      omega
    rw [readSettleLine, if_neg hne, readTicketLine, offset_eq (i := k) (by omega)]
    rfl

/-- R112 to R114: the commit of a basket, its reservation made, as its request begins it. -/
def committing (i : Fin 16) (b : Basket) (r : Reply) (p : Option Payment) (l : Option (Fin 8)) (s : State) : State :=
  beginCommit i { b with reserved := true, waiter := some r } p l (reserve (quantityOf b.vouchers) s)

theorem committing_only (i : Fin 16) (b : Basket) (r : Reply) (p : Option Payment) (l : Option (Fin 8)) (s : State) :
    Only [.sales, .baskets, .engine] s (committing i b r p l s) :=
  ((only_reserve (by simp)).2 (Only.refl _ s)).trans (beginCommit_only i _ p l _)

section
variable (i : Fin 16) (b : Basket) (r : Reply) (p : Option Payment) (l : Option (Fin 8)) (s : State)

theorem committing_baskets : (committing i b r p l s).baskets = s.baskets.set i (some { b with
    state := .ending, endReason := some .committed, hold := .absent, reserved := true, waiter := some r }) := rfl

theorem committing_sales : (committing i b r p l s).sales = { s.sales with
    reservedSales := s.sales.reservedSales + 1
    reservedVouchers := s.sales.reservedVouchers + (b.vouchers.map (·.quantity)).sum
    next := if s.freeNumber = 999999 then 1 else s.freeNumber + 1
    commits := s.sales.commits ++ [⟨i, b.ref, s.freeNumber, p, l⟩] } := rfl

theorem committing_engine : (committing i b r p l s).engine = { s.engine with
    queue := s.engine.queue ++ [.sellBasket i b.ref b.screening s.freeNumber] } := rfl

end

/-- A basket in DOUBT that RESOLVE names. -/
theorem resolve_finds {slot : Byte} {ref : BitVec 16} {i : Fin 16} {b : Basket} {s : State} (hslot : slot.toNat = i.val)
    (hb : s.basket i ref.toNat = some b) :
    (readSlot slot).bind (fun i => (s.basket i ref.toNat).map (fun b => (i, b))) = some (i, b) := by
  rw [readSlot_of_toNat hslot, Option.bind_some, hb, Option.map_some]

theorem dropDoubt_pay (i : Fin 16) (ref : Nat) (s : State) : (dropDoubt i ref s).pay
    = { s.pay with doubts := s.pay.doubts.filter (fun x => ¬ (x.slot = i ∧ x.ref = ref)) } := by
  have hf : s.pay.doubts.filter (fun d => !(d.slot == i && d.ref == ref))
      = s.pay.doubts.filter (fun x => ¬ (x.slot = i ∧ x.ref = ref)) := by
    refine List.filter_congr fun x _ => ?_
    rw [Bool.eq_iff_iff]
    simp
  rw [← hf]
  rfl

/-- Settles O43: the commit begins, or the basket ends, and the doubt list loses its entry. -/
theorem settleAndResolveEndTheBasket : Obligations.SettleAndResolveEndTheBasket := by
  unfold Obligations.SettleAndResolveEndTheBasket
  refine ⟨?_, ?_, ?_⟩
  · intro src tag slot ref line l who r s i b h ho hb hl hroom
    generalize hu : hearing (.settle src tag slot ref line) r s = u
    have hus : Only [.lines, .outstanding] s u := hu ▸ only_hearing _ _ _
    have hsales : u.sales = s.sales := hus .sales (by simp)
    have hnumber := freeNumber_congr hsales (hus .print (by simp))
    have honly := committing_only i b r none l u
    have hruns := h.runs (bs := [.baskets, .sales, .engine]) (out := nothing) (u := committing i b r none l u)
      (Q := fun t => Only [.lines, .latched, .choice] (committing i b r none l u) t) (fun _ => rfl) rfl rfl (by
        rw [hu]
        simp only [readSettleLine_of hl]
        rw [(hu ▸ ho.hearing _ r : Owned who slot ref i b u).onOwned_eq (by simp [hb])]
        have hroomu : u.hasRoom (quantityOf b.vouchers) = true := by
          rw [hasRoom_congr hsales (hus .vouchers (by simp))]
          exact hroom
        simp only [hb, ne_eq, not_true_eq_false, if_false, hroomu, Bool.not_true, Bool.false_eq_true]
        rfl)
      (by rw [hu]; exact honly.mono (by simp)) (by rw [hu]; exact .of_only honly (by simp)) (by simp) (by simp) fun t ht => ht
    obtain ⟨t, ht, hQ⟩ := hruns
    refine ⟨t, s.freeNumber, ht, rfl, (hQ .baskets (by simp)).trans ?_, (hQ .sales (by simp)).trans ?_, (hQ .engine (by simp)).trans ?_⟩
    · rw [committing_baskets, (hus .baskets (by simp) : u.baskets = s.baskets)]
    · rw [committing_sales, hsales, hnumber]
    · rw [committing_engine, (hus .engine (by simp) : u.engine = s.engine), hnumber]
  · intro src tag slot ref code who r s i b d h hslot hb hstate hcode hd hreversal hroom
    generalize hu : hearing (.resolve src tag slot ref 1 code) r s = u
    have hus : Only [.lines, .outstanding] s u := hu ▸ only_hearing _ _ _
    have hsales : u.sales = s.sales := hus .sales (by simp)
    have hpay : u.pay = s.pay := hus .pay (by simp)
    have hbasket : u.basket i ref.toNat = some b := by
      rw [← hb, State.basket, (hus .baskets (by simp) : u.baskets = s.baskets)]
      rfl
    have hdoubt : u.doubtOf i b.ref = some d := by rw [← hd, State.doubtOf, hpay]; rfl
    have hrev : (u.payLine d.line).reversal d.payRef = none := by rw [← hreversal, State.payLine, hpay]; rfl
    have hdrop : Only [.pay] u (dropDoubt i b.ref u) := by simp
    have hdropped : (dropDoubt i b.ref u).sales = s.sales := (hdrop .sales (by simp)).trans hsales
    have hnumber := freeNumber_congr hdropped
      ((hdrop .print (by simp)).trans (hus .print (by simp)) : (dropDoubt i b.ref u).print = s.print)
    have honly := committing_only i b r (some ⟨d.line, d.payRef, code⟩) none (dropDoubt i b.ref u)
    have hruns := h.runs (bs := [.baskets, .sales, .engine, .pay]) (out := nothing)
      (u := committing i b r (some ⟨d.line, d.payRef, code⟩) none (dropDoubt i b.ref u))
      (Q := fun t => Only [.lines, .latched, .choice]
        (committing i b r (some ⟨d.line, d.payRef, code⟩) none (dropDoubt i b.ref u)) t) (fun _ => rfl) rfl rfl (by
        rw [hu]
        have hform : ¬ ((1 : Byte) ≠ 1 ∧ (1 : Byte) ≠ 2 ∨ (1 : Byte) = 1 ∧ (!code.all printable) = true) := by
          simp [printable_of_range hcode]
        have hroomu : u.hasRoom (quantityOf b.vouchers) = true := by
          rw [hasRoom_congr hsales (hus .vouchers (by simp))]
          exact hroom
        have hnotVoid : ¬ (1 : Byte) = 2 := by decide
        rw [if_neg hform]
        simp only [resolve_finds hslot hbasket]
        rw [if_neg (by simp [hstate]), if_neg (by simp [hstate]), if_neg hnotVoid]
        simp only [hdoubt, resolveSold, hrev, hroomu, Bool.not_true, Bool.false_eq_true, Option.isSome_none, if_false]
        rfl)
      (by rw [hu]; exact (hdrop.mono (by simp)).trans (honly.mono (by simp)))
      (by rw [hu]; exact .of_only ((hdrop.mono (by simp)).trans (honly.mono (by simp)) : Only [.pay, .sales, .baskets, .engine] u _) (by simp))
      (by simp) (by simp) fun t ht => ht
    obtain ⟨t, ht, hQ⟩ := hruns
    refine ⟨t, s.freeNumber, ht, rfl, (hQ .baskets (by simp)).trans ?_, (hQ .sales (by simp)).trans ?_,
      (hQ .engine (by simp)).trans ?_, (hQ .pay (by simp)).trans ?_⟩
    · rw [committing_baskets, (hdrop .baskets (by simp) : _ = u.baskets), (hus .baskets (by simp) : u.baskets = s.baskets)]
    · rw [committing_sales, hdropped, hnumber]
    · rw [committing_engine, hnumber, (hdrop .engine (by simp) : _ = u.engine), (hus .engine (by simp) : u.engine = s.engine)]
    · rw [(honly .pay (by simp) : _ = (dropDoubt i b.ref u).pay), dropDoubt_pay, hpay]
  · intro src tag slot ref code who r s i b h hslot hb hstate
    generalize hu : hearing (.resolve src tag slot ref 2 code) r s = u
    have hus : Only [.lines, .outstanding] s u := hu ▸ only_hearing _ _ _
    have hbasket : u.basket i ref.toNat = some b := by
      rw [← hb, State.basket, (hus .baskets (by simp) : u.baskets = s.baskets)]
      rfl
    have hdrop : Only [.pay] u (dropDoubt i b.ref u) := by simp
    have honly := endBasket_only i { b with waiter := some r } .voided (dropDoubt i b.ref u)
    have hruns := h.runs (bs := [.baskets, .sales, .engine, .pay]) (out := nothing)
      (u := endBasket i { b with waiter := some r } .voided (dropDoubt i b.ref u))
      (Q := fun t => Only [.lines, .latched, .choice] (endBasket i { b with waiter := some r } .voided (dropDoubt i b.ref u)) t)
      (fun _ => rfl) rfl rfl (by
        rw [hu]
        have hform : ¬ ((2 : Byte) ≠ 1 ∧ (2 : Byte) ≠ 2 ∨ (2 : Byte) = 1 ∧ (!code.all printable) = true) := by
          rintro (⟨-, h⟩ | ⟨h, -⟩)
          · exact h rfl
          · exact absurd h (by decide)
        rw [if_neg hform]
        simp only [resolve_finds hslot hbasket]
        rw [if_neg (by simp [hstate]), if_neg (by simp [hstate]), if_pos trivial]
        rfl)
      (by rw [hu]; exact (hdrop.mono (by simp)).trans (honly.mono (by simp)))
      (by rw [hu]; exact .of_only ((hdrop.mono (by simp)).trans (honly.mono (by simp)) : Only [.pay, .sales, .baskets, .engine] u _) (by simp))
      (by simp) (by simp) fun t ht => ht
    obtain ⟨t, ht, hQ⟩ := hruns
    refine ⟨t, ht, (hQ .baskets (by simp)).trans ?_, (hQ .sales (by simp)).trans ?_,
      (hQ .engine (by simp)).trans ?_, (hQ .pay (by simp)).trans ?_⟩
    · rw [endBasket_baskets, (hdrop .baskets (by simp) : _ = u.baskets), (hus .baskets (by simp) : u.baskets = s.baskets)]
      rfl
    · rw [endBasket_sales]
      exact released_congr (b := { b with waiter := some r }) ((hdrop .sales (by simp)).trans (hus .sales (by simp)))
    · rw [endBasket_engine, (hdrop .engine (by simp) : _ = u.engine), (hus .engine (by simp) : u.engine = s.engine)]
    · rw [(honly .pay (by simp) : _ = (dropDoubt i b.ref u).pay), dropDoubt_pay, (hus .pay (by simp) : u.pay = s.pay)]

end Sys2Proof.Machine
end

section
/-! PROOFS. Refunds and the counters of stock (O51, O53). -/

namespace Sys2Proof.Machine

-- ## Refund quotes (R119 to R121)

theorem onSale_sales (n : Nat) (f : Sale → Sale) (s : State) : (s.onSale n f).sales
    = { s.sales with records := s.sales.records.map (fun x => if x.number = n then f x else x) } := by
  simp [State.onSale]

theorem onSale_only (n : Nat) (f : Sale → Sale) (s : State) : Only [.sales] s (s.onSale n f) :=
  (only_onSale (by simp)).2 (Only.refl _ s)

/-- R119: the vouchers that wait for the quote's end. -/
theorem suspendVouchers_vouchers (n : Nat) (s : State) : (suspendVouchers n s).vouchers = { s.vouchers with
    records := s.vouchers.records.map (fun u => if u.sale = n ∧ u.state = .issued then { u with state := .suspended } else u) } :=
  rfl

theorem startOf_of_screenings {s u : State} (h : u.screenings = s.screenings) (n : Nat) : u.startOf n = s.startOf n := by
  simp only [State.startOf, State.screening, h]

/-- R134: a sale's ISSUED vouchers and the charges of its REDEEMED ones are read in the voucher table alone. -/
theorem countVouchers_congr {s u : State} (h : u.vouchers = s.vouchers) (n : Nat) (x : VoucherState) :
    u.countVouchers n x = s.countVouchers n x := by
  simp only [State.countVouchers, h]

/-- R134: what a returned voucher becomes, its window's end judged in `s`. -/
def Voucher.back (n : Nat) (s : State) (u : Voucher) : Voucher :=
  if u.sale = n ∧ u.state = .suspended then
    { u with state := if (s.startOf u.screening + s.params.windowAfter) * 60 ≤ s.clock.value then .lapsed else .issued }
  else u

/-- R121, R134: the vouchers of a quote that ends, and the stock of those that lapse. -/
structure Returned (n : Nat) (s t : State) : Prop where
  records : t.vouchers.records = s.vouchers.records.map (Voucher.back n s)
  serial : t.vouchers.serial = s.vouchers.serial
  stock : ∀ kind, t.vouchers.stock.get kind = Stock.move .outstanding .available
    (s.vouchers.records.countP (fun u => u.sale == n && u.state == .suspended && u.kind == kind
      && decide ((s.startOf u.screening + s.params.windowAfter) * 60 ≤ s.clock.value))) (s.vouchers.stock.get kind)

theorem returnVouchers_returned (n : Nat) (s : State) : Returned n s (returnVouchers n s) := by
  refine ⟨?_, settleVouchers_serial _ _ _ s, fun kind => ?_⟩
  · unfold returnVouchers lapse State.mapVouchers
    dsimp only
    rw [settleVouchers_records, List.map_map]
    refine List.map_congr_left fun u _ => ?_
    by_cases hu : u.sale = n ∧ u.state = .suspended
    · obtain ⟨hn, hstate⟩ := hu
      by_cases hend : (s.startOf u.screening + s.params.windowAfter) * 60 ≤ s.clock.value
      · simp [Voucher.back, State.windowEndClock, windowEnd, hn, hstate, hend]
      · simp [Voucher.back, State.windowEndClock, windowEnd, hn, hstate, hend]
    · have hno : (u.sale == n && u.state == .suspended) = false := by simpa using hu
      simp [Voucher.back, hno, hu]
  · refine (settleVouchers_stock _ _ (by simp) s kind).trans ?_
    congr 1
    refine List.countP_congr fun u _ => ?_
    have hend : decide (s.windowEndClock u ≤ s.clock.value)
        = decide ((s.startOf u.screening + s.params.windowAfter) * 60 ≤ s.clock.value) := rfl
    rw [hend, Bool.and_right_comm]

theorem Returned.congr {n : Nat} {s u t w : State} (h : Returned n u t) (hv : u.vouchers = s.vouchers)
    (hs : u.screenings = s.screenings) (hp : u.params = s.params) (hc : u.clock = s.clock) (ht : w.vouchers = t.vouchers) :
    Returned n s w := by
  obtain ⟨hrecords, hserial, hstock⟩ := h
  have hback : Voucher.back n u = Voucher.back n s := by
    funext v
    simp only [Voucher.back, startOf_of_screenings hs, hp, hc]
  simp only [startOf_of_screenings hs, hp, hc, hv, hback] at hrecords hserial hstock
  exact ⟨ht ▸ hrecords, ht ▸ hserial, fun kind => ht ▸ hstock kind⟩

theorem endQuote_only (n : Nat) (s : State) : Only [.sales, .vouchers] s (endQuote n s) := by
  simp [endQuote]

theorem endQuote_returned (n : Nat) (s : State) : Returned n s (endQuote n s) :=
  (returnVouchers_returned n (s.onSale n (fun r => { r with state := .committed, quote := none }))).congr (t := endQuote n s)
    rfl rfl rfl rfl rfl

theorem endQuote_sales (n : Nat) (s : State) : (endQuote n s).sales = { s.sales with
    records := s.sales.records.map (fun x => if x.number = n then { x with state := .committed, quote := none } else x) } := by
  have h : Only [.vouchers] (s.onSale n (fun r => { r with state := .committed, quote := none })) (endQuote n s) := by
    simp [endQuote]
  rw [(h .sales (by simp) : (endQuote n s).sales = _), onSale_sales]

theorem openQuote_of {k : Sale} {q : Quote} (hk : k.state = .refundPending) (hq : k.quote = some q) (htaken : q.taken = none) :
    k.openQuote = some q := by
  simp [Sale.openQuote, hk, hq, htaken]

theorem quoteOver_iff {k : Sale} {q : Quote} (hq : k.quote = some q) (htaken : q.taken = none) :
    k.quoteOver = true ↔ q.seconds = 0 := by
  simp [Sale.quoteOver, hq, htaken]

/-- Settles O51: the checks of R119 to R121 pass, and the quote is made, taken or ended. -/
theorem refundQuotesRun : Obligations.RefundQuotesRun := by
  unfold Obligations.RefundQuotesRun
  refine ⟨?_, ?_, ?_⟩
  · intro src tag n who r s k h hk hstate hlive htime redeemed amount
    generalize hu : hearing (.refundQuote src tag n) r s = u
    have hus : Only [.lines, .outstanding] s u := hu ▸ only_hearing _ _ _
    have hv : u.vouchers = s.vouchers := hus .vouchers (by simp)
    have hnumber := sale_number hk
    have hsum : u.redeemedSum n.toNat = (redeemed.map (·.price)).sum := by
      rw [State.redeemedSum, hv]
    have hparams : u.params = s.params := hus .params (by simp)
    have hearly : u.inTime k = true := by
      rw [State.inTime, startOf_of_screenings (hus .screenings (by simp)), (hus .clock (by simp) : u.clock = s.clock), hparams]
      simpa using htime
    refine h.answers (bs := [.sales, .vouchers]) (u := suspendVouchers n.toNat (u.onSale n.toNat (fun k => { k with
        state := .refundPending, quote := some ⟨amount, s.params.quoteTime, none⟩ }))) (fun _ => rfl) rfl rfl ?_ ?_ (by simp)
      fun t ht => ⟨?_, ?_⟩
    · have hku : u.sale n.toNat = some k := by rw [← hu, hearing_sale]; exact hk
      have hcount : ∀ x, u.countVouchers n.toNat x
          = s.vouchers.records.countP (fun v => v.sale == n.toNat && v.state == x) := fun x => by
        rw [countVouchers_congr hv, State.countVouchers, List.countP_eq_length_filter]
      have hredeemed : redeemed.length = s.vouchers.records.countP (fun v => v.sale == n.toNat && v.state == .redeemed) := by
        rw [List.countP_eq_length_filter]
      rw [hu]
      simp only [hku, hstate, hlive, hearly, hnumber, hsum, hcount, hparams, hredeemed, ne_eq, not_true_eq_false, if_false,
        Bool.false_eq_true, Bool.not_true, amount]
    · rw [hu]
      simp
    · rw [(ht .sales (by simp) : t.sales = _), ← (hus .sales (by simp) : u.sales = s.sales), ← onSale_sales]
      rfl
    · rw [(ht .vouchers (by simp) : t.vouchers = _), ← hv]
      rfl
  · intro src tag n amount who r s k q h hk hstate hq htaken hamount
    generalize hu : hearing (.refundCommit src tag n amount) r s = u
    have hus : Only [.lines, .outstanding] s u := hu ▸ only_hearing _ _ _
    have hku : u.sale n.toNat = some k := by rw [← hu, hearing_sale]; exact hk
    have hnumber := sale_number hk
    have honly : Only [.sales, .engine] u (placeEntry (.freeSale k.screening n.toNat)
        (u.onSale n.toNat (fun k => { k with quote := some { q with seconds := 0, taken := some r } }))) := by simp
    refine h.runs (bs := [.sales, .engine]) (out := nothing) (u := placeEntry (.freeSale k.screening n.toNat)
        (u.onSale n.toNat (fun k => { k with quote := some { q with seconds := 0, taken := some r } })))
      (fun _ => rfl) rfl (by rw [hamount]; rfl) ?_ (by rw [hu]; exact honly.mono (by simp))
      (by rw [hu]; exact .of_only honly (by simp)) (by simp) (by simp) fun t ht => ⟨?_, ?_, ?_⟩
    · rw [hu]
      simp only [hku, openQuote_of hstate hq htaken, hamount, hnumber, ne_eq, not_true_eq_false, if_false]
    · rw [(ht .engine (by simp) : t.engine = _), ← (hus .engine (by simp) : u.engine = s.engine)]
      rfl
    · have hsale := sale_onSale hku (f := fun k => { k with quote := some { q with seconds := 0, taken := some r } }) fun _ => rfl
      rw [← hsale, State.sale, (ht .sales (by simp) : t.sales = _)]
      rfl
    · rw [(ht .sales (by simp) : t.sales = _), ← (hus .sales (by simp) : u.sales = s.sales)]
      exact onSale_sales n.toNat (fun k => { k with quote := some { q with seconds := 0, taken := some r } }) u
  · intro n s k q i hk hq htaken back sales returned
    have hnumber := sale_number hk
    have hreturned : ∀ {u t : State}, Only [.lines, .outstanding] s u → t.vouchers = (endQuote n u).vouchers →
        t.sales = (endQuote n u).sales → t.vouchers.records = back ∧ t.sales = sales ∧ returned t := fun {u t} hus htv hts => by
      obtain ⟨hrecords, hserial, hstock⟩ := (endQuote_returned n u).congr (hus .vouchers (by simp))
        (hus .screenings (by simp)) (hus .params (by simp)) (hus .clock (by simp)) htv
      refine ⟨hrecords, ?_, hserial, hstock⟩
      rw [hts, endQuote_sales, (hus .sales (by simp) : u.sales = s.sales)]
    refine ⟨?_, ?_, ?_⟩
    · rintro src tag m who r rfl rfl h hstate
      generalize hu : hearing (.refundCancel src tag m) r s = u
      have hus : Only [.lines, .outstanding] s u := hu ▸ only_hearing _ _ _
      have hku : u.sale m.toNat = some k := by rw [← hu, hearing_sale]; exact hk
      refine h.answers (bs := [.sales, .vouchers]) (u := endQuote m.toNat u) (fun _ => rfl) rfl rfl ?_
        (by rw [hu]; exact (endQuote_only _ _).mono (by simp)) (by simp)
        fun t ht => hreturned hus (ht .vouchers (by simp)) (ht .sales (by simp))
      rw [hu]
      simp only [hku, openQuote_of hstate hq htaken, hnumber]
    · rintro rfl hseconds
      have hover := (quoteOver_iff hq htaken).2 hseconds
      have honly := endQuote_only n s
      refine event_does (i := .refundQuoteExpiry n) (u := expireQuote k s) (bs := [.sales, .vouchers]) rfl ?_ ?_ ?_ (by simp) fun t ht => ?_
      · simp only [expireSaleQuote, hk, if_pos hover]
      · simp [expireQuote, refundNotice, hnumber, endQuote]
      · simp only [expireQuote, refundNotice, hnumber]
        exact (says_notifyOffice ..).after_only honly (by simp)
      · have hnotice : Only [.lines, .latched, .choice] (endQuote n s) t := by
          refine Only.trans ?_ ht
          rw [expireQuote, hnumber, refundNotice]
          simp
        exact hreturned (Only.refl _ s) (hnotice .vouchers (by simp)) (hnotice .sales (by simp))
    · rintro rfl hseconds
      refine event_idle (i := .refundQuoteExpiry n) rfl ?_
      have hno : ¬ k.quoteOver = true := fun e => hseconds ((quoteOver_iff hq htaken).1 e)
      simp only [expireSaleQuote, hk, if_neg hno]

-- ## REDEEM, SET_STOCK and CLEAR_TAKEN (R129, R130, R136, R137)

theorem Stock.move_outstanding {n : Nat} {k : Stock} (h : n ≤ k.outstanding) : Stock.move .outstanding .taken n k
    = { k with outstanding := k.outstanding - n, taken := k.taken + n } := by
  simp [Stock.move, Stock.at, Stock.put, Nat.min_eq_left h]

theorem voucher_code {s : State} {c : Nat} {v : Voucher} (h : s.voucher c = some v) : v.code = c := by
  simpa using List.find?_some h

/-- R136: SET_STOCK's fields in range. -/
theorem setStock_inRange {asked low : Nat} {marked : Bool} (ha : asked ≤ 9999) (hl : marked = true → low ≤ 9999) :
    ¬ (9999 < asked ∨ (marked = true ∧ 9999 < low)) := by
  rintro (h | ⟨hm, h⟩)
  · omega
  · exact absurd (hl hm) (by omega)

theorem Stock.clearTaken_clearTaken (k : Stock) : k.clearTaken.clearTaken = k.clearTaken := by
  simp [Stock.clearTaken]

/-- R137: the kinds named lose their taken counts, each once. -/
theorem clearTaken_each (ks : List (Fin 8)) (s : State) :
    (ks.foldl (fun s i => s.onStock i Stock.clearTaken) s).vouchers.records = s.vouchers.records
    ∧ (ks.foldl (fun s i => s.onStock i Stock.clearTaken) s).vouchers.serial = s.vouchers.serial
    ∧ ∀ k, (ks.foldl (fun s i => s.onStock i Stock.clearTaken) s).vouchers.stock.get k
      = if k ∈ ks then (s.vouchers.stock.get k).clearTaken else s.vouchers.stock.get k := by
  induction ks generalizing s with
  | nil => simp
  | cons i ks ih =>
    obtain ⟨hrecords, hserial, hstock⟩ := ih (s.onStock i Stock.clearTaken)
    refine ⟨hrecords, hserial, fun k => ?_⟩
    rw [List.foldl_cons, hstock k]
    simp only [State.onStock, Tab.get_modify, List.mem_cons]
    by_cases hi : k = i
    · subst hi
      simp [Stock.clearTaken_clearTaken]
    · simp [hi, Ne.symm hi]

theorem readKinds_of {kind : Byte} {ks : List (Fin 8)}
    (h : kind = 0xFE ∧ ks = indices 8 ∨ ∃ k : Fin 8, kind.toNat = k.val + 1 ∧ ks = [k]) : readKinds kind = some ks := by
  rcases h with ⟨rfl, rfl⟩ | ⟨k, hk, rfl⟩
  · rfl
  · have hne : kind ≠ 0xFE := by
      rintro rfl
      have := k.isLt
      simp at hk
      omega
    rw [readKinds, if_neg hne, readKind_of_toNat hk, Option.map_some]

/-- Settles O53: the checks of R129, R136 and R137 pass, and the stock moves. -/
theorem vouchersAndStockMove : Obligations.VouchersAndStockMove := by
  unfold Obligations.VouchersAndStockMove
  refine ⟨?_, ?_, ?_⟩
  · intro src tag code who r s c v h hcode hagrees hv hissued hopen hout
    have hvc := voucher_code hv
    generalize hu : hearing (.redeem src tag code) r s = u
    have hus : Only [.lines, .outstanding] s u := hu ▸ only_hearing _ _ _
    have huv : u.vouchers = s.vouchers := hus .vouchers (by simp)
    have huc : u.clock = s.clock := hus .clock (by simp)
    refine h.answers (bs := [.vouchers]) (u := moveStock v.kind .outstanding .taken 1 (u.mapVouchers (fun x =>
        if x.code = c then { x with state := .redeemed, redemption := some ⟨who.counter, s.clock.value / 60⟩ } else x)))
      (fun _ => rfl) rfl (by rw [hcode]; rfl) ?_ ?_ (by simp) fun t ht => ?_
    · have hwindow : u.windowOpen v = true := by
        rw [← hu, hearing_windowOpen, State.windowOpen, windowOpening]
        simpa using hopen
      have hvu : u.voucher c = some v := by rw [← hu, hearing_voucher]; exact hv
      rw [hu]
      simp only [onVoucher, hcode, hagrees, hvu, Bool.not_true, Bool.false_eq_true, if_false, runRedeem, hissued, hwindow, huc, hvc]
      rfl
    · rw [hu]
      simp
    · rw [(ht .vouchers (by simp) : t.vouchers = _), moveStock_vouchers]
      simp only [State.mapVouchers, huv, Stock.move_outstanding hout]
      cases who <;> rfl
  · intro src tag kind asked present low who r s k h hkind hasked hpresent hlow old allotment mark
    generalize hu : hearing (.setStock src tag kind asked present low) r s = u
    have hus : Only [.lines, .outstanding] s u := hu ▸ only_hearing _ _ _
    have huv : u.vouchers = s.vouchers := hus .vouchers (by simp)
    have hmarked : (readFlag present == some true) = decide (present = 1) := by
      rw [readFlag_of_le hpresent]
      by_cases e : present = 1
      · rw [e]
        rfl
      · rw [beq_false_of_ne e, decide_eq_false e]
        rfl
    refine h.answers (bs := [.vouchers]) (u := u.onStock k (fun _ => { old with
        allotment := allotment, available := old.available + allotment - old.allotment, lowMark := mark }))
      (fun _ => rfl) rfl (by rw [readFlag_of_le hpresent]; rfl) ?_ ?_ (by simp) fun t ht => ?_
    · have hrange := setStock_inRange (low := low.toNat) (marked := decide (present = 1)) hasked (by simpa using hlow)
      rw [hu]
      simp only [readKind_of_toNat hkind, hmarked, if_neg hrange, huv]
      by_cases hp : present = 1
      · simp [hp, Stock.setAllotment, flagByte, old, allotment, mark]
      · have hmark : mark = old.lowMark := if_neg hp
        rw [decide_eq_false hp, hmark]
        simp [Stock.setAllotment, flagByte, old, allotment]
    · rw [hu]
      simp
    · rw [(ht .vouchers (by simp) : t.vouchers = _), ← huv]
      rfl
  · intro src tag kind who r s ks h hkind
    generalize hu : hearing (.clearTaken src tag kind) r s = u
    have hus : Only [.lines, .outstanding] s u := hu ▸ only_hearing _ _ _
    have huv : u.vouchers = s.vouchers := hus .vouchers (by simp)
    obtain ⟨hrecords, hserial, hstock⟩ := clearTaken_each ks u
    refine h.answers (bs := [.vouchers]) (u := ks.foldl (fun s i => s.onStock i Stock.clearTaken) u)
      (fun _ => rfl) rfl rfl ?_ ?_ (by simp) fun t ht => ?_
    · rw [hu]
      simp only [readKinds_of hkind, huv]
      rfl
    · rw [hu]
      simp
    · rw [(ht .vouchers (by simp) : t.vouchers = _), ← huv]
      exact ⟨hrecords, hserial, hstock⟩

end Sys2Proof.Machine
end

section
/-! PROOFS. The power arbiter (R145, R147): what a line's leaving its grant or its place does, and what its joining the
order does. -/

namespace Sys2Proof.Machine

-- ## One PRINT_ELEMENT

/-- R147: the head job of the queue stands started. -/
def startedQueue (q : List Job) : List Job :=
  match q with
  | j :: rest => { j with started := true } :: rest
  | [] => []

/-- R147: a PRINT_ELEMENT sent, or nothing where there is none. -/
structure Elements (i : Fin 8) (told : Line → List Frame) (s t : State) : Prop where
  sends : Says told s t
  touches : Only [.print, .lines] s t
  elsewhere : ∀ m, m ≠ .tl i → told m = []
  order : t.print.order = s.print.order
  waiting : t.print.waiting = s.print.waiting
  pool : t.print.pool = s.print.pool
  other : ∀ k, k ≠ i → t.ticketLine k = s.ticketLine k
  state : (t.ticketLine i).state = (s.ticketLine i).state
  prints : ∀ j later first x, (s.ticketLine i).queue = j :: later → j.next s.print.pool = some first →
    s.print.pool.get first = some x → told = on (.tl i) [elementFrame first x]
      ∧ t = send (.tl i) (elementFrame first x)
        (s.onTicketLine i (fun l => { l with queue := { j with started := true } :: later }))

theorem onTicketLine_congr {i : Fin 8} {f g : TicketLine → TicketLine} {s : State} (h : f (s.ticketLine i) = g (s.ticketLine i)) :
    s.onTicketLine i f = s.onTicketLine i g := by
  simp only [State.onTicketLine, Tab.modify]
  rw [show f (s.print.lines.get i) = g (s.print.lines.get i) from h]

theorem on_ne {l m : Line} (h : m ≠ l) (fs : List Frame) : on l fs m = [] := if_neg h

theorem sendElement_elements (i : Fin 8) (s : State) : ∃ told, Elements i told s (sendElement i s) := by
  have idle (hno : ∀ j later first x, (s.ticketLine i).queue = j :: later → j.next s.print.pool = some first →
      ¬ s.print.pool.get first = some x) : Elements i nothing s s :=
    ⟨.refl s, Only.refl _ s, fun _ _ => rfl, rfl, rfl, rfl, fun _ _ => rfl, rfl, fun j later first x hq hn hx =>
      absurd hx (hno j later first x hq hn)⟩
  unfold sendElement
  split
  · next hhead =>
    refine ⟨nothing, idle fun j later first x hq hn => ?_⟩
    simp [State.headElement, hq, hn] at hhead
  · next e hhead =>
    split
    · next hnone =>
      refine ⟨nothing, idle fun j later first x hq hn hx => ?_⟩
      simp only [State.headElement, hq, List.head?_cons, Option.bind_some, hn, Option.some.injEq] at hhead
      rw [hhead, hnone] at hx
      cases hx
    · next x hx =>
      let u := s.onTicketLine i (fun l => { l with queue := startedQueue l.queue })
      have hsend : Says (on (.tl i) [elementFrame e x]) s (send (.tl i) (elementFrame e x) u) :=
        (says_send ..).after_only (bs := [.print]) (by simp [u]) (by simp)
      refine ⟨on (.tl i) [elementFrame e x], hsend, by simp, fun m hm => on_ne hm _, rfl, rfl, rfl,
        fun k hk => ticketLine_onTicketLine_ne _ _ (Ne.symm hk), ?_, fun j later first y hq hn hy => ?_⟩
      · have hu : u.ticketLine i = { s.ticketLine i with queue := startedQueue (s.ticketLine i).queue } :=
          ticketLine_onTicketLine_self i _ s
        show (u.ticketLine i).state = (s.ticketLine i).state
        rw [hu]
      · simp only [State.headElement, hq, List.head?_cons, Option.bind_some, hn, Option.some.injEq] at hhead
        subst hhead
        cases hx.symm.trans hy
        refine ⟨rfl, ?_⟩
        have hu : u = s.onTicketLine i (fun l => { l with queue := { j with started := true } :: later }) :=
          onTicketLine_congr (by simp [hq, startedQueue])
        rw [← hu]
        rfl

theorem Elements.line {i : Fin 8} {told : Line → List Frame} {s t : State} (h : Elements i told s t)
    {j : Job} {later : List Job} {first : Fin 256} {x : Element} (hq : (s.ticketLine i).queue = j :: later)
    (hn : j.next s.print.pool = some first) (hx : s.print.pool.get first = some x) :
    told = on (.tl i) [elementFrame first x]
      ∧ t.ticketLine i = { s.ticketLine i with queue := { j with started := true } :: later } := by
  obtain ⟨htold, ht⟩ := h.prints j later first x hq hn hx
  refine ⟨htold, ?_⟩
  rw [ht]
  exact ticketLine_onTicketLine_self i _ s

-- ## The grants of one judging

/-- R145: the lines `given` are granted one after the other from the head of the order, and each prints. -/
structure Granted (given : List (Fin 8)) (told : Line → List Frame) (s t : State) : Prop where
  sends : Says told s t
  touches : Only [.print, .lines] s t
  elsewhere : ∀ m, told m ≠ [] → ∃ k ∈ given, m = .tl k
  order : s.print.order = given ++ t.print.order
  waiting : t.print.waiting = s.print.waiting
  pool : t.print.pool = s.print.pool
  other : ∀ k, k ∉ given → t.ticketLine k = s.ticketLine k
  state : ∀ k ∈ given, (t.ticketLine k).state = .printing
  prints : given.Nodup → ∀ k ∈ given, ∀ j later first x, (s.ticketLine k).queue = j :: later →
    j.next s.print.pool = some first → s.print.pool.get first = some x → told (.tl k) = [elementFrame first x]
      ∧ t.ticketLine k = { s.ticketLine k with state := .printing, queue := { j with started := true } :: later }

theorem granted_nil (s : State) : Granted [] nothing s s where
  sends := .refl s
  touches := Only.refl _ s
  elsewhere := fun _ h => absurd rfl h
  order := rfl
  waiting := rfl
  pool := rfl
  other := fun _ _ => rfl
  state := fun _ h => by simp at h
  prints := fun _ _ h => by simp at h

theorem Granted.cons {i : Fin 8} {given : List (Fin 8)} {head told : Line → List Frame} {s u t : State}
    (ho : s.print.order = i :: u.print.order)
    (he : Elements i head (grantHead i u.print.order s) u) (h : Granted given told u t) :
    Granted (i :: given) (after head told) s t := by
  have hfrom : Only [.print] s (grantHead i u.print.order s) := by simp [grantHead]
  have hline : ∀ k, k ≠ i → u.ticketLine k = s.ticketLine k := fun k hk => by
    rw [he.other k hk, grantHead_ticketLine, if_neg (Ne.symm hk)]
  refine ⟨(he.sends.after_only hfrom (by simp)).trans h.sends, (hfrom.mono (by simp)).trans (he.touches.trans h.touches),
    fun m hm => ?_, by rw [ho, h.order]; rfl, h.waiting.trans he.waiting, h.pool.trans he.pool, fun k hk => ?_, fun k hk => ?_,
    fun hnd k hk j later first x hq hn hx => ?_⟩
  · by_cases hmi : m = .tl i
    · exact ⟨i, by simp, hmi⟩
    · simp only [after, he.elsewhere m hmi, List.nil_append] at hm
      obtain ⟨k, hk, hm⟩ := h.elsewhere m hm
      exact ⟨k, by simp [hk], hm⟩
  · simp only [List.mem_cons, not_or] at hk
    rw [h.other k hk.2, hline k hk.1]
  · by_cases hkg : k ∈ given
    · exact h.state k hkg
    · have hki : k = i := by simpa [hkg] using hk
      subst hki
      rw [h.other k hkg, he.state, grantHead_ticketLine, if_pos rfl]
  · obtain ⟨hi, hnd⟩ := List.nodup_cons.1 hnd
    have hpool : u.print.pool = s.print.pool := he.pool
    by_cases hki : k = i
    · subst hki
      obtain ⟨hhead, hl⟩ := he.line (j := j) (later := later) (first := first) (x := x)
        (by rw [grantHead_ticketLine, if_pos rfl]; exact hq) hn hx
      have hlater : told (.tl k) = [] := by
        by_contra hne
        obtain ⟨k', hk', e⟩ := h.elsewhere _ hne
        cases e
        exact hi hk'
      refine ⟨by simp [after, hhead, hlater, on], ?_⟩
      rw [h.other k hi, hl, grantHead_ticketLine, if_pos rfl]
    · have hkg : k ∈ given := by simpa [hki] using hk
      have hhead : head (.tl k) = [] := he.elsewhere _ (by simp [hki])
      obtain ⟨htold, hl⟩ := h.prints hnd k hkg j later first x (by rw [hline k hki]; exact hq) (by rw [hpool]; exact hn)
        (by rw [hpool]; exact hx)
      refine ⟨by simp [after, hhead, htold], ?_⟩
      rw [hl, hline k hki]

/-- R145: the arbiter judges heads while they fit, and with fuel for all of them the next one does not. -/
theorem judgeFrom_granted (n : Nat) (s : State) : ∃ given told, Granted given told s (judgeFrom n s)
    ∧ (s.print.order.length ≤ n → ∀ k, (judgeFrom n s).print.order.head? = some k →
      s.params.budget < (judgeFrom n s).grantedSum + s.params.draws.get k) := by
  induction n generalizing s with
  | zero =>
    refine ⟨[], nothing, granted_nil s, fun h k hk => ?_⟩
    have hnil : s.print.order = [] := List.length_eq_zero_iff.1 (Nat.le_zero.1 h)
    simp [judgeFrom, hnil] at hk
  | succ n ih =>
    unfold judgeFrom
    split
    · next hnil => exact ⟨[], nothing, granted_nil s, fun _ k hk => by simp [hnil] at hk⟩
    · next i rest ho =>
      split
      · obtain ⟨head, he⟩ := sendElement_elements i (grantHead i rest s)
        obtain ⟨given, told, h, hstop⟩ := ih (sendElement i (grantHead i rest s))
        have horder : (sendElement i (grantHead i rest s)).print.order = rest := he.order
        have hparams : (sendElement i (grantHead i rest s)).params = s.params := he.touches .params (by simp)
        refine ⟨i :: given, after head told, Granted.cons (by rw [horder, ho]) (by rw [horder]; exact he) h, fun hlen k hk => ?_⟩
        have hlen' : rest.length ≤ n := by
          rw [ho] at hlen
          exact Nat.le_of_succ_le_succ hlen
        have := hstop (by rw [horder]; exact hlen') k hk
        rwa [hparams] at this
      · next hfit =>
        refine ⟨[], nothing, granted_nil s, fun _ k hk => ?_⟩
        simp only [ho, List.head?_cons, Option.some.injEq] at hk
        subst hk
        exact Nat.lt_of_not_le hfit

theorem length_of_nodup {l : List (Fin 8)} (h : l.Nodup) : l.length ≤ 8 := by
  simpa using h.length_le_card

-- ## A line that gives up its grant or its place

/-- R145: the line `n` stands as `l'`, out of the order, and what that grants. -/
structure Vacated (n : Fin 8) (l' : TicketLine) (told : Line → List Frame) (s t : State) : Prop where
  elsewhere : ∀ m, told m ≠ [] → ∃ k ∈ s.print.order, m = .tl k
  line : t.ticketLine n = l'
  order : n ∉ t.print.order
  waiting : t.print.waiting = s.print.waiting
  pool : t.print.pool = s.print.pool
  other : ∀ k, k ≠ n → t.ticketLine k = s.ticketLine k ∨ k ∈ s.print.order
  releases : PowerLaw s → PowerLaw t → Releases n l' told s t

theorem filter_subset {n : Fin 8} {order given rest : List (Fin 8)} (h : order.filter (fun k => k != n) = given ++ rest) :
    (∀ k ∈ given, k ∈ order ∧ k ≠ n) ∧ n ∉ rest := by
  refine ⟨fun k hk => ?_, fun hn => ?_⟩
  · have : k ∈ order.filter (fun k => k != n) := h ▸ List.mem_append_left _ hk
    simpa using this
  · have : n ∈ order.filter (fun k => k != n) := h ▸ List.mem_append_right _ hn
    simp at this

theorem vacated_of_granted {n : Fin 8} {f : TicketLine → TicketLine} {given : List (Fin 8)} {told : Line → List Frame}
    {s t : State} (h : Granted given told (vacate n f s) t)
    (hidle : ¬ ((s.ticketLine n).state = .printing ∨ s.print.order.head? = some n) → given = [])
    (hstop : ((s.ticketLine n).state = .printing ∨ s.print.order.head? = some n) → PowerLaw s →
      ∀ k, t.print.order.head? = some k → s.params.budget < t.grantedSum + s.params.draws.get k) :
    Vacated n (f (s.ticketLine n)) told s t := by
  have horder : s.print.order.filter (fun k => k != n) = given ++ t.print.order := h.order
  obtain ⟨hgiven, hrest⟩ := filter_subset horder
  have hn : n ∉ given := fun hn => (hgiven n hn).2 rfl
  have hline : ∀ k, k ≠ n → (vacate n f s).ticketLine k = s.ticketLine k := fun k hk => by
    rw [vacate_ticketLine, if_neg (Ne.symm hk)]
  have hself : t.ticketLine n = f (s.ticketLine n) := by rw [h.other n hn, vacate_ticketLine, if_pos rfl]
  refine ⟨fun m hm => ?_, hself, hrest, h.waiting, h.pool, fun k hk => ?_, fun hs ht => ?_⟩
  · obtain ⟨k, hk, hm⟩ := h.elsewhere m hm
    exact ⟨k, (hgiven k hk).1, hm⟩
  · by_cases hkg : k ∈ given
    · exact .inr (hgiven k hkg).1
    · exact .inl ((h.other k hkg).trans (hline k hk))
  · have hstops := fun hj => hstop hj hs
    obtain ⟨-, hnd, -, -⟩ := hs
    obtain ⟨hbudget, -, -, -⟩ := ht
    have hparams : t.params = s.params := h.touches .params (by simp)
    have hgivenNodup : given.Nodup := (List.nodup_append.1 (horder ▸ hnd.filter _)).1
    refine ⟨given, horder, hidle, hstops, fun _ => hparams ▸ hbudget, hself,
      fun k hk hkg => (h.other k hkg).trans (hline k hk), h.elsewhere, fun k hk => ⟨h.state k hk, ?_⟩⟩
    intro j later first x hq hnext hx
    have hkn := (hgiven k hk).2
    obtain ⟨htold, hl⟩ := h.prints hgivenNodup k hk j later first x (by rw [hline k hkn]; exact hq)
      (by rw [← h.pool]; exact hnext) (by rw [← h.pool]; exact hx)
    exact ⟨htold, by rw [hl, hline k hkn]⟩

theorem judged_iff (n : Fin 8) (s : State) : ((s.ticketLine n).granted || s.print.order.head? == some n) = true
    ↔ (s.ticketLine n).state = .printing ∨ s.print.order.head? = some n := by
  simp [granted_iff]

/-- R145: what the release of a line does. -/
theorem release_vacated (n : Fin 8) (f : TicketLine → TicketLine) (s : State) : ∃ told, Says told s (release n f s)
    ∧ Vacated n (f (s.ticketLine n)) told s (release n f s) := by
  have hfrom : Only [.print] s (vacate n f s) := by simp
  unfold release
  dsimp only
  by_cases hj : ((s.ticketLine n).granted || s.print.order.head? == some n) = true
  · rw [if_pos hj]
    obtain ⟨given, told, h, hstop⟩ := judgeFrom_granted 8 (vacate n f s)
    refine ⟨told, h.sends.after_only hfrom (by simp), vacated_of_granted h
      (fun hno => absurd ((judged_iff n s).1 hj) hno) fun _ hs => hstop ?_⟩
    obtain ⟨-, hnd, -, -⟩ := hs
    exact length_of_nodup (hnd.filter _)
  · rw [if_neg hj]
    exact ⟨nothing, .of_only hfrom (by simp), vacated_of_granted (granted_nil _) (fun _ => rfl)
      fun hyes => absurd ((judged_iff n s).2 hyes) hj⟩

/-- What the arbiter reads of the state. -/
structure SameArbiter (s s' : State) : Prop where
  lines : s'.print.lines = s.print.lines
  order : s'.print.order = s.print.order
  params : s'.params = s.params

theorem SameArbiter.of_only {bs : List Block} {s s' : State} (h : Only bs s s') (hb : .print ∉ bs ∧ .params ∉ bs) :
    SameArbiter s s' :=
  have hp : s'.print = s.print := h .print hb.1
  ⟨by rw [hp], by rw [hp], h .params hb.2⟩

theorem SameArbiter.ticketLine {s s' : State} (h : SameArbiter s s') (k : Fin 8) : s'.ticketLine k = s.ticketLine k :=
  congrArg (Tab.get · k) h.lines

theorem SameArbiter.grantedSum {s s' : State} (h : SameArbiter s s') : s'.grantedSum = s.grantedSum := by
  simp only [State.grantedSum, h.ticketLine, h.params]

theorem SameArbiter.powerLaw {s s' : State} (h : SameArbiter s s') : PowerLaw s' ↔ PowerLaw s := by
  simp only [PowerLaw, h.grantedSum, h.params, h.order, h.ticketLine]

theorem Releases.congr {n : Fin 8} {l' : TicketLine} {told : Line → List Frame} {s t s' t' : State}
    (h : Releases n l' told s t) (hs : SameArbiter s s') (ht : SameArbiter t t') (hpool : t'.print.pool = t.print.pool) :
    Releases n l' told s' t' := by
  simpa only [Releases, hs.ticketLine, hs.order, hs.params, ht.ticketLine, ht.order, ht.params, ht.grantedSum, hpool] using h

/-- R144: the element in flight, spoiled. -/
theorem spoilInFlight_only (i : Fin 8) (s : State) : Only [.print] s (spoilInFlight i s) :=
  (only_spoilInFlight (by simp)).2 (Only.refl _ s)

theorem spoilInFlight_same (i : Fin 8) (s : State) : SameArbiter s (spoilInFlight i s)
    ∧ (spoilInFlight i s).print.waiting = s.print.waiting := by
  unfold spoilInFlight
  split
  · exact ⟨⟨rfl, rfl, rfl⟩, rfl⟩
  · exact ⟨⟨rfl, rfl, rfl⟩, rfl⟩

theorem spoilInFlight_pool (i : Fin 8) (s : State) (e : Fin 256) : (spoilInFlight i s).print.pool.get e
    = if s.inFlight i = some e then (s.print.pool.get e).map (fun x => { x with result := .spoiled })
      else s.print.pool.get e := by
  unfold spoilInFlight
  split
  · next h => simp [h]
  · next k h =>
    rw [h]
    by_cases hk : k = e
    · subst hk
      simp
    · simp [hk]

/-- R144: what POWER_OFF leaves of a line. -/
def TicketLine.downed (l : TicketLine) : TicketLine := { l with
  state := .off, cause := none, stopPending := false, haltPending := false, rest := none, status := .none, filter := none }

theorem powerDown_eq (i : Fin 8) (s : State) : powerDown i s
    = if (s.ticketLine i).state = .off then s else release i TicketLine.downed (spoilInFlight i s) := rfl

/-- R144, R145: POWER_OFF of a line that is on. -/
theorem powerDown_vacated {i : Fin 8} {s : State} (h : (s.ticketLine i).state ≠ .off) : ∃ told, Says told s (powerDown i s)
    ∧ Vacated i (s.ticketLine i).downed told (spoilInFlight i s) (powerDown i s) := by
  obtain ⟨told, hsays, hv⟩ := release_vacated i TicketLine.downed (spoilInFlight i s)
  obtain ⟨hsame, -⟩ := spoilInFlight_same i s
  rw [hsame.ticketLine] at hv
  rw [powerDown_eq, if_neg h]
  exact ⟨told, hsays.after_only (spoilInFlight_only i s) (by simp), hv⟩

theorem powerDown_only (i : Fin 8) (s : State) : Only [.print, .lines] s (powerDown i s) := by
  simp

theorem release_only (i : Fin 8) (f : TicketLine → TicketLine) (s : State) : Only [.print, .lines] s (release i f s) := by
  simp

/-- R144: PoweredDown as POWER_OFF does it. -/
theorem powerDown_poweredDown (i : Fin 8) (s : State) : ∃ told, Says told s (powerDown i s)
    ∧ (∀ m, told m ≠ [] → ∃ k, m = .tl k)
    ∧ ∀ s' t', SameArbiter s s' → s'.print = s.print → t'.print = (powerDown i s).print →
        t'.params = (powerDown i s).params → PoweredDown i told s' t' := by
  by_cases h : (s.ticketLine i).state = .off
  · have hd : powerDown i s = s := by rw [powerDown_eq, if_pos h]
    rw [hd]
    refine ⟨nothing, .refl s, fun m hm => absurd rfl hm, fun s' t' hs hsp htp _ => ⟨fun _ => ⟨rfl, htp.trans hsp.symm⟩, fun hno => ?_⟩⟩
    rw [hs.ticketLine] at hno
    exact absurd h hno
  · obtain ⟨told, hsays, hv⟩ := powerDown_vacated h
    obtain ⟨hsame, hwaiting⟩ := spoilInFlight_same i s
    refine ⟨told, hsays, fun m hm => ?_, fun s' t' hs hsp htp htpar => ⟨fun hoff => ?_, fun _ => ⟨?_, ?_, fun e => ?_, fun hlaw => ?_⟩⟩⟩
    · obtain ⟨k, -, hm⟩ := hv.elsewhere m hm
      exact ⟨k, hm⟩
    · rw [hs.ticketLine] at hoff
      exact absurd hoff h
    · rw [hs.ticketLine, State.ticketLine, htp]
      exact hv.line
    · rw [htp, hv.waiting, hwaiting, hsp]
    · have hflight : s'.inFlight i = s.inFlight i := by
        simp only [State.inFlight, State.headElement, hs.ticketLine, hsp]
      rw [htp, hv.pool, spoilInFlight_pool, hflight, hsp]
    · have hlaw' := hs.powerLaw.1 hlaw
      have hafter := PowerLaw.printWork (printWork_powerDown i s) hlaw'
      have ht : SameArbiter (powerDown i s) t' := ⟨by rw [htp], by rw [htp], htpar⟩
      have hrel := (hv.releases (hsame.powerLaw.2 hlaw') hafter).congr (s' := s') (t' := t')
        ⟨hs.lines.trans hsame.lines.symm, hs.order.trans hsame.order.symm, hs.params.trans hsame.params.symm⟩ ht (by rw [htp])
      rw [hs.ticketLine]
      exact hrel

end Sys2Proof.Machine
end

section
/-! PROOFS. Stations bound, opened and closed (O57). -/

namespace Sys2Proof.Machine

-- ## The map (R165, R166)

theorem onStation_stations (n : Fin 8) (x : Station) (s : State) :
    (s.onStation n (fun _ => x)).ifc.stations = s.ifc.stations.set n x := rfl

theorem onStation_only (n : Fin 8) (f : Station → Station) (s : State) : Only [.stations] s (s.onStation n f) := by
  simp

theorem onStation_binding (n m : Fin 8) (x : Station) (s : State) :
    (s.onStation n (fun _ => x)).binding m = if n = m then x.binding else s.binding m := by
  rw [State.binding, onStation_stations, Tab.get_set]
  split <;> rfl

theorem stationsWith_eq_nil {s : State} {p : Binding → Bool} :
    s.stationsWith p = [] ↔ ∀ m b, s.binding m = some b → p b = false := by
  rw [State.stationsWith, List.filter_eq_nil_iff]
  constructor
  · intro h m b hb
    have := h m (mem_indices m)
    rw [hb] at this
    simpa using this
  · intro h m _
    cases hb : s.binding m with
    | none => simp
    | some b => simp [h m b hb]

/-- R165: check 3 finds no line that another station holds. -/
theorem bindingTaken_eq_none {s : State} {n : Fin 8} {k p l : Fin 8}
    (hlines : ∀ m b, m ≠ n → s.binding m = some b → b.kiosk ≠ k ∧ b.pay ≠ p)
    (hticket : ((indices 8).countP (fun m => m != n && (s.binding m).any (fun b => b.ticket == l))) < 2) :
    s.bindingTaken n ⟨k, p, l⟩ = none := by
  have none_of : ∀ q : Binding → Bool, (∀ m b, m ≠ n → s.binding m = some b → q b = false) →
      (s.stationsWith q).filter (fun i => i != n) = [] := fun q hq => by
    rw [List.filter_eq_nil_iff]
    intro m hm
    rw [State.stationsWith, List.mem_filter] at hm
    cases hb : s.binding m with
    | none => simp [hb] at hm
    | some b =>
      by_cases hmn : m = n
      · simp [hmn]
      · simp [hb, hq m b hmn hb] at hm
  have hk := none_of (fun x => x.kiosk == k) fun m b hm hb => by simpa using (hlines m b hm hb).1
  have hp := none_of (fun x => x.pay == p) fun m b hm hb => by simpa using (hlines m b hm hb).2
  have ht : ((s.stationsWith (fun x => x.ticket == l)).filter (fun i => i != n)).length
      = (indices 8).countP (fun m => m != n && (s.binding m).any (fun b => b.ticket == l)) := by
    rw [State.stationsWith, List.filter_filter, List.countP_eq_length_filter]
  simp only [State.bindingTaken, hk, hp, ne_eq, not_true_eq_false, if_false, ht, if_neg (Nat.not_le.2 hticket)]

-- ## A ticket line left serving no station

/-- R165, R166: a line that still serves a station stays as it is. -/
theorem offIfUnserved_served {s : State} {b : Binding} (h : ∃ m c, s.binding m = some c ∧ c.ticket = b.ticket) :
    offIfUnserved (some b) s = s := by
  obtain ⟨m, c, hc, he⟩ := h
  have hne : s.stationsWith (fun x => x.ticket == b.ticket) ≠ [] := fun hnil => by
    have := stationsWith_eq_nil.1 hnil m c hc
    simp [he] at this
  rw [offIfUnserved, if_neg hne]

theorem offIfUnserved_unserved {s : State} {b : Binding} (h : ∀ m c, s.binding m = some c → c.ticket ≠ b.ticket) :
    offIfUnserved (some b) s = powerDown b.ticket s := by
  rw [offIfUnserved, if_pos (stationsWith_eq_nil.2 fun m c hc => by simpa using h m c hc)]

/-- R165, R166: station `n` rebound in `s` to stand as `x`, a ticket line it leaves serving no station taken to OFF. -/
def rebound (n : Fin 8) (x : Station) (s : State) : State := offIfUnserved (s.binding n) (s.onStation n (fun _ => x))

/-- A station serves the ticket line of `b` once `n` stands as `x`. -/
def Serves (n : Fin 8) (x : Station) (s : State) (b : Binding) : Prop :=
  ∃ m c, (s.onStation n (fun _ => x)).binding m = some c ∧ c.ticket = b.ticket

theorem serves_iff {n : Fin 8} {x : Station} {s : State} {b : Binding} : Serves n x s b
    ↔ (∃ c, x.binding = some c ∧ c.ticket = b.ticket) ∨ ∃ m c, m ≠ n ∧ s.binding m = some c ∧ c.ticket = b.ticket := by
  constructor
  · rintro ⟨m, c, hc, he⟩
    rw [onStation_binding] at hc
    split at hc
    · exact .inl ⟨c, hc, he⟩
    · next hm => exact .inr ⟨m, c, Ne.symm hm, hc, he⟩
  · rintro (⟨c, hc, he⟩ | ⟨m, c, hm, hc, he⟩)
    · exact ⟨n, c, by rw [onStation_binding, if_pos rfl]; exact hc, he⟩
    · exact ⟨m, c, by rw [onStation_binding, if_neg (Ne.symm hm)]; exact hc, he⟩

/-- What a rebinding does, and sends. -/
structure Rebinds (n : Fin 8) (x : Station) (first : Line → List Frame) (s : State) : Prop where
  sends : Says first s (rebound n x s)
  lines : ∀ m, first m ≠ [] → ∃ i, m = .tl i
  down : ∀ b s' t', s.binding n = some b → ¬ Serves n x s b → Only [.lines, .outstanding] s s' →
    Only [.lines, .latched, .choice] (rebound n x s) t' → PoweredDown b.ticket first s' t'
  still : (∀ b, s.binding n = some b → Serves n x s b) → first = nothing ∧ (rebound n x s).print = s.print

theorem rebound_only (n : Fin 8) (x : Station) (s : State) : Only [.stations, .print, .lines] s (rebound n x s) := by
  simp [rebound]

theorem rebound_stations (n : Fin 8) (x : Station) (s : State) : (rebound n x s).ifc.stations = s.ifc.stations.set n x := by
  have hto : Only [.print, .lines] (s.onStation n (fun _ => x)) (rebound n x s) := by simp [rebound]
  exact (hto .stations (by simp)).trans (onStation_stations n x s)

theorem rebinds_still {n : Fin 8} {x : Station} {s : State} (heq : rebound n x s = s.onStation n (fun _ => x))
    (hserved : ∀ b, s.binding n = some b → Serves n x s b) : Rebinds n x nothing s where
  sends := by
    rw [heq]
    exact .of_only (onStation_only n _ s) (by simp)
  lines := fun _ hm => absurd rfl hm
  down := fun b _ _ hb hno => absurd (hserved b hb) hno
  still := fun _ => ⟨rfl, by rw [heq]; rfl⟩

theorem rebound_rebinds (n : Fin 8) (x : Station) (s : State) : ∃ first, Rebinds n x first s := by
  cases hb : s.binding n with
  | none => exact ⟨nothing, rebinds_still (by rw [rebound, hb]; rfl) (by simp [hb])⟩
  | some b =>
    by_cases hserved : Serves n x s b
    · refine ⟨nothing, rebinds_still (by rw [rebound, hb]; exact offIfUnserved_served hserved) fun b' hb' => ?_⟩
      cases hb.symm.trans hb'
      exact hserved
    · have hfrom := onStation_only n (fun _ => x) s
      have heq : rebound n x s = powerDown b.ticket (s.onStation n (fun _ => x)) := by
        rw [rebound, hb]
        exact offIfUnserved_unserved fun m c hc he => hserved ⟨m, c, hc, he⟩
      obtain ⟨told, hsays, hlines, hdown⟩ := powerDown_poweredDown b.ticket (s.onStation n (fun _ => x))
      refine ⟨told, by rw [heq]; exact hsays.after_only hfrom (by simp), hlines, fun b' s' t' hb' _ hs' ht' => ?_,
        fun hall => absurd (hall b hb) hserved⟩
      cases hb.symm.trans hb'
      rw [heq] at ht'
      have hback : Only [.stations, .lines, .outstanding] (s.onStation n (fun _ => x)) s' :=
        (hfrom.symm.mono (by simp)).trans (hs'.mono (by simp))
      exact hdown s' t' (.of_only hback (by simp)) (hback .print (by simp)) (ht' .print (by simp)) (ht' .params (by simp))

theorem readStation_of_toNat {b : Byte} {n : Fin 8} (h : b.toNat = n.val + 1) : readStation b = some n := offset_eq h

/-- Settles O57: each request by the station's state; what a rebinding leaves unserved is taken to OFF. -/
theorem stationsAreBoundAndOpened : Obligations.StationsAreBoundAndOpened := by
  unfold Obligations.StationsAreBoundAndOpened
  refine ⟨?_, ?_, ?_, ?_, ?_⟩
  · intro src tag station kiosk pay ticket who r s n k p l h hn hk hp hl hstate hlines hticket
    generalize hu : hearing (.bindStation src tag station kiosk pay ticket) r s = u
    have hus : Only [.lines, .outstanding] s u := hu ▸ only_hearing _ _ _
    have hbinding : ∀ m, u.binding m = s.binding m := fun m => by rw [← hu, hearing_binding]
    obtain ⟨first, hr⟩ := rebound_rebinds n ⟨some ⟨k, p, l⟩, .locked⟩ u
    have honly := rebound_only n ⟨some ⟨k, p, l⟩, .locked⟩ u
    have hruns := h.runs (bs := [.stations, .print]) (out := after first (on r.link.line [answerFrame r .ok []]))
      (u := answer r .ok [] (bindStation n ⟨k, p, l⟩ u)) (Q := fun t => Only [.lines, .latched, .choice] (bindStation n ⟨k, p, l⟩ u) t)
      (fun _ => rfl) rfl rfl (by
        have htaken : u.bindingTaken n ⟨k, p, l⟩ = none :=
          bindingTaken_eq_none (by simpa only [hbinding] using hlines) (by simpa only [hbinding] using hticket)
        have hfree : ¬ ((u.ifc.stations.get n).state = .opened ∨ (u.ifc.stations.get n).state = .closing) := by
          rw [(hus .stations (by simp) : u.ifc.stations = s.ifc.stations)]
          rcases hstate with e | e <;> simp [e]
        rw [hu]
        simp only [readStation_of_toNat hn, readKioskLine, readPayLine, readTicketLine, offset_eq (i := k) (n := kiosk.toNat) (base := 0) (by omega),
          offset_eq (i := p) (n := pay.toNat) (base := 0x10) (by omega), offset_eq (i := l) (n := ticket.toNat) (base := 0x20) (by omega),
          if_neg hfree, htaken])
      (by rw [hu]; exact (only_answer (by simp)).2 (honly.mono (by simp)))
      (by rw [hu]; exact hr.sends.trans (says_answer ..)) (by simp) (by simp)
      fun t ht => ((only_answer (by simp)).2 (Only.refl _ _)).trans ht
    obtain ⟨t, ht, hQ⟩ := hruns
    refine ⟨t, first, ht, hr.lines, ?_, fun b hb hne hother => ?_, fun hall => ?_⟩
    · rw [← (hus .stations (by simp) : u.ifc.stations = s.ifc.stations)]
      exact (hQ .stations (by simp)).trans (rebound_stations n _ u)
    · refine hr.down b s t (by rw [hbinding]; exact hb) (fun hserves => ?_) hus.symm hQ
      rcases serves_iff.1 hserves with ⟨c, hc, he⟩ | ⟨m, c, hm, hc, he⟩
      · cases hc
        exact hne he.symm
      · exact hother m c hm (by rw [← hbinding]; exact hc) he
    · obtain ⟨hfirst, hprint⟩ := hr.still fun b hb => by
        rw [hbinding] at hb
        rcases hall b hb with he | ⟨m, c, hm, hc, he⟩
        · exact serves_iff.2 (.inl ⟨⟨k, p, l⟩, rfl, he.symm⟩)
        · exact serves_iff.2 (.inr ⟨m, c, hm, by rw [hbinding]; exact hc, he⟩)
      exact ⟨hfirst, (hQ .print (by simp)).trans (hprint.trans (hus .print (by simp)))⟩
  · intro src tag station who r s n b h hn hlocked hb
    generalize hu : hearing (.unbind src tag station) r s = u
    have hus : Only [.lines, .outstanding] s u := hu ▸ only_hearing _ _ _
    have hbinding : ∀ m, u.binding m = s.binding m := fun m => by rw [← hu, hearing_binding]
    obtain ⟨first, hr⟩ := rebound_rebinds n ⟨none, .unbound⟩ u
    have honly := rebound_only n ⟨none, .unbound⟩ u
    have hruns := h.runs (bs := [.stations, .print]) (out := after first (on r.link.line [answerFrame r .ok []]))
      (u := answer r .ok [] (unbindStation n u)) (Q := fun t => Only [.lines, .latched, .choice] (unbindStation n u) t)
      (fun _ => rfl) rfl rfl (by
        have hstate : (u.ifc.stations.get n).state = .locked := by
          rw [(hus .stations (by simp) : u.ifc.stations = s.ifc.stations), hlocked]
        rw [hu, onNamedStation]
        simp only [readStation_of_toNat hn, hstate])
      (by rw [hu]; exact (only_answer (by simp)).2 (honly.mono (by simp)))
      (by rw [hu]; exact hr.sends.trans (says_answer ..)) (by simp) (by simp)
      fun t ht => ((only_answer (by simp)).2 (Only.refl _ _)).trans ht
    obtain ⟨t, ht, hQ⟩ := hruns
    refine ⟨t, first, ht, hr.lines, ?_, fun hother => ?_, ?_⟩
    · rw [← (hus .stations (by simp) : u.ifc.stations = s.ifc.stations)]
      exact (hQ .stations (by simp)).trans (rebound_stations n _ u)
    · refine hr.down b s t (by rw [hbinding]; exact hb) (fun hserves => ?_) hus.symm hQ
      rcases serves_iff.1 hserves with ⟨c, hc, he⟩ | ⟨m, c, hm, hc, he⟩
      · cases hc
      · exact hother m c hm (by rw [← hbinding]; exact hc) he
    · rintro ⟨m, c, hm, hc, he⟩
      obtain ⟨hfirst, hprint⟩ := hr.still fun b' hb' => by
        rw [hbinding, hb] at hb'
        cases hb'
        exact serves_iff.2 (.inr ⟨m, c, hm, by rw [hbinding]; exact hc, he⟩)
      exact ⟨hfirst, (hQ .print (by simp)).trans (hprint.trans (hus .print (by simp)))⟩
  · intro src tag station who r s n b h hn hb hstate basket sale
    generalize hu : hearing (.openStation src tag station) r s = u
    have hus : Only [.lines, .outstanding] s u := hu ▸ only_hearing _ _ _
    have hstations : u.ifc.stations = s.ifc.stations := hus .stations (by simp)
    let v := u.onStation n (fun k => { k with state := .opened })
    have hvu : Only [.stations] u v := onStation_only n _ u
    have hvb : (answer r .ok [] v).binding n = some b := by
      have : v.binding n = u.binding n := by
        simp [State.binding, v, State.onStation]
      have hlines : Only [.lines] v (answer r .ok [] v) := by simp
      rw [State.binding, (hlines .stations (by simp) : (answer r .ok [] v).ifc.stations = v.ifc.stations)]
      exact this.trans (by rw [← hu, hearing_binding]; exact hb)
    have hbasket : v.stationBasket n = s.stationBasket n := by
      rw [← hearing_stationBasket (.openStation src tag station) r s n, hu]
      rfl
    have hready : stationReady n (answer r .ok [] v) = send (.kl b.kiosk) (noticeFrame 0xE1
        ([station, BitVec.ofNat 8 b.kiosk.val, BitVec.ofNat 8 (0x10 + b.pay.val), BitVec.ofNat 8 (0x20 + b.ticket.val)]
          ++ basket ++ sale)) (answer r .ok [] v) := by
      have hstation : number1 n = [station] := by
        rw [number1, bytes1, ← hn]
        simp
      have hb' : ((answer r .ok [] v).ifc.stations.get n).binding = some b := hvb
      have hsales : (answer r .ok [] v).sales = s.sales := hus .sales (by simp)
      have hbasket' : (answer r .ok [] v).stationBasket n = s.stationBasket n := hbasket
      simp only [stationReady, hvb, notifyStation, hb', hstation, hsales, hbasket']
      congr 2
      cases hx : s.stationBasket n <;> cases hy : s.sales.last.get n <;>
        simp [optionalBytes, lineByte, basket, sale, hx, hy, List.replicate]
    have hsends : Says (after (on r.link.line [answerFrame r .ok []]) (on (.kl b.kiosk) [noticeFrame 0xE1
        ([station, BitVec.ofNat 8 b.kiosk.val, BitVec.ofNat 8 (0x10 + b.pay.val), BitVec.ofNat 8 (0x20 + b.ticket.val)]
          ++ basket ++ sale)])) u (stationReady n (answer r .ok [] v)) := by
      rw [hready]
      exact ((says_answer ..).trans (says_send ..)).after_only hvu (by simp)
    have hto : Only [.lines] v (stationReady n (answer r .ok [] v)) := by simp
    refine h.runs (bs := [.stations]) (u := stationReady n (answer r .ok [] v)) (fun _ => rfl) rfl rfl ?_
      (by rw [hu]; exact (hvu.mono (by simp)).trans (hto.mono (by simp))) (by rw [hu]; exact hsends) (by simp) (by simp) fun t ht => ?_
    · rw [hu, onNamedStation]
      simp only [readStation_of_toNat hn, hstations]
      rcases hstate with e | e
      · simp only [e]
        rfl
      · simp only [e]
        rfl
    · rw [(ht .stations (by simp) : t.ifc.stations = _), (hto .stations (by simp) : _ = v.ifc.stations)]
      have hbs : (s.ifc.stations.get n).binding = some b := hb
      simp only [v, State.onStation, Tab.modify, hstations, hbs]
  · intro src tag station who r s n st h hn hopen hbasket
    generalize hu : hearing (.closeStation src tag station) r s = u
    have hus : Only [.lines, .outstanding] s u := hu ▸ only_hearing _ _ _
    have hstations : u.ifc.stations = s.ifc.stations := hus .stations (by simp)
    have hub : u.stationBasket n = s.stationBasket n := by rw [← hu, hearing_stationBasket]
    have hclose : closeStation n u = u.onStation n (fun k => { k with state := st }) := by
      rw [closeStation, hub]
      rcases hbasket with ⟨hnone, rfl⟩ | ⟨i, b, hsome, hopened, htallied, rfl⟩
      · simp only [hnone]
      · simp only [hsome]
        cases hbs : b.state <;> simp_all
    have hcode : st.code = if st = .locked then 2 else 4 := by
      rcases hbasket with ⟨-, rfl⟩ | ⟨i, b, -, -, -, rfl⟩
      · rfl
      · split <;> rfl
    refine h.answers (bs := [.stations]) (u := u.onStation n (fun k => { k with state := st })) (fun _ => rfl) rfl rfl ?_
      (by rw [hu]; simp) (by simp) fun t ht => ?_
    · rw [hu, onNamedStation]
      simp only [readStation_of_toNat hn, hstations, hopen, hclose]
      rw [← hcode]
      simp [State.onStation]
    · rw [(ht .stations (by simp) : t.ifc.stations = _), ← hstations]
      rfl
  · intro src tag station who r s n i b h hn hopen hbasket hstate
    generalize hu : hearing (.closeStation src tag station) r s = u
    have hus : Only [.lines, .outstanding] s u := hu ▸ only_hearing _ _ _
    have hstations : u.ifc.stations = s.ifc.stations := hus .stations (by simp)
    have hub : u.stationBasket n = s.stationBasket n := by rw [← hu, hearing_stationBasket]
    let v := u.onStation n (fun k => { k with state := .closing })
    have hvu : Only [.stations] u v := onStation_only n _ u
    have hclose : closeStation n u = endBasket i b .stationClosed v := by
      rw [closeStation, hub]
      simp only [hbasket]
      rcases hstate with e | e
      · simp only [e]
        rfl
      · simp only [e]
        rfl
    have hend := endBasket_only i b .stationClosed v
    have hsv : v.ifc.stations = s.ifc.stations.set n { s.ifc.stations.get n with state := .closing } := by
      simp only [v, State.onStation, Tab.modify, hstations]
    have hafter : (endBasket i b .stationClosed v).ifc.stations = v.ifc.stations := hend .stations (by simp)
    refine h.answers (bs := [.stations, .baskets, .engine, .sales]) (u := endBasket i b .stationClosed v) (fun _ => rfl) rfl rfl ?_
      (by rw [hu]; exact (hvu.mono (by simp)).trans (hend.mono (by simp))) (by simp) fun t ht => ⟨?_, ?_, ?_, ?_⟩
    · rw [hu, onNamedStation]
      simp only [readStation_of_toNat hn, hstations, hopen, hclose]
      rw [hafter, hsv, Tab.get_set_self]
      rfl
    · exact ((ht .stations (by simp)).trans hafter).trans hsv
    · rw [(ht .baskets (by simp) : t.baskets = _), endBasket_baskets, (hvu .baskets (by simp) : v.baskets = u.baskets),
        (hus .baskets (by simp) : u.baskets = s.baskets)]
    · rw [(ht .engine (by simp) : t.engine = _), endBasket_engine, (hvu .engine (by simp) : v.engine = u.engine),
        (hus .engine (by simp) : u.engine = s.engine)]
    · rw [(ht .sales (by simp) : t.sales = _), endBasket_sales]
      exact released_congr ((hvu .sales (by simp)).trans (hus .sales (by simp)))

end Sys2Proof.Machine
end

section
/-! PROOFS. The operator's requests on a ticket line, and a line with a job that waits for power (O54, O55). -/

namespace Sys2Proof.Machine

-- ## A line's record replaced

theorem Tab.set_set {α : Type} {n : Nat} (t : Tab α n) (i : Fin n) (x y : α) : (t.set i x).set i y = t.set i y :=
  Tab.ext_get fun j => by
    rw [Tab.get_set, Tab.get_set, Tab.get_set]
    split <;> rfl

theorem Tab.set_get {α : Type} {n : Nat} (t : Tab α n) (i : Fin n) : t.set i (t.get i) = t :=
  Tab.ext_get fun j => by
    rw [Tab.get_set]
    split
    · next h => rw [h]
    · rfl

theorem withTicketLine_self (n : Fin 8) (s : State) : s.withTicketLine n (s.ticketLine n) = s := by
  have h : s.print.lines.set n (s.ticketLine n) = s.print.lines := Tab.set_get _ n
  rw [State.withTicketLine, h]

theorem withTicketLine_ticketLine (n k : Fin 8) (l : TicketLine) (s : State) :
    (s.withTicketLine n l).ticketLine k = if n = k then l else s.ticketLine k := Tab.get_set ..

theorem withTicketLine_only (n : Fin 8) (l : TicketLine) (s : State) : Only [.print] s (s.withTicketLine n l) := by
  simp [State.withTicketLine]

theorem withTicketLine_withTicketLine (n : Fin 8) (l m : TicketLine) (s : State) :
    (s.withTicketLine n l).withTicketLine n m = s.withTicketLine n m := by
  simp only [State.withTicketLine, Tab.set_set]

theorem withTicketLine_print {n : Fin 8} {l : TicketLine} {s u : State} (h : u.print = s.print) :
    (u.withTicketLine n l).print = { s.print with lines := s.print.lines.set n l } := by
  rw [← h]
  rfl

theorem onNamedLine_eq {line : Byte} {n : Fin 8} (h : line.toNat = 0x20 + n.val) (r : Reply) (f : Fin 8 → State → State)
    (s : State) : onNamedLine line r f s = f n s := by
  rw [onNamedLine, readTicketLine, offset_eq (i := n) (by omega)]

theorem wake_idle {n : Fin 8} {s : State} (h : (s.ticketLine n).queue = []) : wake n s = s := by
  unfold wake
  dsimp only
  rw [if_neg]
  rintro ⟨-, hq⟩
  exact hq h

theorem grantedSum_congr {s t : State} (hp : t.params = s.params) (h : ∀ k, (t.ticketLine k).granted = (s.ticketLine k).granted) :
    t.grantedSum = s.grantedSum := by
  simp only [State.grantedSum, hp, h]

-- ## A line that waits for power (R143, R145, R147)

/-- A line in IDLE without a grant waits at the tail of the order. -/
theorem enterOrder_grantedSum {n : Fin 8} {u : State} (h : (u.ticketLine n).state = .idle) :
    (enterOrder n id u).grantedSum = u.grantedSum := by
  refine grantedSum_congr rfl fun k => ?_
  rw [enterOrder_ticketLine]
  by_cases hk : n = k
  · subst hk
    simp [TicketLine.granted, h]
  · rw [if_neg hk]

theorem enterOrder_print (n : Fin 8) (u : State) : (enterOrder n id u).print = { u.print with
    lines := u.print.lines.set n { u.ticketLine n with state := .waitPower }, order := u.print.order ++ [n] } := rfl

/-- The judging of a line that stands alone in the order. -/
theorem judge_alone {n : Fin 8} {w : State} (ho : w.print.order = [n]) : judge w
    = if w.grantedSum + w.params.draws.get n ≤ w.params.budget then sendElement n (grantHead n [] w) else w := by
  have hstop : ∀ k v, v.print.order = [] → judgeFrom k v = v := fun k v hv => by
    cases k with
    | zero => rfl
    | succ k => simp only [judgeFrom, hv]
  rw [judge, judgeFrom]
  simp only [ho]
  split
  · exact hstop 7 _ (sendElement_order n _)
  · rfl

theorem grantHead_enterOrder {n : Fin 8} {u : State} (h : u.print.order = []) : (grantHead n [] (enterOrder n id u)).print
    = { u.print with lines := u.print.lines.set n { u.ticketLine n with state := .printing } } := by
  have hl : (enterOrder n id u).ticketLine n = { u.ticketLine n with state := .waitPower } := by
    rw [enterOrder_ticketLine, if_pos rfl, id]
  unfold grantHead
  rw [onTicketLine_eq]
  simp only [State.withTicketLine, State.ticketLine] at hl ⊢
  rw [hl, enterOrder_print, h]
  simp only [Tab.set_set]

/-- R143, R145: a line in IDLE with a job joins the waiting order, or is granted at once. -/
theorem wake_joins {n : Fin 8} {u : State} (hidle : (u.ticketLine n).state = .idle) (hq : (u.ticketLine n).queue ≠ []) :
    ∃ told, Says told u (wake n u) ∧ ∀ t : State, t.print = (wake n u).print → Joins n told u t := by
  have hwake : wake n u = joinOrder n u := if_pos ⟨hidle, hq⟩
  have hfrom : Only [.print] u (enterOrder n id u) := by simp [enterOrder]
  rw [hwake, joinOrder_eq]
  have stays (hno : u.print.order = [] → ¬ u.grantedSum + u.params.draws.get n ≤ u.params.budget) (t : State)
      (ht : t.print = (enterOrder n id u).print) : Joins n nothing u t :=
    ⟨fun _ _ => rfl, fun _ => ⟨rfl, ht⟩, fun _ _ => ⟨rfl, ht⟩, fun hnil hfit => absurd hfit (hno hnil)⟩
  by_cases hnil : u.print.order = []
  · rw [if_pos (by rw [hnil]; rfl), judge_alone (by rw [enterOrder_print, hnil]; rfl), enterOrder_grantedSum hidle]
    by_cases hfit : u.grantedSum + u.params.draws.get n ≤ u.params.budget
    · rw [if_pos (by exact hfit)]
      obtain ⟨told, he⟩ := sendElement_elements n (grantHead n [] (enterOrder n id u))
      have hgrant : Only [.print] u (grantHead n [] (enterOrder n id u)) := hfrom.trans (by simp [grantHead])
      refine ⟨told, he.sends.after_only hgrant (by simp), fun t ht => ⟨he.elsewhere, fun hne => absurd hnil hne,
        fun _ hover => absurd hover (Nat.not_lt.2 hfit), fun _ _ j later first x hj hn hx => ?_⟩⟩
      have hprint := grantHead_enterOrder (n := n) hnil
      have hline : (grantHead n [] (enterOrder n id u)).ticketLine n = { u.ticketLine n with state := .printing } := by
        rw [grantHead_ticketLine, if_pos rfl, enterOrder_ticketLine, if_pos rfl, id]
      obtain ⟨htold, hsend⟩ := he.prints j later first x (by rw [hline]; exact hj) (by rw [hprint]; exact hn)
        (by rw [hprint]; exact hx)
      refine ⟨htold, ?_⟩
      rw [ht, hsend, onTicketLine_eq, hline]
      show (State.withTicketLine n { u.ticketLine n with
        state := .printing, queue := { j with started := true } :: later } (grantHead n [] (enterOrder n id u))).print = _
      rw [State.withTicketLine, hprint]
      simp only [Tab.set_set]
    · rw [if_neg (by exact hfit)]
      exact ⟨nothing, .of_only hfrom (by simp), stays fun _ => hfit⟩
  · rw [if_neg (by simpa using hnil)]
    exact ⟨nothing, .of_only hfrom (by simp), stays fun h => absurd h hnil⟩

theorem Joins.congr {n : Fin 8} {told : Line → List Frame} {u t u' : State} (h : Joins n told u t) (hp : u'.print = u.print)
    (hpar : u'.params = u.params) : Joins n told u' t := by
  have hline : u'.ticketLine n = u.ticketLine n := by rw [State.ticketLine, hp]; rfl
  have hsum : u'.grantedSum = u.grantedSum := by simp only [State.grantedSum, State.ticketLine, hp, hpar]
  simpa only [Joins, hline, hsum, hp, hpar] using h

-- ## The operator's requests (R144, R150 to R152)

theorem mayResume_of {s : State} {n : Fin 8} (hstate : (s.ticketLine n).state = .stopped ∨ (s.ticketLine n).state = .halted)
    (hcapture : (s.ticketLine n).capture = none) (hcut : (s.ticketLine n).cause = some .powerCut →
      ∀ k, ¬ ((s.ticketLine k).state = .stopped ∧ (s.ticketLine k).cause = some .overcurrent)) : s.mayResume n = true := by
  have hstate' : ((s.ticketLine n).state == .stopped || (s.ticketLine n).state == .halted) = true := by simpa using hstate
  have hcut' : ((s.ticketLine n).cause == some .powerCut
      && s.print.lines.list.any (fun k => k.state == .stopped && k.cause == some .overcurrent)) = false := by
    rw [Bool.and_eq_false_iff]
    by_cases h : (s.ticketLine n).cause = some .powerCut
    · refine .inr ?_
      rw [List.any_eq_false]
      intro l hl
      obtain ⟨k, rfl⟩ := (Tab.mem_list _ l).1 hl
      simpa [State.ticketLine] using hcut h k
    · exact .inl (by simpa using h)
  simp only [State.mayResume, hstate', hcapture, hcut', Option.isNone_none, Bool.and_true, Bool.not_false]

theorem mayResume_congr {s u : State} (h : u.print = s.print) (n : Fin 8) : u.mayResume n = s.mayResume n := by
  simp only [State.mayResume, State.ticketLine, h]

/-- R144: a line as POWER_ON makes it. -/
def TicketLine.poweredUp (time : Nat) (l : TicketLine) : TicketLine :=
  { l.watching time with state := .idle, status := .none, sinceRest := 0 }

/-- R152: a line as RESUME makes it. -/
def TicketLine.resumed (time : Nat) (l : TicketLine) : TicketLine :=
  { (if l.powered then l else l.watching time) with
    state := .idle, cause := none, stopPending := false, status := if l.cause = some .powerCut then .none else l.status }

theorem TicketLine.resumed_eq (time : Nat) (l : TicketLine) : l.resumed time = { l with
    state := .idle, cause := none, stopPending := false, status := if l.cause = some .powerCut then .none else l.status
    filter := if l.powered then l.filter else if l.asserted then some time else none } := by
  unfold TicketLine.resumed
  cases l.powered <;> rfl

section
variable {i : Instr} {who : Requester} {r : Reply} {s : State} {src : Link} {tag kind line : Byte} {n : Fin 8}
  {run : Requester → Reply → State → State} {f : Fin 8 → State → State}

/-- A request that leaves one line's record as `l'`, and answers OK. -/
theorem Heard.marksLine {fields : List Byte} {l' : TicketLine} (h : Heard i who r s)
    (hx : ∀ s, exec i s = request i src tag kind true run s) (hi : requestOf i = some (src, tag, kind))
    (hrun : ∀ u, u.print = s.print → u.params = s.params → run who r u = answer r .ok fields (u.withTicketLine n l')) :
    ∃ t, Answers i r .ok fields [.print] s t ∧ t.print = { s.print with lines := s.print.lines.set n l' } :=
  h.answers hx hi rfl (hrun _ (hearing_print i r s) (hearing_params i r s)) ((withTicketLine_only n l' _).mono (by simp))
    (by simp) fun _ ht => (ht .print (by simp)).trans (withTicketLine_print (hearing_print i r s))

/-- A request that takes one line from the grants and the order. -/
theorem Heard.vacates {l' : TicketLine} {v w : State} {told : Line → List Frame} (h : Heard i who r s)
    (hx : ∀ s, exec i s = request i src tag kind true run s) (hi : requestOf i = some (src, tag, kind))
    (hrun : run who r (hearing i r s) = answer r .ok [] v) (hwork : PrintWork (hearing i r s) v)
    (honly : Only [.print, .lines] (hearing i r s) v) (hsays : Says told (hearing i r s) v)
    (hsame : SameArbiter (hearing i r s) w) (hwaiting : w.print.waiting = s.print.waiting) (hv : Vacated n l' told w v) :
    ∃ t told, Runs i r [.print] (after told (on r.link.line [answerFrame r .ok []])) s t
      ∧ (∀ m, told m ≠ [] → ∃ k ∈ s.print.order, m = .tl k)
      ∧ t.ticketLine n = l' ∧ n ∉ t.print.order ∧ t.print.waiting = s.print.waiting ∧ t.print.pool = w.print.pool
      ∧ (∀ k, k ≠ n → t.ticketLine k = s.ticketLine k ∨ k ∈ s.print.order)
      ∧ (PowerLaw s → Releases n l' told s t) := by
  have hstart : SameArbiter s (hearing i r s) := .of_only (only_hearing i r s) (by simp)
  have hsw : SameArbiter s w :=
    ⟨hsame.lines.trans hstart.lines, hsame.order.trans hstart.order, hsame.params.trans hstart.params⟩
  obtain ⟨t, ht, hQ⟩ := h.runs (bs := [.print]) (Q := fun t => Only [.lines, .latched, .choice] v t) hx hi rfl hrun
    ((only_answer (by simp)).2 (honly.mono (by simp))) (hsays.trans (says_answer ..)) (by simp) (by simp)
    fun t ht => ((only_answer (by simp)).2 (Only.refl _ _)).trans ht
  have hprint : t.print = v.print := hQ .print (by simp)
  have hline : ∀ k, t.ticketLine k = v.ticketLine k := fun k => by rw [State.ticketLine, hprint]; rfl
  refine ⟨t, told, ht, fun m hm => ?_, ?_, ?_, ?_, ?_, fun k hk => ?_, fun hlaw => ?_⟩
  · rw [← hsw.order]
    exact hv.elsewhere m hm
  · rw [hline, hv.line]
  · rw [hprint]
    exact hv.order
  · rw [hprint, hv.waiting, hwaiting]
  · rw [hprint, hv.pool]
  · rw [hline, ← hsw.order, ← hsw.ticketLine]
    exact hv.other k hk
  · have hafter := PowerLaw.printWork hwork (hstart.powerLaw.2 hlaw)
    exact (hv.releases (hsw.powerLaw.2 hlaw) hafter).congr ⟨hsw.lines.symm, hsw.order.symm, hsw.params.symm⟩
      (.of_only hQ (by simp)) (by rw [hprint])

end

/-- Settles O54: by the request and the line's state, the line's record changes, or the line leaves the order. -/
theorem operatorRequestsMoveTheLine : Obligations.OperatorRequestsMoveTheLine := by
  unfold Obligations.OperatorRequestsMoveTheLine
  refine ⟨?_, ?_⟩
  · intro i who r s n line src tag l l' fields hline h hl hcase
    have same : ∀ {u : State}, u.print = s.print → u.ticketLine n = l := fun {u} hu => by
      rw [← hl, State.ticketLine, hu]
      rfl
    have still : ∀ {u : State}, u.print = s.print → u.withTicketLine n l = u := fun {u} hu => by
      rw [← same hu]
      exact withTicketLine_self n u
    rcases hcase with ⟨rfl, hstate, hcapture, hq, rfl, rfl⟩ | ⟨rfl, hstate, rfl, rfl⟩ | ⟨rfl, hstate, rfl, rfl⟩
      | ⟨rfl, hstate, rfl, rfl⟩ | ⟨rfl, hstate, rfl, rfl⟩ | ⟨rfl, hstate, rfl, rfl⟩
      | ⟨rfl, hstate, hcapture, hcut, hq, rfl, rfl⟩ | ⟨rfl, hno, rfl, rfl⟩ | ⟨rfl, hstate, hcause, rfl, rfl⟩
    · refine h.marksLine (fun _ => rfl) rfl fun u hu hp => ?_
      have hup : powerUp n u = wake n (u.withTicketLine n (l.poweredUp s.params.filterTime)) := by
        rw [← same hu, ← hp]
        rfl
      rw [onNamedLine_eq hline, same hu, if_pos ⟨hstate, hcapture⟩, hup, wake_idle (by rw [withTicketLine_ticketLine, if_pos rfl]; exact hq)]
      rfl
    · refine h.marksLine (fun _ => rfl) rfl fun u hu hp => ?_
      rw [onNamedLine_eq hline, powerDown_eq, same hu, if_pos hstate, still hu]
    · refine h.marksLine (fun _ => rfl) rfl fun u hu hp => ?_
      rw [onNamedLine_eq hline, same hu, onTicketLine_eq, same hu]
      cases hs : l.state <;> simp_all
    · refine h.marksLine (fun _ => rfl) rfl fun u hu hp => ?_
      rw [onNamedLine_eq hline, same hu]
      simp only [hstate]
      rw [still hu]
    · refine h.marksLine (fun _ => rfl) rfl fun u hu hp => ?_
      rw [onNamedLine_eq hline, same hu, onTicketLine_eq, same hu]
      rcases hstate with hstate | ⟨hstate | hstate, j, hj, hstarted⟩
      · simp only [hstate]
      · simp only [hstate, TicketLine.headStarted, hj, Option.any_some, hstarted, if_true]
      · simp only [hstate, TicketLine.headStarted, hj, Option.any_some, hstarted, if_true]
    · refine h.marksLine (fun _ => rfl) rfl fun u hu hp => ?_
      rw [onNamedLine_eq hline, same hu]
      simp only [hstate]
      rw [still hu]
    · refine h.marksLine (fun _ => rfl) rfl fun u hu hp => ?_
      have hmay : u.mayResume n = true := by
        rw [mayResume_congr hu]
        exact mayResume_of (by rw [hl]; exact hstate) (by rw [hl]; exact hcapture) (by rw [hl]; exact hcut)
      have hres : resumeLine n u = wake n (u.withTicketLine n (l.resumed s.params.filterTime)) := by
        rw [← same hu, ← hp]
        rfl
      rw [onNamedLine_eq hline, if_pos hmay, hres, TicketLine.resumed_eq,
        wake_idle (by rw [withTicketLine_ticketLine, if_pos rfl]; exact hq)]
    · refine h.marksLine (fun _ => rfl) rfl fun u hu hp => ?_
      rw [onNamedLine_eq hline, onTicketLine_eq, same hu, TicketLine.cleared, if_neg hno]
    · refine h.marksLine (fun _ => rfl) rfl fun u hu hp => ?_
      rw [onNamedLine_eq hline, onTicketLine_eq, same hu, TicketLine.cleared, if_pos ⟨hstate, hcause⟩]
  · intro i who r s n line src tag l l' hline h hl hcase
    have hul : (hearing i r s).ticketLine n = l := by rw [hearing_ticketLine, hl]
    have hwaiting : (hearing i r s).print.waiting = s.print.waiting := by rw [hearing_print]
    have hrefl : SameArbiter (hearing i r s) (hearing i r s) := ⟨rfl, rfl, rfl⟩
    rcases hcase with ⟨rfl, hstate, rfl⟩ | ⟨rfl, hstate, rfl⟩ | ⟨rfl, hstate, rfl⟩
    · obtain ⟨told, hsays, hv⟩ := powerDown_vacated (i := n) (s := hearing (.powerOff src tag line) r s) (by rw [hul]; exact hstate)
      obtain ⟨hsame, hspoil⟩ := spoilInFlight_same n (hearing (.powerOff src tag line) r s)
      rw [hul] at hv
      obtain ⟨t, told, ht, hlines, hself, horder, hwait, hpool, hother, hrel⟩ := h.vacates (fun _ => rfl) rfl
        (onNamedLine_eq hline _ _ _) (printWork_powerDown n _) (powerDown_only n _) hsays hsame (hspoil.trans hwaiting) hv
      refine ⟨t, told, ht, hlines, hself, horder, hwait, fun e => ?_, hother, hrel⟩
      have hflight : (hearing (.powerOff src tag line) r s).inFlight n = s.inFlight n := by
        simp only [State.inFlight, State.headElement, State.ticketLine, hearing_print]
        rfl
      rw [hpool, spoilInFlight_pool, hflight, hearing_print]
      simp
    · obtain ⟨told, hsays, hv⟩ := release_vacated n (fun l => { l with state := .stopped, cause := some .stop, rest := none })
        (hearing (.stop src tag line) r s)
      rw [hul] at hv
      obtain ⟨t, told, ht, hlines, hself, horder, hwait, hpool, hother, hrel⟩ := h.vacates (fun _ => rfl) rfl
        (v := stopNow n (hearing (.stop src tag line) r s)) (by
          rw [onNamedLine_eq hline, hul]
          rcases hstate with e | e | e <;> simp only [e])
        (printWork_stopNow n _) (release_only n _ _) hsays hrefl hwaiting hv
      refine ⟨t, told, ht, hlines, hself, horder, hwait, fun e => ?_, hother, hrel⟩
      rw [hpool, hearing_print]
      simp
    · obtain ⟨told, hsays, hv⟩ := release_vacated n
        (fun l => { l with state := .halted, rest := none, sinceRest := 0, haltPending := false }) (hearing (.halt src tag line) r s)
      rw [hul] at hv
      obtain ⟨t, told, ht, hlines, hself, horder, hwait, hpool, hother, hrel⟩ := h.vacates (fun _ => rfl) rfl
        (v := haltNow n (hearing (.halt src tag line) r s)) (by
          rw [onNamedLine_eq hline, hul]
          rcases hstate with e | e | ⟨e, hj⟩
          · simp only [e]
          · simp only [e]
          · have hstarted : l.headStarted = false := by
              cases hq : l.queue.head? with
              | none => simp [TicketLine.headStarted, hq]
              | some j => simp [TicketLine.headStarted, hq, hj j hq]
            simp only [e, hstarted, Bool.false_eq_true, if_false])
        (printWork_haltNow n _) (release_only n _ _) hsays hrefl hwaiting hv
      refine ⟨t, told, ht, hlines, hself, horder, hwait, fun e => ?_, hother, hrel⟩
      rw [hpool, hearing_print]
      simp

/-- A request whose line, become IDLE with a job, waits for power. -/
theorem Heard.wakes {i : Instr} {who : Requester} {r : Reply} {s : State} {src : Link} {tag kind : Byte} {n : Fin 8}
    {run : Requester → Reply → State → State} {l' : TicketLine} (h : Heard i who r s)
    (hx : ∀ s, exec i s = request i src tag kind true run s) (hi : requestOf i = some (src, tag, kind))
    (hrun : ∀ u, u.print = s.print → u.params = s.params → run who r u = answer r .ok [] (wake n (u.withTicketLine n l')))
    (hidle : l'.state = .idle) (hq : l'.queue ≠ []) :
    ∃ t told, Runs i r [.print] (after told (on r.link.line [answerFrame r .ok []])) s t
      ∧ Joins n told (s.withTicketLine n l') t := by
  generalize hu : hearing i r s = u
  have hus : Only [.lines, .outstanding] s u := hu ▸ only_hearing _ _ _
  have hself : (u.withTicketLine n l').ticketLine n = l' := by rw [withTicketLine_ticketLine, if_pos rfl]
  obtain ⟨told, hsays, hjoins⟩ := wake_joins (n := n) (u := u.withTicketLine n l') (by rw [hself]; exact hidle) (by rw [hself]; exact hq)
  have hstart := withTicketLine_only n l' u
  have honly : Only [.print, .lines] (u.withTicketLine n l') (wake n (u.withTicketLine n l')) := by simp
  obtain ⟨t, ht, hprint⟩ := h.runs (bs := [.print]) (out := after told (on r.link.line [answerFrame r .ok []]))
    (u := answer r .ok [] (wake n (u.withTicketLine n l'))) (Q := fun t => t.print = (wake n (u.withTicketLine n l')).print)
    hx hi rfl (by rw [hu]; exact hrun u (hus .print (by simp)) (hus .params (by simp)))
    (by rw [hu]; exact (only_answer (by simp)).2 ((hstart.mono (by simp)).trans (honly.mono (by simp))))
    (by rw [hu]; exact (hsays.trans (says_answer ..)).after_only hstart (by simp)) (by simp) (by simp)
    fun t ht => ht .print (by simp)
  exact ⟨t, told, ht, (hjoins t hprint).congr (by
    rw [withTicketLine_print (hus .print (by simp))]
    rfl) (hus .params (by simp) : u.params = s.params).symm⟩

/-- Settles O55: the line becomes IDLE with its job, and so waits for power. -/
theorem linesWithJobsWaitForPower : Obligations.LinesWithJobsWaitForPower := by
  unfold Obligations.LinesWithJobsWaitForPower
  refine ⟨?_, ?_⟩
  · intro i who r s n line src tag l l' hline h hl hq hcase
    have same : ∀ {u : State}, u.print = s.print → u.ticketLine n = l := fun {u} hu => by
      rw [← hl, State.ticketLine, hu]
      rfl
    rcases hcase with ⟨rfl, hstate, hcapture, rfl⟩ | ⟨rfl, hstate, hcapture, hcut, rfl⟩
    · refine h.wakes (fun _ => rfl) rfl (fun u hu hp => ?_) rfl hq
      rw [onNamedLine_eq hline, same hu, if_pos ⟨hstate, hcapture⟩, powerUp, onTicketLine_eq, same hu, hp]
      rfl
    · refine h.wakes (fun _ => rfl) rfl (fun u hu hp => ?_) rfl hq
      have hmay : u.mayResume n = true := by
        rw [mayResume_congr hu]
        exact mayResume_of (by rw [hl]; exact hstate) (by rw [hl]; exact hcapture) (by rw [hl]; exact hcut)
      have hres : resumeLine n u = wake n (u.withTicketLine n (l.resumed s.params.filterTime)) := by
        rw [← same hu, ← hp]
        rfl
      rw [onNamedLine_eq hline, if_pos hmay, hres, TicketLine.resumed_eq]
  · intro s n l hl hstate hrest hq
    let u := s.withTicketLine n { l with state := .idle, rest := none }
    have hself : u.ticketLine n = { l with state := .idle, rest := none } := by
      rw [withTicketLine_ticketLine, if_pos rfl]
    obtain ⟨told, hsays, hjoins⟩ := wake_joins (n := n) (u := u) (by rw [hself]) (by rw [hself]; exact hq)
    have hstart : Only [.print] s u := withTicketLine_only n _ s
    have honly : Only [.print, .lines] u (wake n u) := by simp
    have hover : s.restOver n = true := by simp [State.restOver, hl, hstate, hrest]
    obtain ⟨t, hx, ht, hprint⟩ := event_does (i := .printerRestExpiry n) (u := wake n u) (bs := [.print]) (out := told)
      (Q := fun t => t.print = (wake n u).print) rfl (by
        rw [expireRest, if_pos hover, leaveRest, onTicketLine_eq, hl])
      ((hstart.mono (by simp)).trans (honly.mono (by simp))) (hsays.after_only hstart (by simp)) (by simp)
      fun t ht => ht .print (by simp)
    exact ⟨t, told, hx, ht, hjoins t hprint⟩

end Sys2Proof.Machine
end

section
/-! PROOFS. The seats of a screening written one by one, and the requests RELEASE_SEATS, SET_TYPE and QUERY_MAP (O31). -/

namespace Sys2Proof.Machine

-- ## An array's entries after a change

theorem Grid.at_put (g : Grid) (x y : Seat) (v : SeatState) : Grid.at (Grid.put g x v) y
    = if y = x then (Grid.at g y).map (fun _ => v) else Grid.at g y := by
  obtain ⟨a, b⟩ := x
  obtain ⟨c, d⟩ := y
  unfold Grid.put Grid.at
  by_cases hy : c = 0 ∨ d = 0
  · simp only [hy, if_true, Option.map_none, ite_self]
  · by_cases hx : a = 0 ∨ b = 0
    · have hne : ¬ (c = a ∧ d = b) := by omega
      simp only [hx, hy, if_true, if_false, Prod.mk.injEq, if_neg hne]
    · simp only [hx, hy, if_false, Prod.mk.injEq, List.getElem?_modify]
      by_cases hr : a - 1 = c - 1
      · have hac : c = a := by omega
        subst hac
        cases g[c - 1]? with
        | none => simp
        | some row =>
          simp only [if_true, Option.map_eq_map, Option.map_some, Option.bind_some, List.getElem?_modify, true_and]
          by_cases hp : b - 1 = d - 1
          · have hbd : d = b := by omega
            subst hbd
            cases row[d - 1]? with
            | none => simp
            | some o => simp
          · have hbd : ¬ d = b := fun e => hp (by rw [e])
            simp [hp, hbd]
      · have hac : ¬ c = a := fun e => hr (by rw [e])
        simp [hr, hac]

/-- Seats written one after the other with one state. -/
theorem Grid.at_foldl_put (v : SeatState) (xs : List Seat) (g : Grid) (y : Seat) :
    Grid.at (xs.foldl (fun g x => Grid.put g x v) g) y
      = if y ∈ xs then (Grid.at g y).map (fun _ => v) else Grid.at g y := by
  induction xs generalizing g with
  | nil => simp
  | cons x xs ih =>
    rw [List.foldl_cons, ih, Grid.at_put]
    by_cases hx : y = x
    · subst hx
      cases Grid.at g y <;> simp
    · simp [hx]

-- ## A request that changes seats and a basket's lines

theorem engine_only (e : Engine) (s : State) : Only [.engine] s { s with engine := e } :=
  (only_engine (by simp)).2 (Only.refl _ s)

/-- R31, R32: an entry that replaces the array `g` of a screening and the record of a basket. -/
theorem Takes.reseats {x : Entry} {e : Engine} {s : State} {i : Instr} {run : Entry → Option (State → State)}
    {f : State → State} {r : Reply} {fields : List Byte} {c : Screening} {g : Grid} {j : Fin 16} {b : Basket}
    (h : Takes x e s) (hx : ∀ s, exec i s = command (arbitrate run) s) (hf : run x = some f) (hc : s.screening c.id = some c)
    (hrun : f { s with engine := e } = answer r .ok fields ((State.putSeats c.id g { s with engine := e }).putBasket j b)) :
    ∃ t c', Carries i e [.screenings, .baskets] (on r.link.line [answerFrame r .ok fields]) s t
      ∧ t.baskets = s.baskets.set j (some b) ∧ SeatsOnly c.id s t ∧ t.screening c.id = some c' ∧ c'.seats = g := by
  have honly : Only [.screenings, .baskets] { s with engine := e }
      ((State.putSeats c.id g { s with engine := e }).putBasket j b) := by simp [State.putSeats]
  obtain ⟨t, ht, hbaskets, hscreenings⟩ := h.carries (bs := [.screenings, .baskets]) (out := on r.link.line [answerFrame r .ok fields])
    (Q := fun t => t.baskets = s.baskets.set j (some b)
      ∧ t.screenings = (s.onScreening c.id (fun c => c.withSeats g)).screenings)
    hx hf hrun ((only_answer (by simp)).2 (honly.mono (by simp))) ((says_answer ..).after_only honly (by simp)) (by simp)
    (by simp) fun t ht => ⟨ht .baskets (by simp), ht .screenings (by simp)⟩
  exact ⟨t, _, ht, hbaskets, seatsOnly_of (F := fun _ => g) hscreenings,
    screening_of_onScreening (F := fun _ => g) hscreenings hc, rfl⟩

theorem reach_screening {s : State} {who : Owner} {slot : Byte} {ref : BitVec 16} {x : Reach}
    (h : s.reach who slot ref = some x) : s.screening x.screening.id = some x.screening := by
  obtain ⟨-, -, -, hc, -⟩ := reach_eq h
  rw [screening_id hc]
  exact hc

-- ## The checks of the seat requests

theorem firstFailing_eq_none {p : Seat → Bool} {xs : List Seat} (h : ∀ x ∈ xs, p x = true) : firstFailing p xs = none := by
  rw [firstFailing, List.find?_eq_none.2 fun x hx => by simp [h x hx], Option.map_none]

theorem seatBytes_seatOf (y : SeatRef) : seatBytes (seatOf y).1 (seatOf y).2 = [y.row, y.pos] := by
  simp [seatBytes, bytes1, seatOf]

theorem firstFailing_split {p : Seat → Bool} {before later : List SeatRef} {y : SeatRef}
    (h : ∀ z ∈ before, p (seatOf z) = true) (hy : p (seatOf y) = false) :
    firstFailing p ((before ++ y :: later).map seatOf) = some [y.row, y.pos] := by
  have hfind : ((before ++ y :: later).map seatOf).find? (fun x => !p x) = some (seatOf y) := by
    rw [List.map_append, List.map_cons, List.find?_append, List.find?_eq_none.2, Option.none_or, List.find?_cons_of_pos]
    · simp [hy]
    · intro x hx
      obtain ⟨z, hz, rfl⟩ := List.mem_map.1 hx
      simp [h z hz]
  rw [firstFailing, hfind, Option.map_some, seatBytes_seatOf]

theorem distinct_iff {xs : List Seat} : distinct xs = true ↔ xs.Nodup := by simp [distinct]

theorem hasWheelchair_iff {rows : List (List Cell)} {xs : List Seat} :
    hasWheelchair rows xs = true ↔ ∃ y ∈ xs, kindAt rows y = some .wheelchair := by
  simp only [hasWheelchair, List.any_eq_true, beq_iff_eq]

theorem hasWheelchair_eq_false {rows : List (List Cell)} {xs : List Seat} :
    hasWheelchair rows xs = false ↔ ∀ y ∈ xs, kindAt rows y ≠ some .wheelchair := by
  simp only [hasWheelchair, List.any_eq_false, beq_iff_eq]

theorem leavesCompanion_iff {rows : List (List Cell)} {before after : List SeatLine} :
    leavesCompanion rows before after = true ↔ (∃ y ∈ lineSeats before, kindAt rows y = some .wheelchair)
      ∧ (∀ y ∈ lineSeats after, kindAt rows y ≠ some .wheelchair) ∧ ∃ l ∈ after, l.type = .companion := by
  simp only [leavesCompanion, Bool.and_eq_true, hasWheelchair_iff, Bool.not_eq_true', hasWheelchair_eq_false, List.any_eq_true,
    beq_iff_eq, and_assoc]

theorem companionOk_iff {rows : List (List Cell)} {held : List Seat} {x : Seat} {t : TicketType} :
    companionOk rows held x t = true ↔ (t = .companion → kindAt rows x = some .companionSeat
      ∧ ∃ y ∈ held, kindAt rows y = some .wheelchair) := by
  simp only [companionOk, Bool.or_eq_true, bne_iff_ne, Bool.and_eq_true, beq_iff_eq, hasWheelchair_iff]
  tauto

/-- R44, R47: a list of seats outside its form. -/
theorem form_fails_iff {seats : List Seat} {top : Nat} : (seats.length = 0 ∨ top < seats.length ∨ (!distinct seats) = true)
    ↔ ¬ (within 1 top seats.length ∧ seats.Nodup) := by
  have hd : ((!distinct seats) = true) ↔ ¬ seats.Nodup := by
    rw [Bool.not_eq_true', ← Bool.not_eq_true, distinct_iff]
  rw [hd]
  unfold within
  by_cases h : seats.Nodup
  · simp only [h, not_true_eq_false, or_false, and_true]
    omega
  · simp [h]

theorem readTicketType_of {b : Byte} (h : within 1 4 b.toNat) : ∃ t, readTicketType b = some t := by
  obtain ⟨hlo, hhi⟩ := h
  have hcases : b.toNat = 1 ∨ b.toNat = 2 ∨ b.toNat = 3 ∨ b.toNat = 4 := by omega
  unfold readTicketType
  rcases hcases with e | e | e | e <;> (rw [e]; exact ⟨_, rfl⟩)

theorem readTicketType_eq_none {b : Byte} (h : ¬ within 1 4 b.toNat) : readTicketType b = none := by
  unfold readTicketType within at *
  split <;> [omega; omega; omega; omega; rfl]

theorem reachScreening_of {s : State} {id : BitVec 16} {c : Screening} {h : PlanHeader} {rows : List (List Cell)}
    (hc : s.screening id.toNat = some c) (hp : s.plan c.plan = some (h, rows)) : s.reachScreening id = some (c, h, rows) := by
  simp only [State.reachScreening, hc, hp, Option.map_some]

theorem reachScreening_eq_none {s : State} {id : BitVec 16} (h : ∀ c, s.screening id.toNat = some c → s.plan c.plan = none) :
    s.reachScreening id = none := by
  unfold State.reachScreening
  split
  · rfl
  · next c hc => rw [h c hc, Option.map_none]

-- ## RELEASE_SEATS (R44, R45)

/-- The lines left as seats are released. -/
theorem linesLeft_eq (lines : List SeatLine) (seats : List Seat) : lines.filter (fun l => !seats.contains (l.row, l.pos))
    = lines.filter (fun l => (l.row, l.pos) ∉ seats) := by
  refine List.filter_congr fun l _ => ?_
  rw [Bool.eq_iff_iff]
  simp

section
variable {who : Owner} {r : Reply} {slot : Byte} {ref : BitVec 16} {refs : List SeatRef} {s : State} {x : Reach}

theorem runReleaseSeats_malformed (h : ¬ (within 1 10 refs.length ∧ (refs.map seatOf).Nodup)) :
    runReleaseSeats who r slot ref refs s = answer r .badRequest [] s := by
  rw [← List.length_map (f := seatOf)] at h
  exact if_pos (form_fails_iff.2 h)

theorem runReleaseSeats_formed (hlen : within 1 10 refs.length) (hnd : (refs.map seatOf).Nodup) :
    runReleaseSeats who r slot ref refs s = match s.reach who slot ref with
      | none => answer r .noSuch [] s
      | some x =>
        if x.basket.state ≠ .opened then answer r .wrongState [] s
        else
          match firstFailing (lineSeats x.basket.lines).contains (refs.map seatOf) with
          | some other => answer r .noSuch other s
          | none =>
            if leavesCompanion x.rows x.basket.lines (x.basket.lines.filter (fun l => (l.row, l.pos) ∉ refs.map seatOf)) then
              answer r .dependent [] s
            else answer r .ok (bytes1 (x.basket.lines.filter (fun l => (l.row, l.pos) ∉ refs.map seatOf)).length)
              (releaseFor x.slot x.basket x.screening (refs.map seatOf) s) := by
  have hform : ¬ ((refs.map seatOf).length = 0 ∨ 10 < (refs.map seatOf).length ∨ (!distinct (refs.map seatOf)) = true) := fun h =>
    form_fails_iff.1 h ⟨by rw [List.length_map]; exact hlen, hnd⟩
  rw [runReleaseSeats]
  dsimp only
  rw [if_neg hform]
  simp only [linesLeft_eq] <;> rfl

end

/-- Settles O31: the checks in their order, and the change that stands where all of them pass. -/
theorem releaseTypeAndMapAreCarriedOut : Obligations.ReleaseTypeAndMapAreCarriedOut := by
  unfold Obligations.ReleaseTypeAndMapAreCarriedOut
  refine ⟨?_, ?_, ?_, ?_, ?_, ?_⟩
  · intro who r slot ref refs e s x left h hlen hnd hx hopen hmine hleft hdep
    subst hleft
    have hfail : firstFailing (lineSeats x.basket.lines).contains (refs.map seatOf) = none :=
      firstFailing_eq_none fun z hz => by
        obtain ⟨y, hy, rfl⟩ := List.mem_map.1 hz
        simpa using hmine y hy
    have hkeeps : ¬ leavesCompanion x.rows x.basket.lines
        (x.basket.lines.filter (fun l => (l.row, l.pos) ∉ refs.map seatOf)) = true := fun hl => by
      obtain ⟨hbefore, hafter, hcomp⟩ := leavesCompanion_iff.1 hl
      rcases hdep with ⟨y, hy, hk⟩ | hno | hno
      · exact hafter y hy hk
      · obtain ⟨l, hl, ht⟩ := hcomp
        exact hno l hl ht
      · obtain ⟨y, hy, hk⟩ := hbefore
        exact hno y hy hk
    have hreach : State.reach { s with engine := e } who slot ref = some x := hx
    obtain ⟨t, c, ht, hb, hseats, hc, hg⟩ := h.reseats (i := .releaseSeats) (fun _ => rfl) rfl (reach_screening hx) (by
      rw [runReleaseSeats_formed hlen hnd, hreach]
      dsimp only
      rw [if_neg (by simp [hopen])]
      simp only [hfail]
      rw [if_neg hkeeps, releaseFor, linesLeft_eq])
    refine ⟨t, c, ht, hb, hseats, hc, fun y => ?_⟩
    rw [hg, Grid.at_foldl_put]
  · intro who r slot ref refs e s h refused
    have refuse {result : Result} {fields : List Byte}
        (hrun : runReleaseSeats who r slot ref refs { s with engine := e } = answer r result fields { s with engine := e }) :
        refused result fields := h.answers_only (fun _ => rfl) rfl hrun
    refine ⟨fun hform => refuse (runReleaseSeats_malformed ?_), fun hlen hnd => ?_⟩
    · rintro ⟨hlen, hnd⟩
      exact hform.elim (fun hno => hno hlen) (fun hno => hno hnd)
    · refine ⟨fun hnone => refuse ?_, fun x hx => ?_⟩
      · have hreach : State.reach { s with engine := e } who slot ref = none := hnone
        rw [runReleaseSeats_formed hlen hnd, hreach]
      · have hreach : State.reach { s with engine := e } who slot ref = some x := hx
        intro left
        refine ⟨fun hstate => refuse ?_, fun hopen before y later hsplit hbefore hy => refuse ?_, fun hopen hmine hbefore hafter hcomp => refuse ?_⟩
        · rw [runReleaseSeats_formed hlen hnd, hreach]
          exact if_pos hstate
        · have hfail : firstFailing (lineSeats x.basket.lines).contains (refs.map seatOf) = some [y.row, y.pos] := by
            rw [hsplit]
            exact firstFailing_split (fun z hz => by simpa using hbefore z hz) (by simpa using hy)
          rw [runReleaseSeats_formed hlen hnd, hreach]
          dsimp only
          rw [if_neg (by simp [hopen])]
          simp only [hfail]
        · have hfail : firstFailing (lineSeats x.basket.lines).contains (refs.map seatOf) = none :=
            firstFailing_eq_none fun z hz => by
              obtain ⟨y, hy, rfl⟩ := List.mem_map.1 hz
              simpa using hmine y hy
          rw [runReleaseSeats_formed hlen hnd, hreach]
          dsimp only
          rw [if_neg (by simp [hopen])]
          simp only [hfail]
          rw [if_pos (leavesCompanion_iff.2 ⟨hbefore, hafter, hcomp⟩)]
  · intro who r slot ref seat type e s x ty h hty hx hopen hmine hcomp
    have hreach : State.reach { s with engine := e } who slot ref = some x := hx
    have hok := companionOk_iff (held := lineSeats x.basket.lines) (x := seatOf seat).2 hcomp
    have honly : ∀ b, Only [.baskets] { s with engine := e } (State.putBasket x.slot b { s with engine := e }) := fun b => by simp
    refine h.carries (bs := [.baskets]) (fun _ => rfl) rfl (u := answer r .ok [] (State.putBasket x.slot { x.basket with
        lines := x.basket.lines.map (fun l => if (l.row, l.pos) = seatOf seat then { l with type := ty } else l) } { s with engine := e }))
      ?_ ((only_answer (by simp)).2 ((honly _).mono (by simp))) ((says_answer ..).after_only (honly _) (by simp)) (by simp) (by simp)
      fun t ht => ht .baskets (by simp)
    have hin : (!(lineSeats x.basket.lines).contains (seatOf seat)) = false := by simpa using hmine
    simp only [runSetType, hty, hreach, hin, hok, Bool.not_true, Bool.false_eq_true, if_false]
    rw [if_neg (by simp [hopen])]
  · intro who r slot ref seat type e s h refused
    have refuse {result : Result}
        (hrun : runSetType who r slot ref seat type { s with engine := e } = answer r result [] { s with engine := e }) :
        refused result := h.answers_only (fun _ => rfl) rfl hrun
    refine ⟨fun hform => refuse ?_, fun hform hnone => refuse ?_, fun hform x hx => ?_⟩
    · rw [runSetType, readTicketType_eq_none hform]
    · have hreach : State.reach { s with engine := e } who slot ref = none := hnone
      obtain ⟨ty, hty⟩ := readTicketType_of hform
      simp only [runSetType, hty, hreach]
    · have hreach : State.reach { s with engine := e } who slot ref = some x := hx
      obtain ⟨ty, hty⟩ := readTicketType_of hform
      refine ⟨fun hstate => refuse ?_, fun hopen hno => refuse ?_, fun hopen hmine hfour hcomp => refuse ?_⟩
      · simp only [runSetType, hty, hreach]
        rw [if_pos hstate]
      · have hin : (!(lineSeats x.basket.lines).contains (seatOf seat)) = true := by simpa using hno
        simp only [runSetType, hty, hreach, hin, if_true]
        rw [if_neg (by simp [hopen])]
      · have hin : (!(lineSeats x.basket.lines).contains (seatOf seat)) = false := by simpa using hmine
        have hcompanion : ty = .companion := by
          subst hfour
          cases hty
          rfl
        have hno : (!companionOk x.rows (lineSeats x.basket.lines) (seatOf seat) ty) = true := by
          rw [Bool.not_eq_true', ← Bool.not_eq_true, companionOk_iff]
          intro hall
          obtain ⟨hkind, y, hy, hk⟩ := hall hcompanion
          exact hcomp.elim (fun hne => hne hkind) (fun hne => hne y hy hk)
        simp only [runSetType, hty, hreach, hin, hno, Bool.false_eq_true, if_false, if_true]
        rw [if_neg (by simp [hopen])]
  · intro who r id first last e s c hd rows h hc hp hfirst hle hrows hcount
    have hreach : State.reachScreening { s with engine := e } id = some (c, hd, rows) := reachScreening_of hc hp
    refine h.answers_only (fun _ => rfl) rfl ?_
    show runQueryMap who r id first last { s with engine := e } = _
    simp only [runQueryMap, hreach]
    rw [if_neg (by omega), if_neg (by omega)]
  · intro who r id first last e s h refused
    have refuse {result : Result}
        (hrun : runQueryMap who r id first last { s with engine := e } = answer r result [] { s with engine := e }) :
        refused result := h.answers_only (fun _ => rfl) rfl hrun
    refine ⟨fun hno => refuse ?_, fun c hd rows hc hp => ?_⟩
    · have hreach : State.reachScreening { s with engine := e } id = none := reachScreening_eq_none hno
      simp only [runQueryMap, hreach]
    · have hreach : State.reachScreening { s with engine := e } id = some (c, hd, rows) := reachScreening_of hc hp
      refine ⟨fun hbad => refuse ?_, fun hfirst hrows hmany => refuse ?_⟩
      · have hbad' : first.toNat = 0 ∨ hd.rows < last.toNat ∨ last.toNat < first.toNat := by
          rcases hbad with rfl | hbad
          · exact .inl rfl
          · exact .inr hbad
        simp only [runQueryMap, hreach]
        rw [if_pos hbad']
      · simp only [runQueryMap, hreach]
        rw [if_neg (by omega), if_pos (by omega)]

end Sys2Proof.Machine
end

section
/-! PROOFS. Holding seats, the best-block search, and house seats (O30). -/

namespace Sys2Proof.Machine

-- ## A list all of whose items are well formed

theorem readAll_eq_some {α β : Type} {f : α → Option β} {xs : List α} {ys : List β} :
    readAll f xs = some ys ↔ xs.map f = ys.map some := by
  induction xs generalizing ys with
  | nil => cases ys <;> simp [readAll]
  | cons x xs ih =>
    cases hx : f x with
    | none => cases ys <;> simp [readAll, hx]
    | some y =>
      cases hr : readAll f xs with
      | none =>
        cases ys with
        | nil => simp [readAll, hx, hr]
        | cons z zs =>
          have hno : ¬ xs.map f = zs.map some := fun e => by simpa [hr] using ih.2 e
          simp [readAll, hx, hr, hno]
      | some l =>
        have hl : xs.map f = l.map some := ih.1 hr
        cases ys with
        | nil => simp [readAll, hx, hr]
        | cons z zs =>
          simp only [readAll, hx, hr, Option.some.injEq, List.cons.injEq, List.map_cons, hl]
          rw [List.map_inj_right (fun _ _ e => Option.some.inj e)]

theorem readAll_eq_none {α β : Type} {f : α → Option β} {xs : List α} {x : α} (hx : x ∈ xs) (h : f x = none) :
    readAll f xs = none := by
  cases hr : readAll f xs with
  | none => rfl
  | some ys =>
    have hmem : f x ∈ ys.map some := readAll_eq_some.1 hr ▸ List.mem_map_of_mem hx
    simp [h] at hmem

theorem readAll_length {α β : Type} {f : α → Option β} {xs : List α} {ys : List β} (h : readAll f xs = some ys) :
    ys.length = xs.length := by
  simpa using congrArg List.length (readAll_eq_some.1 h).symm

-- ## The form of a HOLD_SEATS (R37)

/-- A seat listed, with the type that its byte names. -/
def wishOf (w : SeatWish) : Option (Seat × TicketType) := (readTicketType w.type).map (fun t => (seatOf w.seat, t))

theorem readWishes_seats {wishes : List SeatWish} {xs : List (Seat × TicketType)} (h : readAll wishOf wishes = some xs) :
    xs.map Prod.fst = wishes.map (fun w => seatOf w.seat) := by
  have hmap := congrArg (List.map (Option.map Prod.fst)) (readAll_eq_some.1 h)
  rw [List.map_map, List.map_map] at hmap
  have hleft : wishes.map (Option.map Prod.fst ∘ wishOf) = (wishes.map (fun w => seatOf w.seat)).map some := by
    rw [List.map_map]
    refine List.map_congr_left fun w hw => ?_
    cases ht : readTicketType w.type with
    | none => rw [readAll_eq_none hw (by rw [wishOf, ht]; rfl)] at h; cases h
    | some t => simp [wishOf, ht]
  have hright : xs.map (Option.map Prod.fst ∘ some) = (xs.map Prod.fst).map some := by
    rw [List.map_map]
    rfl
  rw [hleft, hright] at hmap
  exact ((List.map_inj_right fun _ _ e => Option.some.inj e).1 hmap).symm

theorem holdForm_of {wishes : List SeatWish} {override : Byte} {xs : List (Seat × TicketType)} {o : Bool}
    (hxs : readAll wishOf wishes = some xs) (ho : readFlag override = some o) (hlen : within 1 10 xs.length)
    (hnd : (xs.map Prod.fst).Nodup) : holdForm wishes override = some (xs, o) := by
  obtain ⟨hlo, hhi⟩ := hlen
  have hread : readAll (fun w => (readTicketType w.type).map (fun t => (seatOf w.seat, t))) wishes = some xs := hxs
  simp only [holdForm, hread, ho]
  rw [if_pos ⟨hlo, hhi, distinct_iff.2 hnd⟩]

theorem readFlag_eq_none {b : Byte} (h : 1 < b.toNat) : readFlag b = none := by
  have h0 : b ≠ 0 := by
    rintro rfl
    simp at h
  have h1 : b ≠ 1 := by
    rintro rfl
    simp at h
  rw [readFlag, if_neg h0, if_neg h1]

theorem holdForm_eq_none {wishes : List SeatWish} {override : Byte} (h : ¬ within 1 10 wishes.length
    ∨ (∃ w ∈ wishes, ¬ within 1 4 w.type.toNat) ∨ 1 < override.toNat ∨ ¬ (wishes.map (fun w => seatOf w.seat)).Nodup) :
    holdForm wishes override = none := by
  have hwish : (fun w : SeatWish => (readTicketType w.type).map (fun t => (seatOf w.seat, t))) = wishOf := rfl
  simp only [holdForm, hwish]
  cases hxs : readAll wishOf wishes with
  | none => rfl
  | some xs =>
    cases ho : readFlag override with
    | none => rfl
    | some o =>
      refine if_neg ?_
      rintro ⟨hlo, hhi, hnd⟩
      rcases h with hlen | ⟨w, hw, htype⟩ | hover | hdup
      · rw [← readAll_length hxs] at hlen
        exact hlen ⟨hlo, hhi⟩
      · rw [readAll_eq_none hw (by rw [wishOf, readTicketType_eq_none htype]; rfl)] at hxs
        cases hxs
      · rw [readFlag_eq_none hover] at ho
        cases ho
      · rw [← readWishes_seats hxs] at hdup
        exact hdup (distinct_iff.1 hnd)

-- ## The checks of R37

theorem all_kinds_iff {rows : List (List Cell)} {xs : List (Seat × TicketType)} :
    (xs.map Prod.fst).all (fun y => (kindAt rows y).isSome) = true ↔ ∀ y ∈ xs, kindAt rows y.1 ≠ none := by
  simp [List.all_eq_true, Option.isSome_iff_ne_none]

theorem wheelchairOk_iff {h : PlanHeader} {rows : List (List Cell)} {who : Owner} {y : Seat} :
    wheelchairOk h rows who y = true ↔ (kindAt rows y = some .wheelchair → h.kioskWheelchair = true ∨ who = .office) := by
  simp only [wheelchairOk, Bool.or_eq_true, bne_iff_ne, beq_iff_eq]
  tauto

theorem firstFailing_free {g : Grid} {xs : List (Seat × TicketType)} : firstFailing (Grid.freeAt g) (xs.map Prod.fst)
    = (xs.find? (fun y => Grid.at g y.1 != some .free)).map (fun y => [BitVec.ofNat 8 y.1.1, BitVec.ofNat 8 y.1.2]) := by
  rw [firstFailing, List.find?_map, Option.map_map]
  rfl

theorem all_free {g : Grid} {xs : List (Seat × TicketType)} (h : xs.find? (fun y => Grid.at g y.1 != some .free) = none) :
    ∀ y ∈ xs, Grid.at g y.1 = some .free := fun y hy => by
  have := List.find?_eq_none.1 h y hy
  simpa using this

section
variable {who : Owner} {r : Reply} {slot : Byte} {ref : BitVec 16} {wishes : List SeatWish} {override : Byte} {s : State}
  {xs : List (Seat × TicketType)} {o : Bool} {x : Reach}

/-- R37: HOLD_SEATS whose form stands and whose first checks pass, as it goes on to the seats listed. -/
theorem runHoldSeats_reaches (hform : holdForm wishes override = some (xs, o)) (hx : s.reach who slot ref = some x)
    (hopen : x.basket.state = .opened) (hholds : x.screening.holdsFor who = true)
    (hroom : x.basket.lines.length + xs.length ≤ 10) (hkinds : ∀ y ∈ xs, kindAt x.rows y.1 ≠ none) :
    runHoldSeats who r slot ref wishes override s
      = match xs.find? (fun y => Grid.at x.screening.seats y.1 != some .free) with
        | some y => answer r .taken [BitVec.ofNat 8 y.1.1, BitVec.ofNat 8 y.1.2] s
        | none =>
          if !(xs.map Prod.fst).all (wheelchairOk x.header x.rows who) then answer r .notAllowed [] s
          else if !xs.all (fun y => companionOk x.rows (lineSeats x.basket.lines ++ xs.map Prod.fst) y.1 y.2) then
            answer r .notAllowed [] s
          else if orphanApplies x.header who o && orphaned x.rows x.screening.seats (xs.map Prod.fst) then answer r .orphan [] s
          else answer r .ok (heldLines (holdFor x.slot x.basket x.screening (xs.map (fun y => SeatLine.mk y.1.1 y.1.2 y.2 none)) s) x)
            (holdFor x.slot x.basket x.screening (xs.map (fun y => SeatLine.mk y.1.1 y.1.2 y.2 none)) s) := by
  have hall := all_kinds_iff.2 hkinds
  simp only [runHoldSeats, hform, hx, hholds, hall, Bool.not_true, Bool.false_eq_true, if_false, if_neg (Nat.not_lt.2 hroom),
    firstFailing_free]
  rw [if_neg (by simp [hopen])]
  cases xs.find? (fun y => Grid.at x.screening.seats y.1 != some .free) <;> rfl

end

/-- R38: what a hold leaves of the seats. -/
theorem holdFor_seats (lines : List SeatLine) (v : SeatState) (g : Grid) (y : Seat) :
    Grid.at (lines.foldl (fun g l => Grid.put g (l.row, l.pos) v) g) y
      = if y ∈ lineSeats lines then (Grid.at g y).map (fun _ => v) else Grid.at g y := by
  rw [← Grid.at_foldl_put, lineSeats, List.foldl_map]

theorem holdFor_eq (i : Fin 16) (b : Basket) (c : Screening) (lines : List SeatLine) (s : State) : holdFor i b c lines s
    = (s.putSeats c.id (lines.foldl (fun g l => Grid.put g (l.row, l.pos) (.held i.val b.ref)) c.seats)).putBasket i
      { b with lines := b.lines ++ lines } := rfl

theorem heldLines_holdFor (s : State) (x : Reach) (lines : List SeatLine) :
    heldLines (holdFor x.slot x.basket x.screening lines s) x = bytes1 (x.basket.lines.length + lines.length) := by
  have hb : (holdFor x.slot x.basket x.screening lines s).basket x.slot x.basket.ref
      = some { x.basket with lines := x.basket.lines ++ lines } := by
    simp [holdFor_eq, State.basket, State.putBasket, Option.filter]
  rw [heldLines, hb, Option.elim_some, List.length_append]

theorem lineSeats_wishes (xs : List (Seat × TicketType)) :
    lineSeats (xs.map (fun y => SeatLine.mk y.1.1 y.1.2 y.2 none)) = xs.map Prod.fst := by
  rw [lineSeats, List.map_map]
  rfl

-- ## The best-block search (R41 to R43)

theorem flatten_block (cur : List Nat) : (if cur.isEmpty then [] else [cur]).flatten = cur := by
  cases cur <;> simp

/-- R6: the positions of a row's blocks come in their order. -/
theorem blocksFrom_flatten (cells : List Cell) (pos : Nat) (cur : List Nat) : ∃ rest,
    (blocksFrom pos cur cells).flatten = cur ++ rest ∧ rest.Pairwise (· < ·) ∧ ∀ x ∈ rest, pos ≤ x := by
  induction cells generalizing pos cur with
  | nil => exact ⟨[], by rw [blocksFrom, flatten_block, List.append_nil], List.Pairwise.nil, by simp⟩
  | cons c cells ih =>
    cases c with
    | gap =>
      obtain ⟨rest, hflat, hord, hle⟩ := ih (pos + 1) []
      refine ⟨rest, by rw [blocksFrom, List.flatten_append, flatten_block, hflat]; rfl, hord, fun x hx => ?_⟩
      exact (Nat.le_succ pos).trans (hle x hx)
    | seat k z aisle =>
      have grow : ∀ rest : List Nat, rest.Pairwise (· < ·) → (∀ x ∈ rest, pos + 1 ≤ x) →
          (pos :: rest).Pairwise (· < ·) ∧ ∀ x ∈ pos :: rest, pos ≤ x := fun rest hord hle =>
        ⟨List.pairwise_cons.2 ⟨fun x hx => hle x hx, hord⟩, fun x hx => by
          rcases List.mem_cons.1 hx with rfl | hx
          · exact Nat.le_refl _
          · exact (Nat.le_succ pos).trans (hle x hx)⟩
      cases aisle with
      | true =>
        obtain ⟨rest, hflat, hord, hle⟩ := ih (pos + 1) []
        obtain ⟨hord', hle'⟩ := grow rest hord hle
        exact ⟨pos :: rest, by simp [blocksFrom, hflat], hord', hle'⟩
      | false =>
        obtain ⟨rest, hflat, hord, hle⟩ := ih (pos + 1) (cur ++ [pos])
        obtain ⟨hord', hle'⟩ := grow rest hord hle
        exact ⟨pos :: rest, by simp [blocksFrom, hflat], hord', hle'⟩

/-- R42: of two seats, the one of the lower row, and then of the lower position. -/
def Seat.before (x y : Seat) : Prop := x.1 < y.1 ∨ x.1 = y.1 ∧ x.2 ≤ y.2

/-- R41, R42: the candidates come by row and then by first position. -/
theorem candidates_ordered (rows : List (List Cell)) (g : Grid) (zone : Option Zone) (rule : Bool) (n : Nat) :
    (candidates rows g zone rule n).Pairwise Seat.before := by
  have hrow : ∀ i, ∀ x ∈ (rowBlocks (rowCells rows (i + 1))).flatMap (fun b =>
      (blockCandidates rows g zone rule n (i + 1) b).map (fun f => (i + 1, f))), x.1 = i + 1 := fun i x hx => by
    obtain ⟨b, -, hx⟩ := List.mem_flatMap.1 hx
    obtain ⟨f, -, rfl⟩ := List.mem_map.1 hx
    rfl
  refine List.pairwise_flatMap.2 ⟨fun i _ => ?_, List.pairwise_lt_range.imp fun {i j} hij x hx y hy => .inl ?_⟩
  · have hmap : (rowBlocks (rowCells rows (i + 1))).flatMap (fun b =>
        (blockCandidates rows g zone rule n (i + 1) b).map (fun f => (i + 1, f)))
          = ((rowBlocks (rowCells rows (i + 1))).flatMap (blockCandidates rows g zone rule n (i + 1))).map (fun f => (i + 1, f)) := by
      rw [List.map_flatMap]
    rw [hmap, List.pairwise_map]
    obtain ⟨rest, hflat, hord, -⟩ := blocksFrom_flatten (rowCells rows (i + 1)) 1 []
    have hsub : ((rowBlocks (rowCells rows (i + 1))).flatMap (blockCandidates rows g zone rule n (i + 1))).Sublist
        (rowBlocks (rowCells rows (i + 1))).flatten := by
      induction rowBlocks (rowCells rows (i + 1)) with
      | nil => exact List.Sublist.refl _
      | cons b bs ih => exact (List.filter_sublist).append ih
    have hsorted : (rowBlocks (rowCells rows (i + 1))).flatten.Pairwise (· < ·) := by
      rw [rowBlocks, hflat]
      exact hord
    exact (hsorted.sublist hsub).imp fun h => .inr ⟨rfl, Nat.le_of_lt h⟩
  · rw [hrow i x hx, hrow j y hy]
    exact Nat.succ_lt_succ hij

theorem bestOf_eq_none {f : Seat → Nat} {l : List Seat} : bestOf f l = none ↔ l = [] := by
  cases l with
  | nil => simp [bestOf]
  | cons x rest =>
    simp only [bestOf, reduceCtorEq, iff_false]
    cases bestOf f rest with
    | none => simp
    | some y => dsimp only; split <;> simp

/-- R42: the first of the candidates that score lowest. -/
theorem bestOf_first {f : Seat → Nat} {l : List Seat} {x : Seat} (h : bestOf f l = some x) :
    ∃ a b, l = a ++ x :: b ∧ (∀ y ∈ a, f x < f y) ∧ ∀ y ∈ b, f x ≤ f y := by
  induction l generalizing x with
  | nil => cases h
  | cons z rest ih =>
    simp only [bestOf] at h
    cases hr : bestOf f rest with
    | none =>
      simp only [hr, Option.some.injEq] at h
      subst h
      exact ⟨[], [], by rw [bestOf_eq_none.1 hr]; rfl, by simp, by simp⟩
    | some y =>
      obtain ⟨a, b, hab, ha, hb⟩ := ih hr
      simp only [hr] at h
      split at h
      · next hle =>
        cases h
        refine ⟨[], rest, rfl, by simp, fun w hw => ?_⟩
        rw [hab, List.mem_append, List.mem_cons] at hw
        rcases hw with hw | rfl | hw
        · exact hle.trans (Nat.le_of_lt (ha w hw))
        · exact hle
        · exact hle.trans (hb w hw)
      · next hlt =>
        cases h
        refine ⟨z :: a, b, by rw [hab]; rfl, fun w hw => ?_, hb⟩
        rcases List.mem_cons.1 hw with rfl | hw
        · exact Nat.lt_of_not_le hlt
        · exact ha w hw

/-- R42: the winner among candidates in their order. -/
theorem bestOf_wins {f : Seat → Nat} {l : List Seat} {x : Seat} (h : bestOf f l = some x) (hl : l.Pairwise Seat.before) :
    x ∈ l ∧ ∀ y ∈ l, f x < f y ∨ f x = f y ∧ Seat.before x y := by
  obtain ⟨a, b, rfl, ha, hb⟩ := bestOf_first h
  obtain ⟨-, hx, -⟩ := List.pairwise_append.1 hl
  obtain ⟨hbefore, -⟩ := List.pairwise_cons.1 hx
  refine ⟨by simp, fun y hy => ?_⟩
  rcases List.mem_append.1 hy with hy | hy
  · exact .inl (ha y hy)
  · rcases List.mem_cons.1 hy with rfl | hy
    · exact .inr ⟨rfl, .inr ⟨rfl, Nat.le_refl _⟩⟩
    · rcases Nat.lt_or_eq_of_le (hb y hy) with hlt | heq
      · exact .inl hlt
      · exact .inr ⟨heq, hbefore y hy⟩

/-- R41: every seat of a candidate is FREE. -/
theorem candidate_free {rows : List (List Cell)} {g : Grid} {zone : Option Zone} {rule : Bool} {n row first : Nat}
    (h : (row, first) ∈ candidates rows g zone rule n) : ∀ y ∈ runSeats row first n, Grid.at g y = some .free := by
  obtain ⟨i, -, h⟩ := List.mem_flatMap.1 h
  obtain ⟨b, -, h⟩ := List.mem_flatMap.1 h
  obtain ⟨f, hf, he⟩ := List.mem_map.1 h
  cases he
  simp only [blockCandidates, List.mem_filter, Bool.and_eq_true, List.all_eq_true, searchable, Grid.freeAt, beq_iff_eq] at hf
  obtain ⟨-, hall, -⟩ := hf
  exact fun y hy => ((hall y hy).2).1

/-- R43: the lines of the block that a search holds. -/
def blockLines (row first n : Nat) (types : List TicketType) : List SeatLine :=
  types.zipIdx.filterMap (fun y => if y.2 < n then some ⟨row, first + y.2, y.1, none⟩ else none)

theorem zip_range' (row first n k : Nat) (types : List TicketType) :
    (((List.range' k n).map (fun j => (row, first + j))).zip types).map (fun y => SeatLine.mk y.1.1 y.1.2 y.2 none)
      = (types.zipIdx k).filterMap (fun y => if y.2 < k + n then some ⟨row, first + y.2, y.1, none⟩ else none) := by
  induction types generalizing k n with
  | nil => simp
  | cons t types ih =>
    cases n with
    | zero =>
      simp only [List.range'_zero, List.map_nil, List.zip_nil_left]
      refine (List.filterMap_eq_nil_iff.2 fun y hy => ?_).symm
      rw [if_neg (by
        have := List.le_snd_of_mem_zipIdx hy
        omega)]
    | succ n =>
      rw [List.range'_succ, List.map_cons, List.zip_cons_cons, List.map_cons, ih, List.zipIdx_cons, List.filterMap_cons,
        if_pos (by simp)]
      have harg : k + 1 + n = k + (n + 1) := by omega
      simp only [harg]

theorem blockLines_eq (row first n : Nat) (types : List TicketType) :
    ((runSeats row first n).zip types).map (fun y => SeatLine.mk y.1.1 y.1.2 y.2 none) = blockLines row first n types := by
  have h := zip_range' row first n 0 types
  rw [← List.range_eq_range', Nat.zero_add] at h
  exact h

theorem mem_blockLines {row first n : Nat} {types : List TicketType} {y : Seat} : y ∈ lineSeats (blockLines row first n types)
    ↔ y.1 = row ∧ first ≤ y.2 ∧ y.2 < first + min n types.length := by
  simp only [lineSeats, blockLines, List.mem_map, List.mem_filterMap]
  constructor
  · rintro ⟨l, ⟨⟨t, i⟩, hi, hl⟩, rfl⟩
    obtain ⟨-, hlt, -⟩ := List.mem_zipIdx hi
    split at hl
    · next hin =>
      cases hl
      dsimp only at hin ⊢
      omega
    · cases hl
  · rintro ⟨hrow, hlo, hhi⟩
    have hi : y.2 - first < types.length := by omega
    refine ⟨⟨row, first + (y.2 - first), types[y.2 - first], none⟩, ⟨(types[y.2 - first], y.2 - first), ?_, ?_⟩, ?_⟩
    · rw [List.mem_iff_getElem]
      exact ⟨y.2 - first, by simpa using hi, by simp⟩
    · rw [if_pos (by dsimp only; omega)]
    · obtain ⟨a, b⟩ := y
      simp only at hrow hlo ⊢
      subst hrow
      rw [Nat.add_sub_cancel' hlo]

theorem length_blockLines (row first n : Nat) (types : List TicketType) :
    (blockLines row first n types).length = min n types.length := by
  rw [← blockLines_eq]
  simp [runSeats]

-- ## House seats (R47, R48)

theorem Grid.at_flip (a b : SeatState) (xs : List Seat) (hnd : xs.Nodup) (g : Grid) (y : Seat) : Grid.at (Grid.flip g a b xs) y
    = if y ∈ xs ∧ Grid.at g y = some a then some b else Grid.at g y := by
  induction xs generalizing g with
  | nil => simp [Grid.flip]
  | cons x xs ih =>
    obtain ⟨hx, hnd⟩ := List.nodup_cons.1 hnd
    have hstep : Grid.flip g a b (x :: xs) = Grid.flip (if Grid.at g x = some a then Grid.put g x b else g) a b xs := rfl
    rw [hstep, ih hnd]
    by_cases hxa : Grid.at g x = some a
    · rw [if_pos hxa, Grid.at_put]
      by_cases hyx : y = x
      · subst hyx
        simp [hx, hxa]
      · simp [hyx]
    · rw [if_neg hxa]
      by_cases hyx : y = x
      · subst hyx
        simp [hxa]
      · simp [hyx]

-- ## The form of a HOLD_BEST (R41)

theorem readZoneFilter_eq_none {b : Byte} (h : ¬ within 1 5 b.toNat) : readZoneFilter b = none := by
  unfold readZoneFilter within at *
  split <;> [omega; omega; omega; omega; omega; rfl]

theorem readTicketType_companion {b : Byte} : readTicketType b = some .companion ↔ b.toNat = 4 := by
  unfold readTicketType
  split <;> simp_all

theorem bestForm_of {count filter override : Byte} {types : List Byte} {z : Option Zone} {ts : List TicketType} {o : Bool}
    (hz : readZoneFilter filter = some z) (hts : readAll readTicketType types = some ts) (ho : readFlag override = some o)
    (hcount : within 1 10 count.toNat) (hlen : ts.length = count.toNat) (hno : TicketType.companion ∉ ts) :
    bestForm count filter types override = some (z, ts, o) := by
  obtain ⟨hlo, hhi⟩ := hcount
  simp only [bestForm, hz, hts, ho]
  rw [if_pos ⟨hlo, hhi, hlen, by simpa using hno⟩]

/-- R41: the form of a HOLD_BEST, byte by byte. -/
def BestFormed (count filter override : Byte) (types : List Byte) : Prop :=
  within 1 10 count.toNat ∧ within 1 5 filter.toNat ∧ types.length = count.toNat
    ∧ (∀ y ∈ types, within 1 3 y.toNat) ∧ override.toNat ≤ 1

theorem bestForm_of_formed {count filter override : Byte} {types : List Byte} (h : BestFormed count filter override types) :
    ∃ p, bestForm count filter types override = some p := by
  obtain ⟨hcount, ⟨hflo, hfhi⟩, hlen, htypes, hover⟩ := h
  obtain ⟨z, hz⟩ : ∃ z, readZoneFilter filter = some z := by
    have hcases : filter.toNat = 1 ∨ filter.toNat = 2 ∨ filter.toNat = 3 ∨ filter.toNat = 4 ∨ filter.toNat = 5 := by omega
    unfold readZoneFilter
    rcases hcases with e | e | e | e | e <;> (rw [e]; exact ⟨_, rfl⟩)
  have hread : ∀ y ∈ types, ∃ t, readTicketType y = some t ∧ t ≠ .companion := fun y hy => by
    obtain ⟨hlo, hhi⟩ := htypes y hy
    obtain ⟨t, ht⟩ := readTicketType_of (b := y) ⟨hlo, by omega⟩
    refine ⟨t, ht, ?_⟩
    rintro rfl
    have := readTicketType_companion.1 ht
    omega
  obtain ⟨ts, hts, hno⟩ : ∃ ts, readAll readTicketType types = some ts ∧ TicketType.companion ∉ ts := by
    clear hlen htypes
    induction types with
    | nil => exact ⟨[], rfl, by simp⟩
    | cons y types ih =>
      obtain ⟨t, ht, hne⟩ := hread y (by simp)
      obtain ⟨ts, hts, hno⟩ := ih fun z hz => hread z (by simp [hz])
      exact ⟨t :: ts, by simp [readAll, ht, hts], by simp [hno, Ne.symm hne]⟩
  exact ⟨_, bestForm_of hz hts (readFlag_of_le hover) hcount ((readAll_length hts).trans hlen) hno⟩

theorem bestForm_eq_none {count filter override : Byte} {types : List Byte} (h : ¬ BestFormed count filter override types) :
    bestForm count filter types override = none := by
  unfold bestForm
  split
  · next z ts o hz hts ho =>
    refine if_neg ?_
    rintro ⟨hlo, hhi, hlen, hno⟩
    have hfilter : within 1 5 filter.toNat := by
      by_contra hf
      rw [readZoneFilter_eq_none hf] at hz
      cases hz
    have hover : override.toNat ≤ 1 := by
      by_contra hf
      rw [readFlag_eq_none (Nat.lt_of_not_le hf)] at ho
      cases ho
    refine h ⟨⟨hlo, hhi⟩, hfilter, (readAll_length hts).symm.trans hlen, fun y hy => ?_, hover⟩
    have hfour : within 1 4 y.toNat := by
      by_contra hf
      rw [readAll_eq_none hy (readTicketType_eq_none hf)] at hts
      cases hts
    have hne : y.toNat ≠ 4 := fun e => by
      have hmem : readTicketType y ∈ ts.map some := readAll_eq_some.1 hts ▸ List.mem_map_of_mem hy
      rw [readTicketType_companion.2 e] at hmem
      simp only [List.mem_map, Option.some.injEq, exists_eq_right] at hmem
      simp [hmem] at hno
    obtain ⟨h1, h4⟩ := hfour
    exact ⟨h1, by omega⟩
  · rfl

end Sys2Proof.Machine
end

section
/-! PROOFS. The seat requests carried out, and refused (O30). -/

namespace Sys2Proof.Machine

-- ## HOLD_BEST (R41)

section
variable {who : Owner} {r : Reply} {slot : Byte} {ref : BitVec 16} {count filter override : Byte} {types : List Byte}
  {s : State} {z : Option Zone} {ts : List TicketType} {o : Bool} {x : Reach}

/-- R41: a HOLD_BEST whose form stands, judged by checks 1 and 2 of R37. -/
theorem runHoldBest_reaches {p : Option Zone × List TicketType × Bool} (hform : bestForm count filter types override = some p)
    (hx : s.reach who slot ref = some x) : runHoldBest who r slot ref count filter types override s
      = if x.basket.state ≠ .opened then answer r .wrongState [] s
        else if !x.screening.holdsFor who then answer r .closed [] s
        else if 10 < x.basket.lines.length + count.toNat then answer r .limit [] s
        else { s with engine := { s.engine with
          search := some ⟨who, r, x.slot, ref.toNat, count.toNat, p.1, p.2.1, p.2.2⟩ } } := by
  simp only [runHoldBest, hform, hx]

end

-- ## The end of a search (R42, R43)

section
variable {q : Search} {s : State} {x : Reach}

theorem runSearchEnd_none {found : List Seat}
    (hx : s.reach q.who (BitVec.ofNat 8 q.slot.val) (BitVec.ofNat 16 q.ref) = some x) (hopen : x.basket.state = .opened)
    (hfound : candidates x.rows x.screening.seats q.zone (orphanApplies x.header q.who q.override) q.count = found)
    (hnone : found = []) : runSearchEnd q s
      = answer q.reply .noBlock (bytes1 (longestRun x.rows x.screening.seats q.zone)) s := by
  subst hnone
  simp only [runSearchEnd, hx, hfound, bestOf]
  rw [if_neg (by simp [hopen])]

theorem runSearchEnd_some {row first : Nat}
    (hx : s.reach q.who (BitVec.ofNat 8 q.slot.val) (BitVec.ofNat 16 q.ref) = some x) (hopen : x.basket.state = .opened)
    (hbest : bestOf (score x.header q.count) (candidates x.rows x.screening.seats q.zone
      (orphanApplies x.header q.who q.override) q.count) = some (row, first)) : runSearchEnd q s
      = answer q.reply .ok ([BitVec.ofNat 8 row, BitVec.ofNat 8 first] ++ bytes1 q.count
          ++ bytes1 (x.basket.lines.length + min q.count q.types.length))
        (holdFor x.slot x.basket x.screening (blockLines row first q.count q.types) s) := by
  simp only [runSearchEnd, hx, hbest, blockLines_eq, heldLines_holdFor, length_blockLines]
  rw [if_neg (by simp [hopen])]
  rfl

end

/-- What ends a search, on a state with nothing due. -/
theorem search_ends {s : State} {q : Search} (hq : s.quiet = true) (hs : s.engine.search = some q) :
    exec .bestBlockSearchEnd s
      = .next (latchAlarms (runSearchEnd q { s with engine := { s.engine with search := none } })) := by
  rw [exec_bestBlockSearchEnd, command_quiet hq]
  simp only [hs]

theorem search_answers {s : State} {q : Search} {result : Result} {fields : List Byte} (hq : s.quiet = true)
    (hs : s.engine.search = some q)
    (hrun : runSearchEnd q { s with engine := { s.engine with search := none } }
      = answer q.reply result fields { s with engine := { s.engine with search := none } }) :
    ∃ t, Carries .bestBlockSearchEnd { s.engine with search := none } []
      (on q.reply.link.line [answerFrame q.reply result fields]) s t :=
  ⟨_, carries_says ((search_ends hq hs).trans (by rw [hrun])) (by simp) (says_answer ..) (by simp) (by simp)⟩

-- ## BLOCK_SEATS and UNBLOCK_SEATS (R47, R48)

section
variable {a b : SeatState} {r : Reply} {id : BitVec 16} {refs : List SeatRef} {s : State} {c : Screening} {h : PlanHeader}
  {rows : List (List Cell)}

theorem runFlip_malformed (hform : ¬ (within 1 40 refs.length ∧ (refs.map seatOf).Nodup)) :
    runFlip a b r id refs s = answer r .badRequest [] s := by
  rw [← List.length_map (f := seatOf)] at hform
  exact if_pos (form_fails_iff.2 hform)

theorem runFlip_formed (hlen : within 1 40 refs.length) (hnd : (refs.map seatOf).Nodup) : runFlip a b r id refs s
    = match s.reachScreening id with
      | none => answer r .noSuch [] s
      | some (c, _, rows) =>
        if !(refs.map seatOf).all (fun y => (kindAt rows y).isSome) then answer r .badRequest [] s
        else
          match firstFailing (fun y => Grid.at c.seats y == some a || Grid.at c.seats y == some b) (refs.map seatOf) with
          | some taken => answer r .taken taken s
          | none => answer r .ok (Grid.counts (Grid.flip c.seats a b (refs.map seatOf))).bytes
              (s.putSeats c.id (Grid.flip c.seats a b (refs.map seatOf))) := by
  have hform : ¬ ((refs.map seatOf).length = 0 ∨ 40 < (refs.map seatOf).length ∨ (!distinct (refs.map seatOf)) = true) := fun h =>
    form_fails_iff.1 h ⟨by rw [List.length_map]; exact hlen, hnd⟩
  rw [runFlip]
  dsimp only
  rw [if_neg hform] <;> rfl

theorem all_seatKinds {refs : List SeatRef} {rows : List (List Cell)} (h : ∀ y ∈ refs, kindAt rows (seatOf y) ≠ none) :
    (refs.map seatOf).all (fun y => (kindAt rows y).isSome) = true := by
  simpa [List.all_eq_true, Option.isSome_iff_ne_none] using h

end

/-- What BLOCK_SEATS and UNBLOCK_SEATS do: of the FREE and the BLOCKED seats, those in `a` become `b`. -/
theorem flips {i : Instr} {a b : SeatState} {x : Entry} {e : Engine} {r : Reply} {id : BitVec 16} {refs : List SeatRef}
    {s : State} {run : Entry → Option (State → State)} (hab : a = .free ∧ b = .blocked ∨ a = .blocked ∧ b = .free)
    (h : Takes x e s) (hx : ∀ s, exec i s = command (arbitrate run) s) (hf : run x = some (runFlip a b r id refs)) :
    let refused (result : Result) (fields : List Byte) : Prop :=
      ∃ t, Carries i e [] (on r.link.line [answerFrame r result fields]) s t
    (¬ within 1 40 refs.length ∨ ¬ (refs.map seatOf).Nodup → refused .badRequest [])
    ∧ (within 1 40 refs.length → (refs.map seatOf).Nodup →
      ((∀ c, s.screening id.toNat = some c → s.plan c.plan = none) → refused .noSuch [])
      ∧ ∀ c h rows, s.screening id.toNat = some c → s.plan c.plan = some (h, rows) →
        let fits (y : SeatRef) := Grid.at c.seats (seatOf y) = some .free ∨ Grid.at c.seats (seatOf y) = some .blocked
        ((∃ y ∈ refs, kindAt rows (seatOf y) = none) → refused .badRequest [])
        ∧ ((∀ y ∈ refs, kindAt rows (seatOf y) ≠ none ∧ fits y) →
          ∃ t c', Carries i e [.screenings]
              (on r.link.line [answerFrame r .ok (bytes2 c'.counts.free ++ bytes2 c'.counts.held
                ++ bytes2 c'.counts.sold ++ bytes2 c'.counts.blocked)]) s t
            ∧ SeatsOnly id.toNat s t ∧ t.screening id.toNat = some c'
            ∧ (∀ y, Grid.at c'.seats y = if y ∈ refs.map seatOf then some b else Grid.at c.seats y))
        ∧ ((∀ y ∈ refs, kindAt rows (seatOf y) ≠ none) → ∀ before y later, refs = before ++ y :: later →
          (∀ z ∈ before, fits z) → ¬ fits y → refused .taken [y.row, y.pos])) := by
  intro refused
  have refuse {result : Result} {fields : List Byte}
      (hrun : runFlip a b r id refs { s with engine := e } = answer r result fields { s with engine := e }) :
      refused result fields := h.answers_only hx hf hrun
  have fits_iff : ∀ (g : Grid) (y : Seat), (Grid.at g y == some a || Grid.at g y == some b) = true
      ↔ Grid.at g y = some .free ∨ Grid.at g y = some .blocked := fun g y => by
    simp only [Bool.or_eq_true, beq_iff_eq]
    rcases hab with ⟨rfl, rfl⟩ | ⟨rfl, rfl⟩
    · rfl
    · exact or_comm
  refine ⟨fun hform => refuse (runFlip_malformed ?_), fun hlen hnd => ⟨fun hno => refuse ?_, fun c hd rows hc hp => ?_⟩⟩
  · rintro ⟨hlen, hnd⟩
    exact hform.elim (fun hno => hno hlen) (fun hno => hno hnd)
  · have hreach : State.reachScreening { s with engine := e } id = none := reachScreening_eq_none hno
    rw [runFlip_formed hlen hnd, hreach]
  · intro fits
    have hreach : State.reachScreening { s with engine := e } id = some (c, hd, rows) := reachScreening_of hc hp
    have hid := screening_id hc
    refine ⟨fun hgap => refuse ?_, fun hall => ?_, fun hkinds before y later hsplit hbefore hy => refuse ?_⟩
    · obtain ⟨y, hy, hk⟩ := hgap
      have hno : (!(refs.map seatOf).all (fun y => (kindAt rows y).isSome)) = true := by
        rw [Bool.not_eq_true', List.all_eq_false]
        exact ⟨seatOf y, List.mem_map_of_mem hy, by simp [hk]⟩
      rw [runFlip_formed hlen hnd, hreach]
      simp only [hno, if_true]
    · let F : Grid → Grid := fun _ => Grid.flip c.seats a b (refs.map seatOf)
      have hfail : firstFailing (fun y => Grid.at c.seats y == some a || Grid.at c.seats y == some b) (refs.map seatOf) = none :=
        firstFailing_eq_none fun z hz => by
          obtain ⟨y, hy, rfl⟩ := List.mem_map.1 hz
          exact (fits_iff c.seats (seatOf y)).2 (hall y hy).2
      have hrun : runFlip a b r id refs { s with engine := e } = answer r .ok (Grid.counts (F c.seats)).bytes
          (State.putSeats c.id (F c.seats) { s with engine := e }) := by
        rw [runFlip_formed hlen hnd, hreach]
        simp only [all_seatKinds fun y hy => (hall y hy).1, Bool.not_true, Bool.false_eq_true, if_false, hfail]
        rfl
      have honly : Only [.screenings] { s with engine := e } (State.putSeats c.id (F c.seats) { s with engine := e }) := by
        simp [State.putSeats]
      obtain ⟨t, ht, hscreenings⟩ := h.carries (bs := [.screenings])
        (out := on r.link.line [answerFrame r .ok (Grid.counts (F c.seats)).bytes])
        (Q := fun t => t.screenings = (s.onScreening id.toNat (fun c => c.withSeats (F c.seats))).screenings)
        hx hf hrun ((only_answer (by simp)).2 (honly.mono (by simp))) ((says_answer ..).after_only honly (by simp)) (by simp)
        (by simp) fun t ht => (ht .screenings (by simp)).trans (by rw [← hid]; rfl)
      refine ⟨t, c.withSeats (F c.seats), ?_, seatsOnly_of (F := F) hscreenings,
        screening_of_onScreening (F := F) hscreenings hc, fun y => ?_⟩
      · exact ht
      · show Grid.at (Grid.flip c.seats a b (refs.map seatOf)) y = _
        rw [Grid.at_flip a b _ hnd]
        by_cases hy : y ∈ refs.map seatOf
        · obtain ⟨z, hz, rfl⟩ := List.mem_map.1 hy
          have hfit := (hall z hz).2
          rcases hab with ⟨rfl, rfl⟩ | ⟨rfl, rfl⟩
          · rcases hfit with e | e <;> simp [e, hy]
          · rcases hfit with e | e <;> simp [e, hy]
        · simp [hy]
    · have hfail : firstFailing (fun y => Grid.at c.seats y == some a || Grid.at c.seats y == some b) (refs.map seatOf)
          = some [y.row, y.pos] := by
        rw [hsplit]
        refine firstFailing_split (fun z hz => (fits_iff c.seats (seatOf z)).2 (hbefore z hz)) ?_
        rw [← Bool.not_eq_true, fits_iff]
        exact hy
      rw [runFlip_formed hlen hnd, hreach]
      simp only [all_seatKinds hkinds, Bool.not_true, Bool.false_eq_true, if_false, hfail]

-- ## Checks 5 and 6 of R37

/-- A WHEELCHAIR cell listed for a station, without the plan's flag. -/
def LacksFlag (who : Owner) (x : Reach) (xs : List (Seat × TicketType)) : Prop :=
  ∃ y ∈ xs, kindAt x.rows y.1 = some .wheelchair ∧ x.header.kioskWheelchair = false ∧ who ≠ .office

/-- A COMPANION ticket on no COMPANION_SEAT cell, or without a WHEELCHAIR cell among the lines and the seats listed. -/
def LacksWheelchair (x : Reach) (xs : List (Seat × TicketType)) : Prop :=
  ∃ y ∈ xs, y.2 = .companion ∧ (kindAt x.rows y.1 ≠ some .companionSeat
    ∨ ∀ z, z ∈ xs.map Prod.fst ∨ z ∈ lineSeats x.basket.lines → kindAt x.rows z ≠ some .wheelchair)

theorem all_wheelchairOk {who : Owner} {x : Reach} {xs : List (Seat × TicketType)} :
    (xs.map Prod.fst).all (wheelchairOk x.header x.rows who) = true ↔ ¬ LacksFlag who x xs := by
  rw [List.all_map, List.all_eq_true]
  constructor
  · rintro hall ⟨y, hy, hk, hflag, hwho⟩
    rcases wheelchairOk_iff.1 (hall y hy) hk with e | e
    · rw [hflag] at e
      cases e
    · exact hwho e
  · intro hno y hy
    refine wheelchairOk_iff.2 fun hk => ?_
    by_contra hbad
    rw [not_or] at hbad
    exact hno ⟨y, hy, hk, by simpa using hbad.1, hbad.2⟩

theorem all_companionOk {x : Reach} {xs : List (Seat × TicketType)} :
    xs.all (fun y => companionOk x.rows (lineSeats x.basket.lines ++ xs.map Prod.fst) y.1 y.2) = true
      ↔ ¬ LacksWheelchair x xs := by
  rw [List.all_eq_true]
  constructor
  · rintro hall ⟨y, hy, hty, hbad⟩
    obtain ⟨hkind, w, hw, hwk⟩ := companionOk_iff.1 (hall y hy) hty
    rcases hbad with hbad | hbad
    · exact hbad hkind
    · exact hbad w (List.mem_append.1 hw).symm hwk
  · intro hno y hy
    refine companionOk_iff.2 fun hty => ?_
    by_contra hbad
    refine hno ⟨y, hy, hty, ?_⟩
    by_cases hkind : kindAt x.rows y.1 = some .companionSeat
    · exact .inr fun w hw hwk => hbad ⟨hkind, w, List.mem_append.2 hw.symm, hwk⟩
    · exact .inl hkind

/-- Settles O30: the checks in their order, and the seats that change where all of them pass. -/
theorem seatRequestsChangeTheSeats : Obligations.SeatRequestsChangeTheSeats := by
  unfold Obligations.SeatRequestsChangeTheSeats
  refine ⟨?_, ?_, ?_, ?_, ?_, ?_, ?_⟩
  · intro who r slot ref wishes override e s xs o x h hread hflag hlen hnd hx hopen hholds hroom hseats horphan
    have hreach : State.reach { s with engine := e } who slot ref = some x := hx
    have hfind : xs.find? (fun y => Grid.at x.screening.seats y.1 != some .free) = none :=
      List.find?_eq_none.2 fun y hy => by simp [(hseats y hy).1]
    have hwheel : (xs.map Prod.fst).all (wheelchairOk x.header x.rows who) = true := by
      rw [List.all_map, List.all_eq_true]
      exact fun y hy => wheelchairOk_iff.2 (hseats y hy).2.2.1
    have hcompanion : xs.all (fun y => companionOk x.rows (lineSeats x.basket.lines ++ xs.map Prod.fst) y.1 y.2) = true := by
      rw [List.all_eq_true]
      refine fun y hy => companionOk_iff.2 fun hc => ?_
      obtain ⟨hkind, w, hw, hwk⟩ := (hseats y hy).2.2.2 hc
      exact ⟨hkind, w, List.mem_append.2 hw.symm, hwk⟩
    have hnoOrphan : (orphanApplies x.header who o && orphaned x.rows x.screening.seats (xs.map Prod.fst)) = false := by
      rw [Bool.and_eq_false_iff]
      exact horphan
    obtain ⟨t, c, ht, hb, hso, hc, hg⟩ := h.reseats (i := .holdSeats) (fun _ => rfl) rfl (reach_screening hx) (by
      rw [runHoldSeats_reaches (holdForm_of hread hflag hlen hnd) hreach hopen hholds hroom fun y hy => (hseats y hy).2.1]
      simp only [hfind, hwheel, hcompanion, hnoOrphan, Bool.not_true, Bool.false_eq_true, if_false]
      rw [heldLines_holdFor, List.length_map, holdFor_eq])
    refine ⟨t, c, ht, hb, hso, hc, fun y => ?_⟩
    rw [hg, holdFor_seats, lineSeats_wishes]
    by_cases hy : y ∈ xs.map Prod.fst
    · obtain ⟨w, hw, rfl⟩ := List.mem_map.1 hy
      rw [if_pos hy, if_pos hy, (hseats w hw).1, Option.map_some]
    · rw [if_neg hy, if_neg hy]
  · intro who r slot ref wishes override e s h refused
    have refuse {result : Result} {fields : List Byte}
        (hrun : runHoldSeats who r slot ref wishes override { s with engine := e } = answer r result fields { s with engine := e }) :
        refused result fields := h.answers_only (fun _ => rfl) rfl hrun
    refine ⟨fun hform => refuse ?_, fun xs o hread hflag hlen hnd => ?_⟩
    · rw [runHoldSeats, holdForm_eq_none hform]
    · have hform := holdForm_of hread hflag hlen hnd
      refine ⟨fun hnone => refuse ?_, fun x hx => ?_⟩
      · have hreach : State.reach { s with engine := e } who slot ref = none := hnone
        simp only [runHoldSeats, hform, hreach]
      · have hreach : State.reach { s with engine := e } who slot ref = some x := hx
        by_cases hopen : x.basket.state = .opened
        · rw [if_neg (by simpa using hopen)]
          have hpass : ¬ x.basket.state ≠ .opened := by simpa using hopen
          cases hholds : x.screening.holdsFor who with
          | false =>
            rw [if_pos rfl]
            refine refuse ?_
            simp only [runHoldSeats, hform, hreach, if_neg hpass, hholds, Bool.not_false, if_true]
          | true =>
            rw [if_neg (by simp)]
            by_cases hroom : 10 < x.basket.lines.length + xs.length
            · rw [if_pos hroom]
              refine refuse ?_
              simp only [runHoldSeats, hform, hreach, if_neg hpass, hholds, Bool.not_true, Bool.false_eq_true, if_false, if_pos hroom]
            · rw [if_neg hroom]
              by_cases hgap : ∃ y ∈ xs, kindAt x.rows y.1 = none
              · rw [if_pos hgap]
                obtain ⟨y, hy, hk⟩ := hgap
                have hno : (!(xs.map Prod.fst).all (fun y => (kindAt x.rows y).isSome)) = true := by
                  rw [Bool.not_eq_true', List.all_eq_false]
                  exact ⟨y.1, List.mem_map_of_mem hy, by simp [hk]⟩
                refine refuse ?_
                simp only [runHoldSeats, hform, hreach, if_neg hpass, hholds, Bool.not_true, Bool.false_eq_true, if_false, if_neg hroom,
                  hno, if_true]
              · rw [if_neg hgap]
                have hkinds : ∀ y ∈ xs, kindAt x.rows y.1 ≠ none := fun y hy hk => hgap ⟨y, hy, hk⟩
                have hrun := runHoldSeats_reaches (r := r) (s := { s with engine := e }) hform hreach hopen hholds
                  (Nat.le_of_not_lt hroom) hkinds
                cases hfind : xs.find? (fun y => Grid.at x.screening.seats y.1 != some .free) with
                | some y =>
                  refine refuse (hrun.trans ?_)
                  rw [hfind]
                | none =>
                  rw [hfind] at hrun
                  dsimp only
                  refine ⟨fun hbad => refuse (hrun.trans ?_), fun hnw hnc happlies horphan => refuse (hrun.trans ?_)⟩
                  · by_cases hw : LacksFlag who x xs
                    · exact if_pos (by rw [Bool.not_eq_true', ← Bool.not_eq_true, all_wheelchairOk]; exact not_not.2 hw)
                    · have hc : LacksWheelchair x xs := hbad.resolve_left hw
                      dsimp only
                      rw [if_neg (by rw [all_wheelchairOk.2 hw]; simp)]
                      exact if_pos (by rw [Bool.not_eq_true', ← Bool.not_eq_true, all_companionOk]; exact not_not.2 hc)
                  · have hwheel := all_wheelchairOk.2 hnw
                    have hcomp := all_companionOk.2 hnc
                    simp only [hwheel, hcomp, happlies, horphan, Bool.not_true, Bool.false_eq_true, if_false, Bool.and_self, if_true]
        · rw [if_pos hopen]
          refine refuse ?_
          simp only [runHoldSeats, hform, hreach, if_pos hopen]
  · intro who r slot ref count filter types override e s z ts o x h hz hts ho hcount hlen hno hx hopen hholds hroom
    have hreach : State.reach { s with engine := e } who slot ref = some x := hx
    have hrun : runHoldBest who r slot ref count filter types override { s with engine := e } = { s with engine := { e with
        search := some ⟨who, r, x.slot, ref.toNat, count.toNat, z, ts, o⟩ } } := by
      rw [runHoldBest_reaches (bestForm_of hz hts ho hcount hlen hno) hreach, if_neg (by simp [hopen]), if_neg (by simp [hholds]),
        if_neg (Nat.not_lt.2 hroom)]
    obtain ⟨hq, hsearch, htake⟩ := h
    refine ⟨_, ?_, effect_silent (bs := [.engine]) (u := { s with engine := { e with
        search := some ⟨who, r, x.slot, ref.toNat, count.toNat, z, ts, o⟩ } }) ((engine_only _ s).mono (by simp)) (by simp) (by simp),
      latchAlarms_engine _⟩
    have hx : ∀ s, exec .holdBest s = command (arbitrate (fun e => match e with
        | .request who r (.holdBest slot ref n z ts o) => some (runHoldBest who r slot ref n z ts o)
        | _ => none)) s := fun _ => rfl
    rw [hx, arbitrate_takes ⟨hq, hsearch, htake⟩ (f := runHoldBest who r slot ref count filter types override) rfl, hrun]
  · intro who r slot ref count filter types override e s h refused formed
    have refuse {result : Result} (hrun : runHoldBest who r slot ref count filter types override { s with engine := e }
        = answer r result [] { s with engine := e }) : refused result := h.answers_only (fun _ => rfl) rfl hrun
    refine ⟨fun hform => refuse ?_, fun hform hnone => refuse ?_, fun hform x hx => ?_⟩
    · rw [runHoldBest, bestForm_eq_none hform]
    · obtain ⟨p, hp⟩ := bestForm_of_formed hform
      have hreach : State.reach { s with engine := e } who slot ref = none := hnone
      simp only [runHoldBest, hp, hreach]
    · obtain ⟨p, hp⟩ := bestForm_of_formed hform
      have hreach : State.reach { s with engine := e } who slot ref = some x := hx
      have hrun := runHoldBest_reaches (r := r) hp hreach
      refine ⟨fun hstate => refuse (hrun.trans (if_pos hstate)), fun hopen hholds => refuse (hrun.trans ?_),
        fun hopen hholds hroom => refuse (hrun.trans ?_)⟩
      · rw [if_neg (by simp [hopen]), if_pos (by simp [hholds])]
      · rw [if_neg (by simp [hopen]), if_neg (by simp [hholds]), if_pos hroom]
  · intro s q hq hs ends found
    refine ⟨fun hnone => search_answers hq hs ?_, fun x hx hstate => search_answers hq hs ?_⟩
    · have hreach : State.reach { s with engine := { s.engine with search := none } } q.who (BitVec.ofNat 8 q.slot.val)
          (BitVec.ofNat 16 q.ref) = none := hnone
      simp only [runSearchEnd, hreach]
    · have hreach : State.reach { s with engine := { s.engine with search := none } } q.who (BitVec.ofNat 8 q.slot.val)
          (BitVec.ofNat 16 q.ref) = some x := hx
      simp only [runSearchEnd, hreach]
      rw [if_pos hstate]
  · intro s q x hq hs hx hopen found
    have hreach : State.reach { s with engine := { s.engine with search := none } } q.who (BitVec.ofNat 8 q.slot.val)
        (BitVec.ofNat 16 q.ref) = some x := hx
    refine ⟨fun hnone => search_answers hq hs (runSearchEnd_none hreach hopen rfl hnone), fun hne => ?_⟩
    obtain ⟨⟨row, first⟩, hbest⟩ : ∃ y, bestOf (score x.header q.count) found = some y := by
      cases hb : bestOf (score x.header q.count) found with
      | none => exact absurd (bestOf_eq_none.1 hb) hne
      | some y => exact ⟨y, rfl⟩
    obtain ⟨hmem, hwins⟩ := bestOf_wins hbest (candidates_ordered _ _ _ _ _)
    let g := (blockLines row first q.count q.types).foldl (fun g l => Grid.put g (l.row, l.pos) (.held x.slot.val x.basket.ref))
      x.screening.seats
    have hrun := runSearchEnd_some (s := { s with engine := { s.engine with search := none } }) hreach hopen hbest
    have honly : Only [.screenings, .baskets] { s with engine := { s.engine with search := none } }
        (holdFor x.slot x.basket x.screening (blockLines row first q.count q.types)
          { s with engine := { s.engine with search := none } }) := by simp
    have hcarries := carries_says (s := s) (bs := [.screenings, .baskets]) ((search_ends hq hs).trans (by rw [hrun]))
      ((only_answer (by simp)).2 (honly.mono (by simp))) ((says_answer ..).after_only honly (by simp)) (by simp) (by simp)
    have hafter : Only [.lines, .latched, .choice] (holdFor x.slot x.basket x.screening (blockLines row first q.count q.types)
        { s with engine := { s.engine with search := none } }) _ :=
      ((only_answer (by simp)).2 (Only.refl _ _)).trans (latched_same (answer q.reply .ok ([BitVec.ofNat 8 row, BitVec.ofNat 8 first]
        ++ bytes1 q.count ++ bytes1 (x.basket.lines.length + min q.count q.types.length)) _))
    have hscreenings := (hafter .screenings (by simp) : _ = (s.onScreening x.screening.id (fun c => c.withSeats g)).screenings)
    refine ⟨_, x.screening.withSeats g, row, first, hmem, hwins, hcarries, hafter .baskets (by simp),
      seatsOnly_of (F := fun _ => g) hscreenings, screening_of_onScreening (F := fun _ => g) hscreenings (reach_screening hx), fun y => ?_⟩
    show Grid.at g y = _
    rw [holdFor_seats]
    by_cases hy : y ∈ lineSeats (blockLines row first q.count q.types)
    · have hspan := mem_blockLines.1 hy
      have hfree : Grid.at x.screening.seats y = some .free := by
        refine candidate_free hmem y ?_
        obtain ⟨hrow, hlo, hhi⟩ := hspan
        rw [runSeats, List.mem_map]
        refine ⟨y.2 - first, List.mem_range.2 (by omega), ?_⟩
        rw [Nat.add_sub_cancel' hlo, ← hrow]
      rw [if_pos hy, if_pos hspan, hfree, Option.map_some]
    · rw [if_neg hy, if_neg fun h => hy (mem_blockLines.2 h)]
  · intro who r id refs e s block h
    cases block with
    | true => exact flips (i := .blockSeats) (.inl ⟨rfl, rfl⟩) h (fun _ => rfl) rfl
    | false => exact flips (i := .unblockSeats) (.inr ⟨rfl, rfl⟩) h (fun _ => rfl) rfl

end Sys2Proof.Machine
end

section
/-! PROOFS. Jobs: their elements composed and chained, their queueing, and the outcome of a job request (R139 to R143). -/

namespace Sys2Proof.Machine

-- ## A chain written (R139)

/-- R139: element by element, what a written chain holds. -/
theorem writeChain_get (sale : Nat) {numbers : List (Fin 256)} {plans : List ElementPlan} (pool : Tab (Option Element) 256)
    (hnd : numbers.Nodup) {a : Nat} {e : Fin 256} {p : ElementPlan} (he : numbers[a]? = some e) (hp : plans[a]? = some p) :
    (writeChain sale numbers plans pool).get e
      = some ⟨p.kind, sale, p.index, numbers[a + 1]?, a + 1 == plans.length, .waiting, p.text⟩ := by
  induction numbers generalizing plans pool a with
  | nil => simp at he
  | cons x xs ih =>
    cases plans with
    | nil => simp at hp
    | cons q qs =>
      obtain ⟨hx, hnd⟩ := List.nodup_cons.1 hnd
      rw [writeChain]
      cases a with
      | zero =>
        simp only [List.getElem?_cons_zero, Option.some.injEq] at he hp
        subst he hp
        rw [writeChain_get_of_not_mem _ _ _ hx, Tab.get_set_self]
        cases xs <;> cases qs <;> simp
      | succ a =>
        rw [List.getElem?_cons_succ] at he hp
        rw [ih _ hnd he hp]
        simp

-- ## A job composed (R139, R140, section 12.5)

theorem length_composeJob (s : State) (sale : Sale) (makeUp : MakeUp) : (composeJob s sale makeUp).length = makeUp.count := by
  cases makeUp with
  | first t v r => cases r <;> simp [composeJob, MakeUp.count, Nat.add_assoc]
  | reprint ts => simp [composeJob, MakeUp.count]

/-- R139: a ticket's text, from the records as they stand. -/
theorem ticketText_eq {s : State} {sale : Sale} {c : Screening} {h : PlanHeader} {rows : List (List Cell)} {i : Nat} {u : Ticket}
    (hc : s.screening sale.screening = some c) (hp : s.plan c.plan = some (h, rows)) (hu : sale.tickets[i]? = some u) :
    ticketText s sale i = [.name h.name, .start c.start c.cls, .seat u.row u.pos u.type, .price u.price,
      .saleTicket sale.number i] := by
  simp only [ticketText, hc, hu, hp, Option.elim_some]

theorem receiptText_eq (sale : Sale) : receiptText sale = [.figure 1 sale.subtotal, .figure 2 sale.discount,
    .figure 3 sale.voucherTotal, .figure 4 sale.total, .figure 5 sale.tax,
    sale.payment.elim .settled (fun x => .payment x.line.val x.payRef x.code)] := by
  unfold receiptText
  cases sale.payment <;> rfl

/-- The tickets of a job that prints a sale for the first time, and its slips, by their places. -/
theorem composeJob_first (s : State) (sale : Sale) (t v : Nat) (r : Bool) : composeJob s sale (.first t v r)
    = (List.range t).map (fun i => (⟨.ticket, i, ticketText s sale i⟩ : ElementPlan))
      ++ ((List.range v).map (fun i => (⟨.voucherSlip, i, match sale.vouchers[i]? with
          | some u => [.voucherCode u.code, .comboKind (u.kind.val + 1)]
          | none => []⟩ : ElementPlan))
        ++ (if r then [⟨.receipt, 0, receiptText sale⟩] else [])) := by
  simp only [composeJob, List.append_assoc] <;> rfl

theorem composed (s : State) (sale : Sale) (makeUp : MakeUp) : Composed s sale makeUp (composeJob s sale makeUp) := by
  have hticket : ∀ i, ∀ c h rows, s.screening sale.screening = some c → s.plan c.plan = some (h, rows) →
      ∀ u ∈ sale.tickets[i]?, ticketText s sale i = [.name h.name, .start c.start c.cls, .seat u.row u.pos u.type,
        .price u.price, .saleTicket sale.number i] := fun i c h rows hc hp u hu => ticketText_eq hc hp hu
  cases makeUp with
  | reprint ts =>
    refine ⟨length_composeJob s sale (.reprint ts), fun a i hi p hp => ?_⟩
    have hp' : (composeJob s sale (.reprint ts))[a]? = some p := hp
    have hi' : ts[a]? = some i := hi
    rw [composeJob, List.getElem?_map, hi', Option.map_some, Option.some.injEq] at hp'
    subst hp'
    exact ⟨rfl, rfl, hticket i⟩
  | first t v r =>
    refine ⟨length_composeJob s sale (.first t v r), fun i hi p hp => ?_, fun i hi p hp => ?_, fun p hp => ?_⟩
    · have hp' : (composeJob s sale (.first t v r))[i]? = some p := hp
      rw [composeJob_first, List.getElem?_append_left (by simpa using hi), List.getElem?_map, List.getElem?_range hi, Option.map_some,
        Option.some.injEq] at hp'
      subst hp'
      exact ⟨rfl, rfl, hticket i⟩
    · have hp' : (composeJob s sale (.first t v r))[t + i]? = some p := hp
      rw [composeJob_first, List.getElem?_append_right (by simp), List.length_map, List.length_range, Nat.add_sub_cancel_left,
        List.getElem?_append_left (by simpa using hi), List.getElem?_map, List.getElem?_range hi, Option.map_some,
        Option.some.injEq] at hp'
      subst hp'
      refine ⟨rfl, rfl, fun w hw => ?_⟩
      have hw' : sale.vouchers[i]? = some w := hw
      simp only [hw']
    · have hp' : (composeJob s sale (.first t v r))[t + v]? = some p := hp
      rw [composeJob_first, List.getElem?_append_right (by simp), List.length_map, List.length_range, Nat.add_sub_cancel_left,
        List.getElem?_append_right (by simp), List.length_map, List.length_range, Nat.sub_self] at hp'
      cases r with
      | false => simp at hp'
      | true =>
        simp only [if_true, List.getElem?_cons_zero, Option.some.injEq] at hp'
        rw [← hp', receiptText_eq]

/-- A job is composed from the sale's record, and from the name, the start and the class of its screening. -/
theorem Composed.congr {s s' : State} {k : Sale} {makeUp : MakeUp} {plans : List ElementPlan} (h : Composed s k makeUp plans)
    (hs : ∀ c' hd rows, s'.screening k.screening = some c' → s'.plan c'.plan = some (hd, rows) →
      ∃ c, s.screening k.screening = some c ∧ s.plan c.plan = some (hd, rows) ∧ c.start = c'.start ∧ c.cls = c'.cls) :
    Composed s' k makeUp plans := by
  have hticket : ∀ {i : Nat} {p : ElementPlan}, (p.kind = .ticket ∧ p.index = i
      ∧ ∀ c h rows, s.screening k.screening = some c → s.plan c.plan = some (h, rows) → ∀ u ∈ k.tickets[i]?,
        p.text = [.name h.name, .start c.start c.cls, .seat u.row u.pos u.type, .price u.price, .saleTicket k.number i]) →
      p.kind = .ticket ∧ p.index = i
      ∧ ∀ c h rows, s'.screening k.screening = some c → s'.plan c.plan = some (h, rows) → ∀ u ∈ k.tickets[i]?,
        p.text = [.name h.name, .start c.start c.cls, .seat u.row u.pos u.type, .price u.price, .saleTicket k.number i] := by
    rintro i p ⟨hkind, hindex, htext⟩
    refine ⟨hkind, hindex, fun c' hd rows hc' hp' u hu => ?_⟩
    obtain ⟨c, hc, hp, hstart, hcls⟩ := hs c' hd rows hc' hp'
    rw [htext c hd rows hc hp u hu, hstart, hcls]
  cases makeUp with
  | reprint ts =>
    obtain ⟨hlen, hall⟩ := h
    exact ⟨hlen, fun a i hi p hp => hticket (hall a i hi p hp)⟩
  | first t v r =>
    obtain ⟨hlen, htickets, hrest⟩ := h
    exact ⟨hlen, fun i hi p hp => hticket (htickets i hi p hp), hrest⟩

-- ## A job queued (R139 to R143)

theorem freeElements_isNone {s : State} {e : Fin 256} : e ∈ s.freeElements ↔ s.print.pool.get e = none := by
  simp [State.freeElements]

/-- R139: the elements that a job takes, which ones being open. -/
structure Chooses (s : State) (n : Nat) (numbers : List (Fin 256)) : Prop where
  length : numbers.length = n
  nodup : numbers.Nodup
  free : ∀ e ∈ numbers, s.print.pool.get e = none

theorem chooses {s : State} {n : Nat} (h : n ≤ s.freeElements.length) :
    Chooses s n ((arrangeFrom s.choice n s.freeElements).take n) where
  length := by rw [List.length_take, (arrangeFrom_perm _ _ _).length_eq, Nat.min_eq_left h]
  nodup := (arrangeFrom_nodup _ _ _ (freeElements_nodup s)).sublist (List.take_sublist _ _)
  free := fun _ he => freeElements_isNone.1 ((arrangeFrom_perm _ _ _).subset (List.mem_of_mem_take he))

/-- R139, R141: a job's chain, as its elements are written. -/
theorem holds_writeChain {s : State} {numbers : List (Fin 256)} {plans : List ElementPlan} {number : Nat} {job : Job}
    (h : Chooses s plans.length numbers) (hfirst : numbers.head? = some job.first) :
    job.chain (writeChain number numbers plans s.print.pool) = numbers
      ∧ job.holds number plans (writeChain number numbers plans s.print.pool) := by
  have hle : numbers.length ≤ 256 := by simpa using h.nodup.length_le_card
  have hchain : job.chain (writeChain number numbers plans s.print.pool) = numbers :=
    chainFrom_writeChain number s.print.pool h.nodup h.length.le hle hfirst
  refine ⟨hchain, ?_⟩
  rw [Job.holds, hchain]
  exact ⟨h.length, fun a e he p hp => writeChain_get number s.print.pool h.nodup he hp⟩

/-- A job of `plans` on the elements `numbers` joined to the queue of its line. -/
def queuedJob (i : Fin 8) (sale : Sale) (origin : Owner) (makeUp : MakeUp) (first : Fin 256) (numbers : List (Fin 256))
    (plans : List ElementPlan) (s : State) : State :=
  { s with print := { s.print with
      pool := writeChain sale.number numbers plans s.print.pool
      lines := s.print.lines.set i { s.ticketLine i with
        queue := (s.ticketLine i).queue ++ [⟨sale.number, origin, first, plans.length, makeUp.reprints, false⟩] } } }

theorem makeJob_nil {i : Fin 8} {sale : Sale} {origin : Owner} {makeUp : MakeUp} {s : State} (h : makeUp.count = 0) :
    makeJob i sale origin makeUp s = s := by
  have hlen := length_composeJob s sale makeUp
  rw [h] at hlen
  simp only [makeJob, hlen, List.take_zero]

theorem makeJob_eq {i : Fin 8} {sale : Sale} {origin : Owner} {makeUp : MakeUp} {s : State} {first : Fin 256} {rest : List (Fin 256)}
    (h : (arrangeFrom s.choice makeUp.count s.freeElements).take makeUp.count = first :: rest) :
    ∃ c, makeJob i sale origin makeUp s
      = wake i { queuedJob i sale origin makeUp first (first :: rest) (composeJob s sale makeUp) s with choice := c } := by
  have hreprint : (match makeUp with
      | .first _ _ _ => false
      | .reprint _ => true) = makeUp.reprints := by
    cases makeUp <;> rfl
  unfold makeJob
  simp only [length_composeJob, h]
  by_cases hone : s.freeElements.length ≤ 1
  · refine ⟨s.choice, ?_⟩
    rw [if_pos hone]
    cases makeUp <;> simp only [queuedJob, length_composeJob] <;> rfl
  · refine ⟨s.choice + makeUp.count, ?_⟩
    rw [if_neg hone]
    cases makeUp <;> simp only [queuedJob, length_composeJob] <;> rfl

theorem wake_still {i : Fin 8} {s : State} (h : (s.ticketLine i).state ≠ .idle) : wake i s = s := by
  unfold wake
  dsimp only
  rw [if_neg]
  rintro ⟨hs, -⟩
  exact h hs

theorem queuedJob_ticketLine (i k : Fin 8) (sale : Sale) (origin : Owner) (makeUp : MakeUp) (first : Fin 256)
    (numbers : List (Fin 256)) (plans : List ElementPlan) (s : State) :
    (queuedJob i sale origin makeUp first numbers plans s).ticketLine k = if i = k then { s.ticketLine i with
        queue := (s.ticketLine i).queue ++ [⟨sale.number, origin, first, plans.length, makeUp.reprints, false⟩] }
      else s.ticketLine k := Tab.get_set ..

/-- R139 to R143: a job that fits takes its elements and joins its line. -/
theorem makeJob_queued {i : Fin 8} {sale : Sale} {origin : Owner} {makeUp : MakeUp} {s : State}
    (hfree : makeUp.count ≤ s.freeElements.length) (hsome : makeUp.count ≠ 0) :
    ∃ told, Says told s (makeJob i sale origin makeUp s) ∧ ∀ t : State, t.print = (makeJob i sale origin makeUp s).print →
      Queued i sale origin makeUp.reprints (composeJob s sale makeUp) told s t := by
  have hchosen := chooses hfree
  generalize hn : (arrangeFrom s.choice makeUp.count s.freeElements).take makeUp.count = numbers at hchosen
  cases numbers with
  | nil => exact absurd hchosen.length.symm hsome
  | cons first rest =>
    obtain ⟨c, hmake⟩ := makeJob_eq (i := i) (sale := sale) (origin := origin) hn
    rw [hmake]
    rw [← length_composeJob s sale makeUp] at hchosen
    generalize composeJob s sale makeUp = plans at hchosen hmake ⊢
    let u := queuedJob i sale origin makeUp first (first :: rest) plans s
    have hu : Only [.print, .choice] s { u with choice := c } := by
      intro b hb
      cases b <;> simp_all [Block.same, u, queuedJob]
    let job : Job := ⟨sale.number, origin, first, plans.length, makeUp.reprints, false⟩
    obtain ⟨hchain, hholds⟩ := holds_writeChain (number := sale.number) (job := job) hchosen rfl
    have queued {told : Line → List Frame} {t : State} (hidle : (s.ticketLine i).state = .idle → Joins i told u t)
        (hbusy : (s.ticketLine i).state ≠ .idle → told = nothing ∧ t.print = u.print) :
        Queued i sale origin makeUp.reprints plans told s t :=
      ⟨first, writeChain sale.number (first :: rest) plans s.print.pool, hholds, by rw [hchain]; exact hchosen.nodup,
        fun e he => hchosen.free e (hchain ▸ he), fun e he => writeChain_get_of_not_mem _ _ _ (hchain ▸ he), hidle, hbusy⟩
    have hline : (State.ticketLine { u with choice := c } i) = { s.ticketLine i with queue := (s.ticketLine i).queue ++ [job] } := by
      have := queuedJob_ticketLine i i sale origin makeUp first (first :: rest) plans s
      rw [if_pos rfl] at this
      exact this
    by_cases hidle : (s.ticketLine i).state = .idle
    · obtain ⟨told, hsays, hjoins⟩ := wake_joins (n := i) (u := { u with choice := c }) (by rw [hline]; exact hidle) (by simp [hline])
      exact ⟨told, hsays.after_only hu (by simp), fun t ht => queued (fun _ => (hjoins t ht).congr rfl rfl)
        fun hno => absurd hidle hno⟩
    · rw [wake_still (i := i) (s := { u with choice := c }) (by rw [hline]; exact hidle)]
      exact ⟨nothing, .of_only hu (by simp), fun t ht => queued (fun hyes => absurd hyes hidle) fun _ => ⟨rfl, ht⟩⟩

-- ## A job request (R140)

theorem jobFits_iff {s : State} {i : Fin 8} {n : Nat} : s.jobFits i n = true
    ↔ n ≤ (indices 256).countP (fun e => (s.print.pool.get e).isNone) ∧ (s.ticketLine i).queue.length < 6 := by
  rw [State.jobFits, Bool.and_eq_true, decide_eq_true_eq, decide_eq_true_eq, State.freeElements, List.countP_eq_length_filter]
  rfl

theorem requestJob_requested (i : Fin 8) (sale : Sale) (origin : Owner) (makeUp : MakeUp) (s : State) :
    ∃ told, Says told s (requestJob i sale origin makeUp s).2
      ∧ ∀ t : State, t.print = (requestJob i sale origin makeUp s).2.print →
        Requested i sale origin makeUp (requestJob i sale origin makeUp s).1 told s t := by
  by_cases hnil : s.print.waiting = []
  · by_cases hfits : s.jobFits i makeUp.count = true
    · have hr : requestJob i sale origin makeUp s = (.queued, makeJob i sale origin makeUp s) := by
        simp only [requestJob, hnil, if_true, hfits]
      have hfits' := jobFits_iff.1 hfits
      rw [hr]
      have made {told : Line → List Frame} {t : State} (hzero : makeUp.count = 0 → told = nothing ∧ t.print = s.print)
          (hsome : makeUp.count ≠ 0 → Queued i sale origin makeUp.reprints (composeJob s sale makeUp) told s t) :
          Requested i sale origin makeUp .queued told s t :=
        ⟨⟨fun _ => ⟨hnil, hfits'⟩, fun _ => rfl⟩, ⟨fun h => (by cases h), fun h => by simp [hnil] at h⟩, fun h => (by cases h),
          fun h => (by cases h), fun _ => hzero, fun _ h => ⟨_, composed s sale makeUp, length_composeJob s sale makeUp, hsome h⟩⟩
      by_cases hzero : makeUp.count = 0
      · rw [makeJob_nil hzero]
        exact ⟨nothing, .refl s, fun t ht => made (fun _ => ⟨rfl, ht⟩) fun h => absurd hzero h⟩
      · have hfree : makeUp.count ≤ s.freeElements.length := by
          rw [State.jobFits, Bool.and_eq_true, decide_eq_true_eq] at hfits
          exact hfits.1
        obtain ⟨told, hsays, hq⟩ := makeJob_queued (i := i) (sale := sale) (origin := origin) hfree hzero
        exact ⟨told, hsays, fun t ht => made (fun h => absurd h hzero) fun _ => hq t ht⟩
    · have hr : requestJob i sale origin makeUp s = (.waiting, { s with print := { s.print with
          waiting := s.print.waiting ++ [⟨sale.number, i, origin, makeUp, makeUp.count⟩] } }) := by
        simp only [requestJob, hnil, if_true, if_neg hfits]
      rw [hr]
      refine ⟨nothing, .of_only (bs := [.print]) (by simp) (by simp), fun t ht => ⟨⟨fun h => (by cases h), fun h => ?_⟩,
        ⟨fun h => (by cases h), fun h => by simp [hnil] at h⟩, fun h => (by cases h), fun _ => ⟨rfl, ht⟩, fun h => (by cases h),
        fun h => (by cases h)⟩⟩
      exact absurd (jobFits_iff.2 h.2) hfits
  · by_cases hroom : s.print.waiting.length < 16
    · have hr : requestJob i sale origin makeUp s = (.waiting, { s with print := { s.print with
          waiting := s.print.waiting ++ [⟨sale.number, i, origin, makeUp, makeUp.count⟩] } }) := by
        simp only [requestJob, if_neg hnil]
        exact if_pos hroom
      rw [hr]
      exact ⟨nothing, .of_only (bs := [.print]) (by simp) (by simp), fun t ht => ⟨⟨fun h => (by cases h), fun h => absurd h.1 hnil⟩,
        ⟨fun h => (by cases h), fun h => absurd hroom (Nat.not_lt.2 h)⟩, fun h => (by cases h), fun _ => ⟨rfl, ht⟩, fun h => (by cases h),
        fun h => (by cases h)⟩⟩
    · have hr : requestJob i sale origin makeUp s = (.notQueued, s) := by
        simp only [requestJob, if_neg hnil]
        exact if_neg hroom
      rw [hr]
      exact ⟨nothing, .refl s, fun t ht => ⟨⟨fun h => (by cases h), fun h => absurd h.1 hnil⟩,
        ⟨fun _ => Nat.le_of_not_lt hroom, fun _ => rfl⟩, fun _ => ⟨rfl, ht⟩, fun h => (by cases h), fun h => (by cases h),
        fun h => (by cases h)⟩⟩

end Sys2Proof.Machine
end

section
/-! PROOFS. The statement about the completion of a commit (R51, R115 to R117, R127). -/

namespace Sys2Proof.Machine

-- ## Seats sold (R51, R53)

theorem Grid.at_sell_other (g : Grid) (n : Nat) {seats : List Seat} {y : Seat} (h : y ∉ seats) :
    Grid.at (Grid.sell g n seats) y = Grid.at g y := by
  unfold Grid.sell
  refine List.foldlRecOn (motive := fun w => Grid.at w y = Grid.at g y) _ _ rfl fun w hw x hx => ?_
  rw [Grid.at_put, if_neg, hw]
  rintro rfl
  exact h (List.fst_mem_of_mem_zipIdx hx)

theorem Grid.at_foldl_sold (n : Nat) {seats : List Seat} (hn : seats.Nodup) (k : Nat) (g : Grid) (i : Nat) (h : i < seats.length) :
    Grid.at ((seats.zipIdx k).foldl (fun g x => Grid.put g x.1 (.sold n x.2)) g) seats[i]
      = (Grid.at g seats[i]).map (fun _ => .sold n (k + i)) := by
  induction seats generalizing k g i with
  | nil => cases h
  | cons x seats ih =>
    obtain ⟨hx, hn⟩ := List.nodup_cons.1 hn
    rw [List.zipIdx_cons, List.foldl_cons]
    cases i with
    | zero =>
      rw [List.getElem_cons_zero]
      refine List.foldlRecOn (motive := fun w => Grid.at w x = (Grid.at g x).map (fun _ => .sold n (k + 0))) _ _ ?_
        fun w hw z hz => ?_
      · rw [Grid.at_put, if_pos rfl, Nat.add_zero]
      · rw [Grid.at_put, if_neg, hw]
        rintro rfl
        exact hx (List.fst_mem_of_mem_zipIdx hz)
    | succ i =>
      have hi : i < seats.length := Nat.lt_of_succ_lt_succ h
      rw [List.getElem_cons_succ, ih hn (k + 1) _ i hi, Grid.at_put, if_neg, Nat.add_right_comm, Nat.add_assoc]
      intro (e : seats[i] = x)
      exact hx (e ▸ List.getElem_mem hi)

/-- Every listed seat takes its place in the list. -/
theorem Grid.at_sell (g : Grid) (n : Nat) {seats : List Seat} (hn : seats.Nodup) {i : Nat} (h : i < seats.length)
    (hat : Grid.at g seats[i] ≠ none) : Grid.at (Grid.sell g n seats) seats[i] = some (.sold n i) := by
  obtain ⟨v, hv⟩ := Option.ne_none_iff_exists'.1 hat
  rw [Grid.sell, Grid.at_foldl_sold n hn 0 g i h, hv, Option.map_some, Nat.zero_add]

-- ## Codes (R127)

theorem voucherCode_div (day n : Nat) : voucherCode day n / 10 = day * 1000000 + n := by
  rw [voucherCode]
  dsimp only
  rw [Nat.mul_comm, Nat.mul_add_div (by norm_num), Nat.div_eq_of_lt (Nat.mod_lt _ (by norm_num)), Nat.add_zero]

/-- Where the table holds no more vouchers than it may, each serial taken is the first whose code is free. -/
theorem takeSerials_codes (day : Nat) {vs : List Voucher} (hlen : vs.length ≤ 4096) (n serial : Nat) :
    CodesFrom day (fun x => ∃ v ∈ vs, v.code = x) serial
      (takeSerials day (fun c => vs.any (fun v => v.code == c)) n serial).1
      (takeSerials day (fun c => vs.any (fun v => v.code == c)) n serial).2 := by
  induction n generalizing serial with
  | zero => exact rfl
  | succ n ih =>
    have hfree := firstFree_free (held := fun k => vs.any (fun v => v.code == formCode day k)) (top := 999999)
      (fuel := Config.maxVouchers + 1) (c := serial) (l := vs.map (fun v => v.code / 10 - day * 1000000)) (fun k hk => by
        obtain ⟨v, hv, e⟩ := List.any_eq_true.1 hk
        refine List.mem_map.2 ⟨v, hv, ?_⟩
        rw [beq_iff_eq.1 e, formCode_eq, voucherCode_div, Nat.add_sub_cancel_left]) (by
        rw [List.length_map, Config.maxVouchers]
        omega) (by rw [Config.maxVouchers]; norm_num)
    refine ⟨_, ?_, formCode_eq day _, ih _⟩
    have hfirst := firstFree_firstFrom (held := fun k => vs.any (fun v => v.code == formCode day k)) hfree
    simpa only [formCode_eq, List.any_eq_true, beq_iff_eq] using hfirst

theorem length_takeSerials (day : Nat) (held : Nat → Bool) (n serial : Nat) : (takeSerials day held n serial).1.length = n := by
  induction n generalizing serial with
  | zero => rfl
  | succ n ih => exact congrArg (· + 1) (ih _)

-- ## Vouchers issued (step 2 of R115)

/-- What issuing a sale's vouchers makes of the voucher table. -/
structure Issued (n scr : Nat) (units : List (Fin 8 × Nat)) (made : List SaleVoucher) (s t : State) : Prop where
  drawn : made.map (fun v => (v.kind, v.price)) = units
  codes : s.vouchers.records.length ≤ 4096 → CodesFrom s.clock.day (fun x => ∃ v ∈ s.vouchers.records, v.code = x)
    s.vouchers.serial (made.map (·.code)) t.vouchers.serial
  records : t.vouchers.records = s.vouchers.records ++ made.map (fun v => ⟨v.code, v.kind, n, scr, v.price, .issued, none⟩)
  stock : ∀ kind, t.vouchers.stock.get kind = Stock.move .inBaskets .outstanding (made.countP (fun v => v.kind == kind))
    (s.vouchers.stock.get kind)

theorem moveEach_records (p q : Place) (vs : List Voucher) (s : State) : (moveEach p q vs s).vouchers.records = s.vouchers.records
    ∧ (moveEach p q vs s).vouchers.serial = s.vouchers.serial :=
  List.foldlRecOn (motive := fun w : State => w.vouchers.records = s.vouchers.records ∧ w.vouchers.serial = s.vouchers.serial)
    vs _ ⟨rfl, rfl⟩ fun w hw v _ => hw

theorem issueVouchers_issued (n scr : Nat) (units : List (Fin 8 × Nat)) (s : State) :
    Issued n scr units (issueVouchers n scr units s).1 s (issueVouchers n scr units s).2 := by
  have hlen := length_takeSerials s.clock.day (fun c => s.vouchers.records.any (fun u => u.code == c)) units.length
    s.vouchers.serial
  have hcodes (h : s.vouchers.records.length ≤ 4096) := takeSerials_codes s.clock.day h units.length s.vouchers.serial
  unfold issueVouchers
  dsimp only
  generalize takeSerials s.clock.day (fun c => s.vouchers.records.any (fun u => u.code == c)) units.length
    s.vouchers.serial = taken at hlen hcodes ⊢
  obtain ⟨codes, serial⟩ := taken
  have hcode : ((codes.zip units).map (fun x => SaleVoucher.mk x.1 x.2.1 x.2.2)).map (·.code) = codes := by
    rw [List.map_map]
    exact List.map_fst_zip hlen.le
  refine ⟨?_, fun h => ?_, ?_, fun kind => ?_⟩
  · rw [List.map_map]
    exact List.map_snd_zip hlen.ge
  · rw [(moveEach_records ..).2, hcode]
    exact hcodes h
  · rw [(moveEach_records ..).1]
  · rw [moveEach_stock _ _ (by decide), List.countP_map]
    rfl

theorem Issued.congr {n scr : Nat} {units : List (Fin 8 × Nat)} {made : List SaleVoucher} {s t s' t' : State}
    (h : Issued n scr units made s t) (hs : s'.vouchers = s.vouchers) (hc : s'.clock = s.clock)
    (ht : t'.vouchers = t.vouchers) : Issued n scr units made s' t' :=
  ⟨h.drawn, hs ▸ hc ▸ ht ▸ h.codes, hs ▸ ht ▸ h.records, hs ▸ ht ▸ h.stock⟩

/-- As many vouchers of a kind are made as its charges have units. -/
theorem Issued.count {n scr : Nat} {charges : List VoucherCharge} {made : List SaleVoucher} {s t : State}
    (h : Issued n scr (voucherUnits charges) made s t) (kind : Fin 8) : made.countP (fun v => v.kind == kind)
      = ((charges.filter (fun u => u.kind == kind)).map (fun u => u.bundleUnits + u.comboUnits)).sum := by
  have hmap : made.countP (fun v => v.kind == kind) = (made.map (fun v => (v.kind, v.price))).countP (fun x => x.1 == kind) :=
    (List.countP_map (f := fun v : SaleVoucher => (v.kind, v.price)) (p := fun x : Fin 8 × Nat => x.1 == kind)).symm
  rw [hmap, h.drawn, voucherUnits]
  clear h hmap
  induction charges with
  | nil => rfl
  | cons u us ih =>
    rw [List.flatMap_cons, List.countP_append, ih, List.countP_append, List.countP_replicate, List.countP_replicate,
      List.filter_cons]
    by_cases hu : u.kind = kind <;> simp [hu]

-- ## The last record of the sale table

theorem onSale_appended {s : State} {l : List Sale} {r : Sale} (h : s.sales.records = l ++ [r])
    (hl : ∀ x ∈ l, x.number ≠ r.number) (f : Sale → Sale) :
    (s.onSale r.number f).sales = { s.sales with records := l ++ [f r] } := by
  have hmap : l.map (fun x => if x.number = r.number then f x else x) = l :=
    (List.map_congr_left fun x hx => if_neg (hl x hx)).trans (List.map_id' l)
  rw [onSale_sales, h, List.map_append, List.map_cons, List.map_nil, if_pos rfl, hmap]

theorem sale_appended {s : State} {l : List Sale} {r : Sale} (h : s.sales.records = l ++ [r])
    (hl : ∀ x ∈ l, x.number ≠ r.number) : s.sale r.number = some r := by
  rw [State.sale, h, List.find?_append, List.find?_eq_none.2 fun x hx => by simpa using hl x hx]
  simp

theorem sale_eq_none {s : State} {n : Nat} (h : s.sale n = none) : ∀ x ∈ s.sales.records, x.number ≠ n := fun x hx => by
  simpa using List.find?_eq_none.1 h x hx

-- ## The record created (steps 1 and 2 of R115)

theorem recordSale_issued (b : Basket) (k : Commit) {s : State} (h : s.sale k.number = none) :
    ∃ made, Issued k.number b.screening (voucherUnits (b.tally.getD (Tally.none b.generation)).charges) made s (recordSale b k s)
      ∧ (recordSale b k s).sales = { released b s with
          records := s.sales.records ++ [{ commitRecord b k with vouchers := made }]
          commits := s.sales.commits.filter (fun x => x.number != k.number) } := by
  generalize hu : releaseReservation b { s with sales := { s.sales with
    records := s.sales.records ++ [commitRecord b k]
    commits := s.sales.commits.filter (fun x => x.number != k.number) } } = u
  have hus : Only [.sales] s u := hu ▸ ((only_releaseReservation (by simp)).2 ((only_sales (by simp)).2 (Only.refl _ s)))
  have hsales : u.sales = { released b s with
      records := s.sales.records ++ [commitRecord b k]
      commits := s.sales.commits.filter (fun x => x.number != k.number) } := by
    rw [← hu, releaseReservation_sales]
    unfold released
    split <;> rfl
  have hissued := issueVouchers_issued k.number b.screening (voucherUnits (b.tally.getD (Tally.none b.generation)).charges) u
  have hkept : (issueVouchers k.number b.screening (voucherUnits (b.tally.getD (Tally.none b.generation)).charges) u).2.sales
      = u.sales := ((only_issueVouchers (bs := [.vouchers]) (by simp)).2 (Only.refl _ u)) .sales (by simp)
  generalize hi : issueVouchers k.number b.screening (voucherUnits (b.tally.getD (Tally.none b.generation)).charges) u = x
    at hissued hkept
  have hr : recordSale b k s = x.2.onSale k.number (fun r => { r with vouchers := x.1 }) := by
    unfold recordSale
    dsimp only
    rw [hu, hi]
  rw [hr]
  refine ⟨x.1, hissued.congr (hus .vouchers (by simp)).symm (hus .clock (by simp)).symm (onSale_only _ _ _ .vouchers (by simp)),
    ?_⟩
  have happ := onSale_appended (s := x.2) (r := commitRecord b k) (l := s.sales.records) (by rw [hkept, hsales])
    (sale_eq_none h) (fun r => { r with vouchers := x.1 })
  rw [hkept, hsales] at happ
  exact happ

-- ## The job asked for (step 4 of R115)

/-- Whether a sale has a job does not enter its job. -/
theorem requestJob_jobLive (i : Fin 8) (r : Sale) (live : Bool) (origin : Owner) (makeUp : MakeUp) (s : State) :
    requestJob i { r with jobLive := live } origin makeUp s = requestJob i r origin makeUp s := rfl

/-- The make-up of a sale's first job. -/
def Sale.firstJob (r : Sale) : MakeUp := .first r.tickets.length r.vouchers.length (r.origin != .office)

theorem Sale.firstJob_eq (r : Sale) : r.firstJob = .first r.tickets.length r.vouchers.length (match r.origin with
    | .station _ => true
    | .office => false) := by
  rw [Sale.firstJob]
  cases r.origin <;> rfl

theorem commitJob_asks {s : State} {line : Option (Fin 8)} {l : List Sale} {r : Sale} (h : s.sales.records = l ++ [r])
    (hl : ∀ x ∈ l, x.number ≠ r.number) (hj : r.jobLive = false) :
    ∃ job o u, commitJob line r.number s = (o, u) ∧ Says job s u
      ∧ u.sales = { s.sales with records := l ++ [{ r with jobLive := decide (o ≠ .notQueued) }] }
      ∧ match line with
        | none => o = .notQueued ∧ job = nothing ∧ u.print = s.print
        | some i => ∀ t : State, t.print = u.print →
            Requested i { r with jobLive := decide (o ≠ .notQueued) } r.origin r.firstJob o job s t := by
  have hsale := sale_appended h hl
  have hself : { s.sales with records := l ++ [{ r with jobLive := false }] } = s.sales := by
    rw [← hj, ← h]
  cases line with
  | none => exact ⟨nothing, .notQueued, s, rfl, .refl s, hself.symm, rfl, rfl, rfl⟩
  | some i =>
    obtain ⟨job, hsays, hreq⟩ := requestJob_requested i { r with jobLive := decide ((requestJob i r r.origin r.firstJob s).1
      ≠ .notQueued) } r.origin r.firstJob s
    rw [requestJob_jobLive] at hsays hreq
    have hkept : (requestJob i r r.origin r.firstJob s).2.sales = s.sales :=
      ((only_requestJob (bs := [.print, .lines, .choice]) (by simp)).2 (Only.refl _ s)) .sales (by simp)
    have hcommit : commitJob (some i) r.number s = ((requestJob i r r.origin r.firstJob s).1,
        if (requestJob i r r.origin r.firstJob s).1 = .notQueued then (requestJob i r r.origin r.firstJob s).2
        else (requestJob i r r.origin r.firstJob s).2.onSale r.number (fun r => { r with jobLive := true })) := by
      unfold commitJob
      rw [hsale, Sale.firstJob_eq] <;> rfl
    generalize hx : requestJob i r r.origin r.firstJob s = x at hsays hreq hkept hcommit
    by_cases ho : x.1 = .notQueued
    · rw [if_pos ho] at hcommit
      refine ⟨job, x.1, x.2, hcommit, hsays, ?_, hreq⟩
      rw [hkept, decide_eq_false (not_not.2 ho)]
      exact hself.symm
    · rw [if_neg ho] at hcommit
      refine ⟨job, x.1, _, hcommit, hsays.then_only (onSale_only _ _ _) (by simp), ?_, fun t ht =>
        hreq t (ht.trans (onSale_only _ _ _ .print (by simp)))⟩
      rw [onSale_appended (s := x.2) (l := l) (r := r) (by rw [hkept, h]) hl, hkept, decide_eq_true ho]

-- ## The owner told (R117)

/-- The frames that tell the owner of the sale. -/
def saleFrames (s : State) (slot : Fin 16) (b : Basket) (r : Sale) (o : PrintOutcome) : Line → List Frame :=
  let codes := listBytes (fun (v : SaleVoucher) => codeBytes v.code) r.vouchers
  let answered (fields : List Byte) := b.waiter.elim nothing (fun w => on w.link.line [answerFrame w .ok fields])
  match b.owner with
  | .station _ => after
      (toOwner s b.owner (noticeFrame 0xE5 (bytes1 slot.val ++ bytes2 b.ref ++ bytes3 r.number
        ++ amountBytes r.total ++ amountBytes r.tax ++ bytes1 r.tickets.length ++ codes
        ++ [PrintOutcome.code o])))
      (answered (bytes3 r.number ++ [PrintOutcome.code o]))
  | .office => answered (bytes3 r.number ++ amountBytes r.total ++ amountBytes r.tax ++ codes
      ++ [PrintOutcome.code o])

/-- A request that waits is answered. -/
def answering (w : Option Reply) (fields : List Byte) (s : State) : State := w.elim s (fun w => answer w .ok fields s)

theorem answering_says (w : Option Reply) (fields : List Byte) (s : State) :
    Says (w.elim nothing (fun w => on w.link.line [answerFrame w .ok fields])) s (answering w fields s) := by
  cases w with
  | none => exact .refl s
  | some w => exact says_answer ..

theorem answering_sales (w : Option Reply) (fields : List Byte) (s : State) : (answering w fields s).sales = s.sales := by
  cases w with
  | none => rfl
  | some w => exact ((only_answer (bs := [.lines, .outstanding]) (by simp)).2 (Only.refl _ s)) .sales (by simp)

section
variable {b : Basket} (slot : Fin 16) (r : Sale) (o : PrintOutcome) (s : State)

theorem tellCommit_office (h : b.owner = .office) : tellCommit slot b r o s = answering b.waiter
    (bytes3 r.number ++ amountBytes r.total ++ amountBytes r.tax ++ listBytes (fun (v : SaleVoucher) => codeBytes v.code) r.vouchers
      ++ [o.code]) s := by
  unfold tellCommit
  rw [h]
  cases b.waiter <;> rfl

/-- SALE_DONE, and the sale a station's last. -/
def saleDone (b : Basket) (n : Fin 8) : State :=
  let u := notifyStation n 0xE5 (bytes1 slot.val ++ bytes2 b.ref ++ bytes3 r.number ++ amountBytes r.total
    ++ amountBytes r.tax ++ bytes1 r.tickets.length ++ listBytes (fun (v : SaleVoucher) => codeBytes v.code) r.vouchers
    ++ [o.code]) s
  { u with sales := { u.sales with last := u.sales.last.set n (some ⟨r.number, Config.reprintWindow⟩) } }

theorem tellCommit_station {n : Fin 8} (h : b.owner = .station n) : tellCommit slot b r o s = answering b.waiter
    (bytes3 r.number ++ [o.code]) (saleDone slot r o s b n) := by
  unfold tellCommit
  rw [h]
  cases b.waiter <;> rfl

theorem tellCommit_says (b : Basket) : Says (saleFrames s slot b r o) s (tellCommit slot b r o s) := by
  unfold saleFrames
  rcases h : b.owner with n | _
  · rw [tellCommit_station slot r o s h]
    exact ((says_notifyOwner (.station n) 0xE5 _ s).then_only (bs := [.sales]) ((only_sales (by simp)).2 (Only.refl _ _))
      (by simp)).trans (answering_says ..)
  · rw [tellCommit_office slot r o s h]
    exact answering_says ..

theorem tellCommit_sales (b : Basket) :
    (tellCommit slot b r o s).sales = { s.sales with last := (tellCommit slot b r o s).sales.last }
      ∧ ∀ st, (tellCommit slot b r o s).sales.last.get st
        = if b.owner = .station st then some ⟨r.number, 600⟩ else s.sales.last.get st := by
  rcases h : b.owner with n | _
  · rw [tellCommit_station slot r o s h, answering_sales, saleDone]
    have hkept (fields : List Byte) : (notifyStation n 0xE5 fields s).sales = s.sales :=
      ((only_notifyStation (bs := [.lines]) (by simp)).2 (Only.refl _ s)) .sales (by simp)
    refine ⟨by rw [hkept], fun st => ?_⟩
    dsimp only
    rw [hkept, Tab.get_set]
    simp only [Owner.station.injEq, Config.reprintWindow]
  · rw [tellCommit_office slot r o s h, answering_sales]
    exact ⟨rfl, fun st => (if_neg (by simp)).symm⟩

end

end Sys2Proof.Machine
end

section
/-! PROOFS. The completion of a commit as a whole (R115), and the statement about SELL_BASKET. -/

namespace Sys2Proof.Machine

-- ## A job request, seen from states that differ elsewhere

theorem Queued.congr {i : Fin 8} {k : Sale} {origin : Owner} {reprint : Bool} {plans : List ElementPlan}
    {told : Line → List Frame} {s t s' t' : State} (h : Queued i k origin reprint plans told s t)
    (hp : s'.print = s.print) (hpar : s'.params = s.params) (ht : t'.print = t.print) :
    Queued i k origin reprint plans told s' t' := by
  obtain ⟨first, pool, hholds, hnodup, hfree, hrest, hidle, hbusy⟩ := h
  have hline : s'.ticketLine i = s.ticketLine i := by rw [State.ticketLine, hp, State.ticketLine]
  refine ⟨first, pool, hholds, hnodup, ?_, ?_, fun hi => ?_, fun hi => ?_⟩
  · rw [hp]
    exact hfree
  · rw [hp]
    exact hrest
  · rw [hline] at hi
    obtain ⟨hquiet, hwaits, hover, hfits⟩ := (hidle hi).congr (u' := { s' with print := { s'.print with
      pool := pool, lines := s'.print.lines.set i { s'.ticketLine i with queue := (s'.ticketLine i).queue ++
        [⟨k.number, origin, first, plans.length, reprint, false⟩] } } }) (by dsimp only; rw [hp, hline]) hpar
    exact ⟨hquiet, ht ▸ hwaits, ht ▸ hover, ht ▸ hfits⟩
  · rw [hline] at hi
    obtain ⟨hnothing, hprint⟩ := hbusy hi
    exact ⟨hnothing, by rw [ht, hprint, hp, hline]⟩

theorem Requested.congr {i : Fin 8} {k : Sale} {origin : Owner} {makeUp : MakeUp} {o : PrintOutcome}
    {told : Line → List Frame} {s t s' t' : State} (h : Requested i k origin makeUp o told s t)
    (hp : s'.print = s.print) (hpar : s'.params = s.params)
    (hc : ∀ plans, Composed s k makeUp plans → Composed s' k makeUp plans) (ht : t'.print = t.print) :
    Requested i k origin makeUp o told s' t' := by
  have hline : s'.ticketLine i = s.ticketLine i := by rw [State.ticketLine, hp, State.ticketLine]
  obtain ⟨hfits, hfull, hno, hwaits, hempty, hmade⟩ := h
  refine ⟨?_, ?_, ?_, ?_, ?_, fun ho hz => ?_⟩
  · rw [hp, hline]
    exact hfits
  · rw [hp]
    exact hfull
  · rw [hp, ht]
    exact hno
  · rw [hp, ht]
    exact hwaits
  · rw [hp, ht]
    exact hempty
  · obtain ⟨plans, hcomposed, hlen, hqueued⟩ := hmade ho hz
    exact ⟨plans, hc plans hcomposed, hlen, hqueued.congr hp hpar ht⟩

theorem State.plan_of {s t : State} (h : t.plans = s.plans) (n : Nat) : t.plan n = s.plan n := by
  rw [State.plan, State.plan, h]

theorem Composed.of_screenings {s s' : State} {k : Sale} {makeUp : MakeUp} {plans : List ElementPlan}
    (h : Composed s k makeUp plans) (hs : s'.screenings = s.screenings) (hp : s'.plans = s.plans) :
    Composed s' k makeUp plans :=
  h.congr fun c _ _ hc hplan => ⟨c, by rw [State.screening] at hc ⊢; exact hs ▸ hc, State.plan_of hp _ ▸ hplan, rfl, rfl⟩

/-- A job's text does not depend on the seats of a screening. -/
theorem Composed.of_seats {s s' : State} {k : Sale} {makeUp : MakeUp} {plans : List ElementPlan}
    (h : Composed s k makeUp plans) {n : Nat} {F : Grid → Grid}
    (hs : s.screenings = s'.screenings.map (fun c => if c.id = n then c.withSeats (F c.seats) else c))
    (hp : s'.plans = s.plans) : Composed s' k makeUp plans := by
  have hfind : ∀ m, s.screening m = (s'.screening m).map (fun c => if c.id = n then c.withSeats (F c.seats) else c) := fun m => by
    rw [State.screening, State.screening, hs, List.find?_map]
    congr 2
    funext c
    dsimp only [Function.comp]
    split <;> rfl
  refine h.congr fun c hd rows hc hplan => ⟨_, by rw [hfind, hc, Option.map_some], ?_, ?_, ?_⟩
  · rw [← State.plan_of hp]
    split <;> exact hplan
  · split <;> rfl
  · split <;> rfl

-- ## A commit completed (R115)

theorem saleFrames_of_bindings {s u : State} (h : ∀ n, u.binding n = s.binding n) (slot : Fin 16) (b : Basket) (r : Sale)
    (o : PrintOutcome) : saleFrames u slot b r o = saleFrames s slot b r o := by
  unfold saleFrames
  cases b.owner with
  | office => rfl
  | station n =>
    dsimp only
    rw [toOwner_of_bindings h]

/-- The record of the sale of a commit, with its vouchers, and the outcome of its job request. -/
def soldRecord (b : Basket) (k : Commit) (made : List SaleVoucher) (o : PrintOutcome) : Sale :=
  { commitRecord b k with vouchers := made, jobLive := decide (o ≠ .notQueued) }

/-- What the completion of a commit, the seats being SOLD, makes of the state `u`. -/
structure Completes (slot : Fin 16) (b : Basket) (k : Commit) (prices job : Line → List Frame) (made : List SaleVoucher)
    (o : PrintOutcome) (u t : State) : Prop where
  sent : Says (after prices (after job (after (on .ol [noticeFrame 0xEA (soldRecord b k made o).bytes]) (saleFrames u slot b (soldRecord b k made o) o)))) u t
  defers : Defers u prices
  issued : Issued k.number b.screening (voucherUnits (b.tally.getD (Tally.none b.generation)).charges) made u t
  sales : t.sales = { released b u with
    records := u.sales.records ++ [soldRecord b k made o]
    commits := u.sales.commits.filter (fun x => x.number != k.number)
    last := t.sales.last }
  last : ∀ st, t.sales.last.get st = if b.owner = .station st then some ⟨k.number, 600⟩ else u.sales.last.get st
  asked : match u.commitLine b.owner k with
    | none => o = .notQueued ∧ job = nothing ∧ t.print = u.print
    | some i => Requested i (soldRecord b k made o) b.owner (soldRecord b k made o).firstJob o job u t
  leaves : LeavesSlot slot b u t

theorem completeCommit_completes (slot : Fin 16) (b : Basket) (k : Commit) {u : State} (h : u.sale k.number = none) :
    ∃ prices job made o, Completes slot b k prices job made o u (completeCommit slot b k u) := by
  obtain ⟨made, hissued, hrsales⟩ := recordSale_issued b k h
  have hrec : Only [.sales, .vouchers] u (recordSale b k u) := (only_recordSale (by simp)).2 (Only.refl _ u)
  obtain ⟨prices, hprices, hdefers⟩ := freeSlot_says slot b (recordSale b k u)
  have hfree := freeSlot_only slot b (recordSale b k u)
  have hleaves := freeSlot_leaves slot b (recordSale b k u)
  have hbinding := freeSlot_binding slot b (recordSale b k u)
  have hcomplete : completeCommit slot b k u
      = (match (commitJob ((freeSlot slot b (recordSale b k u)).commitLine b.owner k) k.number (freeSlot slot b (recordSale b k u))).2.sale
          k.number with
        | none => (commitJob ((freeSlot slot b (recordSale b k u)).commitLine b.owner k) k.number (freeSlot slot b (recordSale b k u))).2
        | some r => tellCommit slot b r (commitJob ((freeSlot slot b (recordSale b k u)).commitLine b.owner k) k.number
            (freeSlot slot b (recordSale b k u))).1 (notifyOffice 0xEA r.bytes
              (commitJob ((freeSlot slot b (recordSale b k u)).commitLine b.owner k) k.number (freeSlot slot b (recordSale b k u))).2)) :=
    rfl
  rw [hcomplete]
  generalize hv : freeSlot slot b (recordSale b k u) = v at hprices hfree hleaves hbinding ⊢
  have huv : Only [.sales, .vouchers, .baskets, .prices, .lines, .stations] u v := (hrec.mono (by simp)).trans (hfree.mono (by simp))
  have hvsales : v.sales = (recordSale b k u).sales := hfree .sales (by simp)
  have hstations : (recordSale b k u).ifc.stations = u.ifc.stations := hrec .stations (by simp)
  have hbind : ∀ m, v.binding m = u.binding m := fun m => (hbinding m).trans (by rw [State.binding, hstations, State.binding])
  have hline : v.commitLine b.owner k = u.commitLine b.owner k := by
    unfold State.commitLine
    cases b.owner with
    | office => rfl
    | station n => dsimp only; rw [hbind]
  rw [hline]
  obtain ⟨job, o, w, hw, hjob, hwsales', hasked'⟩ := commitJob_asks (s := v) (line := u.commitLine b.owner k)
    (l := u.sales.records) (r := { commitRecord b k with vouchers := made }) (by rw [hvsales, hrsales]) (sale_eq_none h) rfl
  have hw : commitJob (u.commitLine b.owner k) k.number v = (o, w) := hw
  have hwsales : w.sales = { v.sales with records := u.sales.records ++ [soldRecord b k made o] } := hwsales'
  have hasked : match u.commitLine b.owner k with
      | none => o = .notQueued ∧ job = nothing ∧ w.print = v.print
      | some i => ∀ t : State, t.print = w.print →
          Requested i (soldRecord b k made o) b.owner (soldRecord b k made o).firstJob o job v t := hasked'
  have hvw : Only [.print, .lines, .choice, .sales] v w := by
    have h := (only_commitJob (bs := [.print, .lines, .choice, .sales]) (l := u.commitLine b.owner k) (n := k.number) (by simp)).2
      (Only.refl _ v)
    rwa [hw] at h
  have hsale : w.sale k.number = some (soldRecord b k made o) :=
    sale_appended (s := w) (l := u.sales.records) (r := soldRecord b k made o) (by rw [hwsales]) (sale_eq_none h)
  rw [hw]
  dsimp only
  rw [hsale]
  dsimp only
  have hnumber : (soldRecord b k made o).number = k.number := rfl
  obtain ⟨htsales, hlast⟩ := tellCommit_sales slot (soldRecord b k made o) o (notifyOffice 0xEA (soldRecord b k made o).bytes w) b
  have hwt : Only [.lines, .sales, .outstanding, .restart] w
      (tellCommit slot b (soldRecord b k made o) o (notifyOffice 0xEA (soldRecord b k made o).bytes w)) := by simp
  have htell := tellCommit_says slot (soldRecord b k made o) o (notifyOffice 0xEA (soldRecord b k made o).bytes w) b
  have hnotice : (notifyOffice 0xEA (soldRecord b k made o).bytes w).sales = w.sales :=
    ((only_notifyOffice (bs := [.lines]) (by simp)).2 (Only.refl _ w)) .sales (by simp)
  generalize tellCommit slot b (soldRecord b k made o) o (notifyOffice 0xEA (soldRecord b k made o).bytes w) = t
    at htsales hlast hwt htell ⊢
  have hprint : t.print = w.print := hwt .print (by simp)
  refine ⟨prices, job, made, o, ?_, ?_, ?_, ?_, ?_, ?_, ?_⟩
  · have hsame : saleFrames (notifyOffice 0xEA (soldRecord b k made o).bytes w) slot b (soldRecord b k made o) o
        = saleFrames u slot b (soldRecord b k made o) o := by
      have hstations : (notifyOffice 0xEA (soldRecord b k made o).bytes w).ifc.stations = v.ifc.stations :=
        (((only_notifyOffice (by simp)).2 hvw : Only [.print, .lines, .choice, .sales] v _)) .stations (by simp)
      exact saleFrames_of_bindings (fun m => by rw [State.binding, hstations]; exact hbind m) ..
    rw [hsame] at htell
    exact (hprices.after_only hrec (by simp)).trans (hjob.trans ((says_notifyOffice ..).trans htell))
  · have hpbook : (recordSale b k u).prices = u.prices := hrec .prices (by simp)
    rw [Defers, hpbook] at hdefers
    exact hdefers
  · exact hissued.congr rfl rfl ((hwt .vouchers (by simp)).trans ((hvw .vouchers (by simp)).trans (hfree .vouchers (by simp))))
  · rw [htsales, hnotice, hwsales, hvsales, hrsales]
  · intro st
    have hkept : (released b u).last = u.sales.last := by
      unfold released
      split <;> rfl
    rw [hlast, hnotice, hwsales, hvsales, hrsales, hnumber, ← hkept]
  · cases hl : u.commitLine b.owner k with
    | none =>
      rw [hl] at hasked
      obtain ⟨ho, hj, hp⟩ := hasked
      exact ⟨ho, hj, hprint.trans (hp.trans (huv .print (by simp)))⟩
    | some i =>
      rw [hl] at hasked
      exact (hasked t hprint).congr (huv .print (by simp)).symm (huv .params (by simp)).symm
        (fun plans h => h.of_screenings (huv .screenings (by simp)).symm (huv .plans (by simp)).symm) rfl
  · exact hleaves.congr (bs := [.sales, .vouchers]) hrec.symm
      (cs := [.print, .lines, .choice, .sales, .outstanding, .restart]) ((hvw.mono (by simp)).trans (hwt.mono (by simp))) (by simp)

/-- Settles O33, by the completion of a commit, its seats sold first. -/
theorem commitsRecordTheSale : Obligations.CommitsRecordTheSale := by
  unfold Obligations.CommitsRecordTheSale
  intro slot ref scr n e s b k c g h hb hk hn hg hc hnodup hat
  have hnumber : k.number = n := by simpa using List.find?_some hk
  subst hnumber
  generalize hu : (State.onScreening scr (fun c => c.withSeats (Grid.sell c.seats k.number (lineSeats b.lines)))
    { s with engine := e }) = u
  have hus : Only [.engine, .screenings] s u := hu ▸ ((only_onScreening (by simp)).2 ((engine_only e s).mono (by simp)))
  have heu : Only [.screenings] { s with engine := e } u := hu ▸ ((only_onScreening (by simp)).2 (Only.refl _ _))
  have hun : u.sale k.number = none := by
    rw [State.sale, (hus .sales (by simp) : u.sales = s.sales)]
    exact hn
  obtain ⟨prices, job, made, o, hdone⟩ := completeCommit_completes slot b k hun
  have hrun : runSellBasket slot ref scr k.number { s with engine := e } = completeCommit slot b k u := by
    have hb' : State.basket { s with engine := e } slot ref = some b := hb
    have hk' : s.sales.commits.find? (fun x => x.number == k.number) = some k := hk
    unfold runSellBasket
    rw [hb']
    dsimp only
    rw [hk', ← hu]
  have honly : Only [.sales, .vouchers, .baskets, .prices, .lines, .stations, .print, .choice] u (completeCommit slot b k u) := by simp
  generalize completeCommit slot b k u = v at hdone hrun honly
  obtain ⟨t, ⟨hx, heffect, he⟩, ht⟩ := h.carries (i := .sellBasket)
    (bs := [.screenings, .baskets, .prices, .vouchers, .stations, .sales, .print]) (u := v)
    (Q := fun t => Only [.lines, .latched, .choice] v t) (fun _ => rfl) rfl hrun
    ((heu.mono (by simp)).trans (honly.mono (by simp))) (hdone.sent.after_only heu (by simp)) (by simp) (by simp) fun t ht => ht
  have hscr : t.screenings = (State.onScreening scr (fun c => c.withSeats (Grid.sell c.seats k.number (lineSeats b.lines)))
      { s with engine := e }).screenings := hu ▸ (ht .screenings (by simp)).trans (honly .screenings (by simp))
  have htv : t.vouchers = v.vouchers := ht .vouchers (by simp)
  have htsales : t.sales = v.sales := ht .sales (by simp)
  have hstations : u.ifc.stations = s.ifc.stations := hus .stations (by simp)
  have hissued := hdone.issued.congr (s' := s) (t' := t) (hus .vouchers (by simp)).symm (hus .clock (by simp)).symm htv
  have hrsales : t.sales = { released b s with
      records := s.sales.records ++ [soldRecord b k made o]
      commits := s.sales.commits.filter (fun x => x.number != k.number)
      last := t.sales.last } := by
    rw [htsales, ← released_congr (hus .sales (by simp)), ← (hus .sales (by simp) : u.sales = s.sales)]
    exact hdone.sales
  have hg' : b.tally.getD (Tally.none b.generation) = g := by rw [hg, Option.getD_some]
  refine ⟨t, soldRecord b k made o, _, o, prices, job, saleFrames s slot b (soldRecord b k made o) o, hx, he, ?_, ?_, ?_, ?_, ?_,
    seatsOnly_of (F := fun g => Grid.sell g k.number (lineSeats b.lines)) hscr, screening_of_onScreening (F := fun g => Grid.sell g k.number (lineSeats b.lines)) hscr hc,
    fun y hy => Grid.at_sell_other c.seats k.number hy, fun i hi => ?_, ?_, rfl, rfl, rfl, ?_, ?_, ?_, ?_, ?_, ?_, rfl, rfl, ?_, rfl, ?_, ?_, hrsales,
    fun st => ?_, hissued.records, fun kind => ⟨?_, hissued.stock kind⟩⟩
  · rw [← saleFrames_of_bindings (s := s) (u := u) (fun m => by rw [State.binding, hstations, State.binding])]
    exact heffect
  · rcases hdone.defers with hd | ⟨fields, hd, hw⟩
    · exact .inl hd
    · rw [(hus .prices (by simp) : u.prices = s.prices)] at hw
      exact .inr ⟨hw, fields, hd⟩
  · unfold saleFrames
    cases b.owner <;> rfl
  · have hasked := hdone.asked
    have hline : u.commitLine b.owner k = (match b.owner with
        | .station st => (s.binding st).map (·.ticket)
        | .office => k.line) := by
      unfold State.commitLine
      cases b.owner with
      | office => rfl
      | station n => simp only [State.binding, hstations]
    intro line
    have hl : u.commitLine b.owner k = line := hline
    clear_value line
    rw [hl] at hasked
    cases line with
    | none =>
      obtain ⟨ho, hj, hp⟩ := hasked
      exact ⟨ho, hj, (ht .print (by simp)).trans (hp.trans (hus .print (by simp)))⟩
    | some i =>
      exact hasked.congr (hus .print (by simp)).symm (hus .params (by simp)).symm (fun plans hplans => hplans.of_seats
        (F := fun g => Grid.sell g k.number (lineSeats b.lines)) (n := scr)
        (by rw [← hu]; exact (onScreening_screenings ..)) (hus .plans (by simp)).symm) (ht .print (by simp))
  · exact hdone.leaves.congr hus.symm ht (by simp)
  · have hi' : i < (lineSeats b.lines).length := by rwa [lineSeats, List.length_map]
    have hseat : (lineSeats b.lines)[i] = (b.lines[i].row, b.lines[i].pos) := List.getElem_map _
    rw [← hseat]
    exact Grid.at_sell c.seats k.number hnodup hi' (hat _ (List.getElem_mem hi'))
  · exact sale_appended (l := s.sales.records) (r := soldRecord b k made o) (by rw [hrsales]) (sale_eq_none hn)
  · exact congrArg Tally.generation hg'
  · exact congrArg Tally.subtotal hg'
  · exact congrArg Tally.discount hg'
  · exact congrArg Tally.voucherTotal hg'
  · exact congrArg Tally.total hg'
  · exact congrArg Tally.tax hg'
  · exact decide_eq_true_iff
  · rw [← hg']
    exact hissued.drawn
  · exact hissued.codes
  · rw [htsales, ← (hus .sales (by simp) : u.sales = s.sales)]
    exact hdone.last st
  · rw [← hg']
    exact hissued.count kind

end Sys2Proof.Machine
end

section
/-! PROOFS. The statement about RESTORE_SEATS (R53, R124, R134). -/

namespace Sys2Proof.Machine

/-- The places of a sale's tickets, in its order. -/
def Sale.seats (r : Sale) : List Seat := r.tickets.map (fun k => (k.row, k.pos))

/-- Check 1 of R124 lets no seat stand twice. -/
theorem readRestored_nodup {f : SaleFields} {sale : Sale} {vs : List Voucher} (h : readRestored f = some (sale, vs)) :
    sale.seats.Nodup := by
  unfold readRestored at h
  dsimp only at h
  split at h
  · split at h
    · split at h
      · rename_i hc
        obtain ⟨-, -, -, -, -, -, -, hd, -⟩ := hc
        cases h
        exact distinct_iff.1 hd
      · cases h
    · cases h
  · cases h

-- ## The units of restored vouchers (R134)

/-- The unit of one restored voucher moved. -/
def restoreUnit (s : State) (v : Voucher) : State :=
  match v.state with
  | .issued => moveStock v.kind .available .outstanding 1 s
  | .redeemed => moveStock v.kind .available .taken 1 s
  | _ => s

theorem restoreUnit_vouchers (s : State) (v : Voucher) : (restoreUnit s v).vouchers.records = s.vouchers.records
    ∧ (restoreUnit s v).vouchers.serial = s.vouchers.serial := by
  unfold restoreUnit
  split <;> exact ⟨rfl, rfl⟩

theorem restoreUnit_stock (s : State) (v : Voucher) (k : Fin 8)
    (h : (v.kind == k && (v.state == .issued || v.state == .redeemed)) = true → 1 ≤ (s.vouchers.stock.get k).available) :
    (restoreUnit s v).vouchers.stock.get k = { s.vouchers.stock.get k with
      available := (s.vouchers.stock.get k).available
        - [v].countP (fun v => v.kind == k && (v.state == .issued || v.state == .redeemed))
      outstanding := (s.vouchers.stock.get k).outstanding + [v].countP (fun v => v.kind == k && v.state == .issued)
      taken := (s.vouchers.stock.get k).taken + [v].countP (fun v => v.kind == k && v.state == .redeemed) } := by
  by_cases hk : v.kind = k
  · subst hk
    unfold restoreUnit
    cases hv : v.state with
    | issued =>
      rw [hv] at h
      have h1 := h (by simp)
      simp [hv, moveStock_get, Stock.move, Stock.at, Stock.put, h1]
    | redeemed =>
      rw [hv] at h
      have h1 := h (by simp)
      simp [hv, moveStock_get, Stock.move, Stock.at, Stock.put, h1]
    | suspended => simp [hv]
    | lapsed => simp [hv]
    | void => simp [hv]
  · have hsame : (restoreUnit s v).vouchers.stock.get k = s.vouchers.stock.get k := by
      unfold restoreUnit
      split
      · rw [moveStock_get, if_neg hk]
      · rw [moveStock_get, if_neg hk]
      · rfl
    simp [hsame, hk]

theorem foldl_restoreUnit (vs : List Voucher) (s : State) (k : Fin 8)
    (h : vs.countP (fun v => v.kind == k && (v.state == .issued || v.state == .redeemed)) ≤ (s.vouchers.stock.get k).available) :
    (vs.foldl restoreUnit s).vouchers.stock.get k = { s.vouchers.stock.get k with
      available := (s.vouchers.stock.get k).available
        - vs.countP (fun v => v.kind == k && (v.state == .issued || v.state == .redeemed))
      outstanding := (s.vouchers.stock.get k).outstanding + vs.countP (fun v => v.kind == k && v.state == .issued)
      taken := (s.vouchers.stock.get k).taken + vs.countP (fun v => v.kind == k && v.state == .redeemed) } := by
  induction vs generalizing s with
  | nil => simp
  | cons v vs ih =>
    have hsplit (p : Voucher → Bool) : (v :: vs).countP p = [v].countP p + vs.countP p := List.countP_append (l₁ := [v])
    rw [hsplit] at h
    have hone := restoreUnit_stock s v k fun hv => by
      have h1 : [v].countP (fun v => v.kind == k && (v.state == .issued || v.state == .redeemed)) = 1 := by
        rw [List.countP_singleton, if_pos hv]
      omega
    rw [List.foldl_cons, ih _ (by rw [hone]; dsimp only; omega), hone, hsplit, hsplit, hsplit]
    simp only [Nat.add_assoc, Nat.sub_sub]

theorem stockFor_iff {s : State} {vs : List Voucher} : s.stockFor vs = true
    ↔ ∀ k, vs.countP (fun v => v.kind == k && v.state != .lapsed) ≤ (s.vouchers.stock.get k).available := by
  simp [State.stockFor, List.all_eq_true]

-- ## The checks in order

/-- The sale added, its seats sold. -/
def restored (sale : Sale) (vs : List Voucher) (c : Screening) (s : State) : State :=
  let s := s.putSeats c.id (Grid.sell c.seats sale.number sale.seats)
  let s := { s with sales := { s.sales with records := s.sales.records ++ [sale] } }
  restoreVouchers vs s

theorem restored_vouchers (sale : Sale) (vs : List Voucher) (c : Screening) {s : State} (h : s.stockFor vs = true) :
    (restored sale vs c s).vouchers.records = s.vouchers.records ++ vs
      ∧ (restored sale vs c s).vouchers.serial = s.vouchers.serial
      ∧ ∀ k, (restored sale vs c s).vouchers.stock.get k = { s.vouchers.stock.get k with
          available := (s.vouchers.stock.get k).available
            - vs.countP (fun v => v.kind == k && (v.state == .issued || v.state == .redeemed))
          outstanding := (s.vouchers.stock.get k).outstanding + vs.countP (fun v => v.kind == k && v.state == .issued)
          taken := (s.vouchers.stock.get k).taken + vs.countP (fun v => v.kind == k && v.state == .redeemed) } := by
  have hkept (u : State) : (vs.foldl restoreUnit u).vouchers.records = u.vouchers.records
      ∧ (vs.foldl restoreUnit u).vouchers.serial = u.vouchers.serial :=
    List.foldlRecOn (motive := fun w : State => w.vouchers.records = u.vouchers.records ∧ w.vouchers.serial = u.vouchers.serial)
      vs _ ⟨rfl, rfl⟩ fun w hw v _ => by
        obtain ⟨hr, hs⟩ := restoreUnit_vouchers w v
        exact ⟨hr.trans hw.1, hs.trans hw.2⟩
  refine ⟨(hkept _).1, (hkept _).2, fun k => foldl_restoreUnit vs _ k ?_⟩
  refine le_trans (List.countP_mono_left fun v _ hv => ?_) (stockFor_iff.1 h k)
  cases hs : v.state <;> simp_all

theorem restored_only (sale : Sale) (vs : List Voucher) (c : Screening) (s : State) :
    Only [.screenings, .sales, .vouchers] s (restored sale vs c s) := by
  simp [restored, State.putSeats]

section
variable {r : Reply} {f : SaleFields} {s : State} {sale : Sale} {vs : List Voucher} {c : Screening}
  (hread : readRestored f = some (sale, vs)) (hc : s.screening sale.screening = some c)
include hread hc

theorem runRestore_taken (h : s.holdsNumber sale.number = true ∨ ∃ v ∈ vs, s.voucher v.code ≠ none) :
    runRestore r f s = answer r .taken [] s := by
  unfold runRestore
  rw [hread]
  dsimp only
  rw [hc]
  dsimp only
  rw [if_pos (by simpa [Option.isSome_iff_ne_none] using h)]

theorem runRestore_full (h : ¬ (s.holdsNumber sale.number = true ∨ ∃ v ∈ vs, s.voucher v.code ≠ none))
    (hroom : s.hasRoom vs.length = false) : runRestore r f s = answer r .tableFull [] s := by
  unfold runRestore
  rw [hread]
  dsimp only
  rw [hc]
  dsimp only
  rw [if_neg (by simpa [Option.isSome_iff_ne_none] using h), if_pos (by simp [hroom])]

theorem runRestore_roomy (h : ¬ (s.holdsNumber sale.number = true ∨ ∃ v ∈ vs, s.voucher v.code ≠ none))
    (hroom : s.hasRoom vs.length = true) : runRestore r f s
      = if !sale.seats.all (fun x => (Grid.at c.seats x).isSome) then answer r .badRequest [] s
        else match sale.tickets.find? (fun y => Grid.at c.seats (y.row, y.pos) != some .free) with
          | some y => answer r .taken [BitVec.ofNat 8 y.row, BitVec.ofNat 8 y.pos] s
          | none => if !s.stockFor vs then answer r .noStock [] s else answer r .ok [] (restored sale vs c s) := by
  unfold runRestore
  rw [hread]
  dsimp only
  rw [hc]
  dsimp only
  rw [if_neg (by simpa [Option.isSome_iff_ne_none] using h), if_neg (by simp [hroom])]
  refine if_congr Iff.rfl rfl ?_
  rw [firstFailing, List.find?_map, Option.map_map]
  have hp : ((fun x => !Grid.freeAt c.seats x) ∘ fun (k : Ticket) => (k.row, k.pos))
    = fun y => Grid.at c.seats (y.row, y.pos) != some .free := rfl
  rw [hp]
  cases sale.tickets.find? (fun y => Grid.at c.seats (y.row, y.pos) != some .free) <;> rfl

end

theorem all_cells_iff {sale : Sale} {g : Grid} : (!sale.seats.all (fun x => (Grid.at g x).isSome)) = true
    ↔ ∃ y ∈ sale.tickets, Grid.at g (y.row, y.pos) = none := by
  simp [Sale.seats]

/-- Settles O34, by the checks of R124 in their order. -/
theorem restoresAddTheSale : Obligations.RestoresAddTheSale := by
  unfold Obligations.RestoresAddTheSale
  refine ⟨?_, ?_⟩
  · intro r f e s sale vs c h hread hc hnumber hcodes hroom hfree hstock
    have hc' : State.screening { s with engine := e } sale.screening = some c := hc
    have hid := screening_id hc
    have hnew : ¬ (State.holdsNumber { s with engine := e } sale.number = true ∨ ∃ v ∈ vs, State.voucher { s with engine := e } v.code ≠ none) := by
      rintro (hno | ⟨v, hv, hno⟩)
      · exact Bool.false_ne_true (hnumber.symm.trans hno)
      · exact hno (hcodes v hv)
    have hcells : ¬ (!sale.seats.all (fun x => (Grid.at c.seats x).isSome)) = true := fun hno => by
      obtain ⟨y, hy, hn⟩ := all_cells_iff.1 hno
      exact absurd (hfree y hy) (by simp [hn])
    have hfind : sale.tickets.find? (fun y => Grid.at c.seats (y.row, y.pos) != some .free) = none :=
      List.find?_eq_none.2 fun y hy => by simp [hfree y hy]
    have hstock' : State.stockFor { s with engine := e } vs = true := hstock
    have hrun : runRestore r f { s with engine := e } = answer r .ok [] (restored sale vs c { s with engine := e }) := by
      rw [runRestore_roomy hread hc' hnew hroom, if_neg hcells, hfind]
      dsimp only
      rw [if_neg (by simp [hstock'])]
    have honly := restored_only sale vs c { s with engine := e }
    obtain ⟨hrecords, hserial, hcounts⟩ := restored_vouchers sale vs c hstock'
    obtain ⟨t, ht, hQ⟩ := h.carries (i := .restoreSeats) (bs := [.screenings, .sales, .vouchers])
      (Q := fun t => Only [.lines, .latched, .choice, .outstanding, .restart] (restored sale vs c { s with engine := e }) t)
      (fun _ => rfl) rfl hrun ((only_answer (by simp)).2 (honly.mono (by simp))) ((says_answer ..).after_only honly (by simp))
      (by simp) (by simp) fun t ht => Only.trans (by simp) (ht.mono (by simp))
    have hscr : t.screenings = (s.onScreening sale.screening
        (fun k => k.withSeats ((fun _ => Grid.sell c.seats sale.number sale.seats) k.seats))).screenings := by
      rw [← hid]
      refine (hQ .screenings (by simp)).trans ?_
      have hrest : Only [.sales, .vouchers] (State.putSeats c.id (Grid.sell c.seats sale.number sale.seats) { s with engine := e })
          (restored sale vs c { s with engine := e }) := by simp [restored]
      exact hrest .screenings (by simp)
    have hsales : t.sales = { s.sales with records := s.sales.records ++ [sale] } := by
      refine (hQ .sales (by simp)).trans ?_
      unfold restored
      exact ((only_restoreVouchers (by simp)).2 (Only.refl [.vouchers] _)) .sales (by simp)
    have htv := (hQ .vouchers (by simp) : t.vouchers = _)
    refine ⟨t, _, ht, hsales, ?_, ?_, fun k => ?_, seatsOnly_of (F := fun _ => Grid.sell c.seats sale.number sale.seats) hscr,
      screening_of_onScreening (F := fun _ => Grid.sell c.seats sale.number sale.seats) hscr hc,
      fun y hy => Grid.at_sell_other c.seats sale.number hy, fun i hi => ?_⟩
    · rw [htv, hrecords]
    · rw [htv, hserial]
    · rw [htv, hcounts]
    · have hi' : i < sale.seats.length := by rwa [Sale.seats, List.length_map]
      have hseat : sale.seats[i] = (sale.tickets[i].row, sale.tickets[i].pos) := List.getElem_map _
      rw [← hseat]
      exact Grid.at_sell c.seats sale.number (readRestored_nodup hread) hi'
        (by rw [hseat, hfree _ (List.getElem_mem hi)]; simp)
  · intro r f e s h refused
    have refuse {result : Result} {fields : List Byte}
        (hrun : runRestore r f { s with engine := e } = answer r result fields { s with engine := e }) :
        refused result fields := h.answers_only (fun _ => rfl) rfl hrun
    refine ⟨fun hread => refuse (by rw [runRestore, hread]), fun sale vs hread => ?_⟩
    cases hc : s.screening sale.screening with
    | none =>
      have hc' : State.screening { s with engine := e } sale.screening = none := hc
      exact refuse (by rw [runRestore, hread]; dsimp only; rw [hc'])
    | some c =>
      have hc' : State.screening { s with engine := e } sale.screening = some c := hc
      dsimp only
      split
      next hheld => exact refuse (runRestore_taken hread hc' hheld)
      next hnew =>
        split
        next hfull => exact refuse (runRestore_full hread hc' hnew hfull)
        next hroom =>
          have hrun := runRestore_roomy (r := r) hread hc' hnew (Bool.eq_true_of_not_eq_false hroom)
          split
          next hcell => exact refuse (hrun.trans (if_pos (all_cells_iff.2 hcell)))
          next hcells =>
            have hrun := hrun.trans (if_neg fun h => hcells (all_cells_iff.1 h))
            split
            next y hy =>
              rw [hy] at hrun
              exact refuse hrun
            next hnone =>
              rw [hnone] at hrun
              exact fun hstock => refuse (hrun.trans (if_pos (congrArg (!·) hstock)))

end Sys2Proof.Machine
end

section
/-! PROOFS. The statement about reprints (R110, R122, R123). -/

namespace Sys2Proof.Machine

/-- R123: the sale of a reprint, its job live and its reprints counted. -/
def Sale.reprinted (given : List Nat) (k : Sale) : Sale :=
  { k with jobLive := true, tickets := countReprints given k.tickets }

/-- What a reprint whose job has been asked for leaves. -/
def reprinting (n : Nat) (given : List Nat) (x : PrintOutcome × State) : State :=
  if x.1 = .notQueued then x.2 else x.2.onSale n (Sale.reprinted given)

theorem runReprint_eq {who : Requester} {r : Reply} {line : Byte} {k : Sale} {given : List Nat} {s : State} {i : Fin 8}
    (h : s.reprintLine who line = some i) : runReprint who r line k given s
      = answer r .ok [(requestJob i k (who.owner.getD .office) (.reprint given) s).1.code]
        (reprinting k.number given (requestJob i k (who.owner.getD .office) (.reprint given) s)) := by
  rw [runReprint, h]
  rfl

theorem reprinting_sales (n : Nat) (given : List Nat) {o : PrintOutcome} {u s : State} (h : u.sales = s.sales) :
    (reprinting n given (o, u)).sales = if o = .notQueued then s.sales else { s.sales with
      records := s.sales.records.map (fun x => if x.number = n then Sale.reprinted given x else x) } := by
  unfold reprinting
  split
  · exact h
  · rw [onSale_sales, h]

theorem countReprints_eq (given : List Nat) (ts : List Ticket) : countReprints given ts
    = ts.zipIdx.map (fun u => if u.2 ∈ given ∧ u.1.state = .printed then { u.1 with used := u.1.used + 1 } else u.1) := by
  simp [countReprints]

theorem reprinting_only (n : Nat) (given : List Nat) (x : PrintOutcome × State) : Only [.sales] x.2 (reprinting n given x) := by
  unfold reprinting
  split
  · exact Only.refl _ _
  · exact onSale_only _ _ _

/-- The tickets that a REPRINT's set names. -/
theorem readTicketSet_of {set : Byte} {k : Sale} {given : List Nat}
    (h : set = 0xFE ∧ given = List.range k.tickets.length ∨ set.toNat ≤ 9 ∧ given = [set.toNat]) :
    ∃ x, readTicketSet set = some x ∧ namedTickets k x = given := by
  rcases h with ⟨rfl, rfl⟩ | ⟨hle, rfl⟩
  · exact ⟨none, rfl, rfl⟩
  · refine ⟨some set.toNat, ?_, rfl⟩
    have hne : set ≠ 0xFE := by
      rintro rfl
      simp at hle
    rw [readTicketSet, if_neg hne, if_pos hle]

theorem readTicketLine_of {line : Byte} {i : Fin 8} (h : line.toNat = 0x20 + i.val) : readTicketLine line = some i :=
  offset_eq (i := i) (by omega)

/-- R122: no ticket named stands in the reprint's way. -/
theorem judgeTickets_none {k : Sale} {given : List Nat} {o : Bool}
    (h : ∀ i ∈ given, ∀ u, k.tickets[i]? = some u → u.state = .printed → o = true ∧ u.used ≠ 2) :
    (given.filterMap (k.tickets[·]?)).findSome? (judgeTicket o) = none := by
  refine List.findSome?_eq_none_iff.2 fun u hu => ?_
  obtain ⟨i, hi, hget⟩ := List.mem_filterMap.1 hu
  unfold judgeTicket
  by_cases hp : u.state = .printed
  · obtain ⟨ho, hused⟩ := h i hi u hget hp
    simp [hp, ho, hused]
  · rw [if_pos hp]

/-- Settles O52, by the job request of a reprint, and by the window. -/
theorem reprintsAskForAJob : Obligations.ReprintsAskForAJob := by
  unfold Obligations.ReprintsAskForAJob
  refine ⟨?_, ?_⟩
  · intro src tag n set line override who r s k line' given h hover hline hset hk hwho hstate hlive hin hprinted
    generalize hu : hearing (.reprint src tag n set line override) r s = u
    have hus : Only [.lines, .outstanding] s u := hu ▸ only_hearing _ _ _
    have hsales : u.sales = s.sales := hus .sales (by simp)
    have hku : u.sale n.toNat = some k := by rw [State.sale, hsales]; exact hk
    have hnumber := sale_number hk
    obtain ⟨x, hx, hnamed⟩ := readTicketSet_of hset
    have hplace : u.reprintLine who line = some line' ∧ u.mayReprint who k.number = true
        ∧ (who == .office && (readTicketLine line).isNone) = false := by
      rcases hwho with ⟨st, b, rfl, hlast, hb, rfl⟩ | ⟨rfl, hl⟩
      · refine ⟨?_, ?_, rfl⟩
        · rw [State.reprintLine, State.binding, (hus .stations (by simp) : u.ifc.stations = s.ifc.stations)]
          exact congrArg (Option.map _) hb
        · obtain ⟨l, hl, hn⟩ := Option.map_eq_some_iff.1 hlast
          simp [State.mayReprint, hsales, hl, hn, hnumber]
      · rw [readTicketLine_of hl]
        exact ⟨readTicketLine_of hl, rfl, rfl⟩
    obtain ⟨hi, hmay, hoffice⟩ := hplace
    have hjudge : (given.filterMap (k.tickets[·]?)).findSome? (judgeTicket (who == .office && override == 1)) = none :=
      judgeTickets_none fun i hi v hv hp => by
        obtain ⟨ho, hov, hused⟩ := hprinted i hi v hv hp
        exact ⟨by simp [ho, hov], hused⟩
    obtain ⟨told, hsays, hreq⟩ := requestJob_requested line' k (who.owner.getD .office) (.reprint given) u
    have hjob : Only [.print, .lines, .choice] u (requestJob line' k (who.owner.getD .office) (.reprint given) u).2 :=
      (only_requestJob (by simp)).2 (Only.refl _ u)
    generalize hy : requestJob line' k (who.owner.getD .office) (.reprint given) u = y at hsays hreq hjob
    have hre := reprinting_only n.toNat given y
    obtain ⟨t, ht, hQ⟩ := h.runs (bs := [.print, .sales]) (u := answer r .ok [y.1.code] (reprinting n.toNat given y))
      (out := after told (on r.link.line [answerFrame r .ok [y.1.code]]))
      (Q := fun t => Only [.lines, .latched, .choice] (reprinting n.toNat given y) t) (fun _ => rfl) rfl
      (by simpa [readFlag_of_le hover, Option.isSome_iff_ne_none] using hline) (by
        rw [hu]
        simp only [hx, hoffice, Bool.false_eq_true, if_false, hku, hnamed, hmay, Bool.not_true, hstate, ne_eq, not_true_eq_false,
          hlive, hjudge]
        rw [if_neg (by simpa using hin), runReprint_eq hi, hy, hnumber])
      (by rw [hu]; exact (only_answer (by simp)).2 ((hjob.mono (by simp)).trans (hre.mono (by simp))))
      (by rw [hu]; exact (hsays.then_only hre (by simp)).trans (says_answer ..)) (by simp) (by simp)
      fun t ht => ((only_answer (by simp)).2 (Only.refl _ _)).trans ht
    refine ⟨t, y.1, told, ht, ?_, ?_⟩
    · have hprint : t.print = y.2.print := (hQ .print (by simp)).trans (hre .print (by simp))
      exact (hreq t hprint).congr (hus .print (by simp)).symm (hus .params (by simp)).symm
        (fun plans h => h.of_screenings (hus .screenings (by simp)).symm (hus .plans (by simp)).symm) rfl
    · refine (hQ .sales (by simp)).trans ((reprinting_sales n.toNat given (o := y.1) (u := y.2) (s := s)
        ((hjob .sales (by simp)).trans hsales)).trans ?_)
      simp only [Sale.reprinted, countReprints_eq]
  · intro s st last hlast
    by_cases hz : last.seconds = 0
    · have hover : s.windowOver st = true := by simp [State.windowOver, hlast, hz]
      have hrun : expireWindow st s = { s with sales := { s.sales with last := s.sales.last.set st none } } := if_pos hover
      have honly : Only [.sales] s { s with sales := { s.sales with last := s.sales.last.set st none } } :=
        (only_sales (by simp)).2 (Only.refl _ s)
      obtain ⟨t, hx, heffect, ht⟩ := event_does (i := .reprintWindowExpiry st) (bs := [.sales]) (f := expireWindow st)
        (Q := fun t => t.sales = { s.sales with last := s.sales.last.set st none }) rfl hrun (honly.mono (by simp))
        (.of_only honly (by simp)) (by simp) fun t ht => ht .sales (by simp)
      exact ⟨t, hx, heffect, by rw [if_pos hz]; exact ht⟩
    · have hover : ¬ s.windowOver st = true := by simp [State.windowOver, hlast, hz]
      obtain ⟨t, hx, heffect, ht⟩ := event_does (i := .reprintWindowExpiry st) (bs := [.sales]) (f := expireWindow st)
        (Q := fun t => t.sales = s.sales) rfl (if_neg hover) (Only.refl _ s) (.refl s) (by simp) fun t ht => ht .sales (by simp)
      exact ⟨t, hx, heffect, by rw [if_neg hz]; exact ht⟩

end Sys2Proof.Machine
end

section
/-! PROOFS. Rules for the payment unit's work: a pay line's record replaced, the exchange that follows, a reversal needed, a
basket judged or disposed of, and the forms of a terminal's message and of a wait's expiry (chapter 6). -/

namespace Sys2Proof.Machine

-- ## A pay line's record replaced

section
variable {s u : State} {i : Fin 8} {x y : PayLine} {bs : List Block}

theorem onPayLine_eq (f : PayLine → PayLine) : s.onPayLine i f = s.withPayLine i (f (s.payLine i)) := rfl

theorem withPayLine_only : Only [.pay] s (s.withPayLine i x) := (only_pay (by simp)).2 (Only.refl _ s)

theorem withPayLine_payLine : (s.withPayLine i x).payLine i = x := Tab.get_set_self ..

theorem withPayLine_withPayLine : (s.withPayLine i x).withPayLine i y = s.withPayLine i y := by
  simp only [State.withPayLine, Tab.set_set]

theorem withPayLine_self : s.withPayLine i (s.payLine i) = s := by
  simp only [State.withPayLine, State.payLine, Tab.set_get]

/-- A pay line replaced, and then work elsewhere. -/
theorem pay_of_only (h : Only bs (s.withPayLine i x) u) (hb : .pay ∉ bs) :
    u.pay = { s.pay with lines := s.pay.lines.set i x } := h .pay hb

theorem payLine_of_pay (h : u.pay = { s.pay with lines := s.pay.lines.set i x }) : u.payLine i = x := by
  rw [State.payLine, h]
  exact Tab.get_set_self ..

/-- What is left untouched besides the pay lines, seen from the state in which the pay line is already replaced. -/
theorem Only.withPay (h : Only (.pay :: bs) s u) (hp : u.pay = { s.pay with lines := s.pay.lines.set i x }) :
    Only bs (s.withPayLine i x) u := fun b hb => by
  by_cases he : b = .pay
  · subst he
    exact hp
  · exact Block.same_trans (Block.same_symm (withPayLine_only b (by simp [he]))) (h b (by simp [he, hb]))

end

theorem Sent.withPay {s u : State} {n : Fin 8} {x : PayLine} {l : Line} {fs : List Frame} (h : Sent l fs s u) :
    Sent l fs (s.withPayLine n x) u := by
  obtain ⟨hsending, hreceiver, hbad, hhanded⟩ := h
  exact ⟨hsending, hreceiver, hbad, hhanded⟩

-- ## A terminal's message, and an expiry

section
variable {i i' : Instr} {l : Line} {s u : State} {f : State → State} {bs : List Block} {out : Line → List Frame} {Q : State → Prop}
  {n : Fin 8} {x : PayLine}

/-- A message on a state in which nothing is due. -/
theorem message_does (hq : s.quiet = true) (hx : ∀ s, exec i s = message l i' f s) (hf : f (takeMessage l i' s) = u)
    (ho : Only (.lines :: .choice :: bs) (takeMessage l i' s) u) (hs : Says out (takeMessage l i' s) u) (hl : .latched ∉ bs)
    (hQ : ∀ t, Only [.lines, .latched, .choice] u t → Q t) : ∃ t, exec i s = .next t ∧ Effect bs out s t ∧ Q t := by
  have htake : Only [.lines] s (takeMessage l i' s) := (only_takeMessage (by simp)).2 (Only.refl _ s)
  refine ⟨_, by rw [hx, message, command_quiet hq, hf], effect_of ((htake.mono (by simp)).trans ho)
    (fun k => hs.sent (fun k => sent_takeMessage l k i' s) k) ?_, hQ _ (latched_same u)⟩
  exact (ho .latched (by simp [hl])).trans (htake .latched (by simp))

/-- A message whose work is a pay line's record, and what `bs` names. -/
theorem message_pay (hq : s.quiet = true) (hx : ∀ s, exec i s = message l i' f s) (hf : f (takeMessage l i' s) = u)
    (ho : Only [.pay, .lines, .choice] (takeMessage l i' s) u)
    (hp : u.pay = { s.pay with lines := s.pay.lines.set n x })
    (hs : Says out (takeMessage l i' s) u) : ∃ t, exec i s = .next t ∧ Effect [] out (s.withPayLine n x) t := by
  have htake : Only [.lines] s (takeMessage l i' s) := (only_takeMessage (by simp)).2 (Only.refl _ s)
  have hsu : Only [.pay, .lines, .choice] s u := (htake.mono (by simp)).trans ho
  refine ⟨_, by rw [hx, message, command_quiet hq, hf], effect_of (hsu.withPay hp)
    (fun k => (hs.sent (fun k => sent_takeMessage l k i' s) k).withPay) ?_⟩
  exact (ho .latched (by simp)).trans (htake .latched (by simp))

/-- A message that is discarded. -/
theorem message_idle (hq : s.quiet = true) (hx : ∀ s, exec i s = message l i' f s)
    (hf : f (takeMessage l i' s) = takeMessage l i' s) : ∃ t, exec i s = .next t ∧ Effect [] nothing s t := by
  obtain ⟨t, hx, he, -⟩ := message_does (bs := []) (out := nothing) (Q := fun _ => True) hq hx hf (Only.refl _ _) (.refl _) (by simp)
    fun _ _ => trivial
  exact ⟨t, hx, he⟩

/-- An expiry whose work is a pay line's record. -/
theorem event_pay (hx : exec i s = event f s) (hf : f s = u) (ho : Only [.pay, .lines, .choice] s u)
    (hp : u.pay = { s.pay with lines := s.pay.lines.set n x }) (hs : Says out s u) :
    ∃ t, exec i s = .next t ∧ Effect [] out (s.withPayLine n x) t :=
  ⟨_, by rw [hx, event, hf], effect_of (ho.withPay hp) (fun k => (hs.sent (fun k => sent_refl k s) k).withPay) (ho .latched (by simp))⟩

theorem takeMessage_only (l : Line) (i : Instr) (s : State) : Only [.lines] s (takeMessage l i s) :=
  (only_takeMessage (by simp)).2 (Only.refl _ s)

end

-- ## The exchange that follows (R94, R104)

section
variable {line : Fin 8} {s : State} {x : PayLine}

theorem pump_only (line : Fin 8) (s : State) : Only [.pay, .lines] s (pump line s) := (only_pump (by simp)).2 (Only.refl _ s)

/-- With no exchange in flight, the head of the queue is sent. -/
theorem pump_resumes (hx : s.payLine line = x) (he : x.exchange = none) : Says (reverseOf line x.queue) s (pump line s)
    ∧ (pump line s).pay = { s.pay with lines := s.pay.lines.set line (x.resumed s.params.reversalInterval) } := by
  subst hx
  unfold pump reverseOf PayLine.resumed
  rw [he]
  cases hq : (s.payLine line).queue with
  | nil =>
    refine ⟨.refl s, ?_⟩
    have hself : { s.payLine line with exchange := none } = s.payLine line := by rw [← he]
    simp only [List.head?_nil, Option.map_none]
    rw [← hq, hself]
    simp only [State.payLine, Tab.set_get]
  | cons q rest =>
    refine ⟨(says_tellTerminal ..).after_only (bs := [.pay]) ((only_onPayLine (by simp)).2 (Only.refl _ s)) (by simp), ?_⟩
    rw [List.head?_cons, Option.map_some]
    refine ((only_tellTerminal (bs := [.lines]) (by simp)).2 (Only.refl _ _) .pay (by simp)).trans ?_
    rw [← hq]
    rfl

/-- While an exchange goes on, nothing is sent. -/
theorem pump_waits (he : (s.payLine line).exchange ≠ none) : pump line s = s := by
  obtain ⟨e, he⟩ := Option.ne_none_iff_exists'.1 he
  unfold pump
  rw [he]

end

-- ## A reversal needed (R103, R106)

section
variable {line : Fin 8} {s : State} {q : Reversal}

theorem doubtNotice_eq (line : Fin 8) (q : Reversal) (cause : DoubtCause) (s : State) : doubtNotice line q cause s
    = send .ol (doubtFrame line q cause.code (s.tied q) s) s := by
  unfold doubtNotice doubtFrame optionalBytes
  cases s.tied q <;> cases s.params.doubtPolicy <;> rfl

theorem doubtNotice_says (line : Fin 8) (q : Reversal) (cause : DoubtCause) (s : State) :
    Says (on .ol [doubtFrame line q cause.code (s.tied q) s]) s (doubtNotice line q cause s) := by
  rw [doubtNotice_eq]
  exact says_send ..

theorem doubtNotice_only (line : Fin 8) (q : Reversal) (cause : DoubtCause) (s : State) :
    Only [.lines] s (doubtNotice line q cause s) := (only_doubtNotice (by simp)).2 (Only.refl _ s)

/-- A new reversal joins a queue with room. -/
theorem needReversal_joins (hq : (s.payLine line).reversal q.payRef = none) (hroom : (s.payLine line).queue.length < 4) :
    needReversal line q s = s.withPayLine line { s.payLine line with queue := (s.payLine line).queue ++ [q] } := by
  unfold needReversal
  rw [if_neg (by simp [hq]), if_pos (show _ < Config.maxReversals from hroom)]
  rfl

/-- A full queue gives the reversal up. -/
theorem needReversal_overflows (hq : (s.payLine line).reversal q.payRef = none) (hfull : 4 ≤ (s.payLine line).queue.length) :
    needReversal line q s = dispose line q (doubtNotice line q .overflow s) := by
  unfold needReversal
  rw [if_neg (by simp [hq]), if_neg (Nat.not_lt.2 (show Config.maxReversals ≤ _ from hfull))]

/-- One already queued takes the code and the amount. -/
theorem needReversal_updates (hq : (s.payLine line).reversal q.payRef ≠ none) : needReversal line q s
    = s.withPayLine line { s.payLine line with queue := (s.payLine line).queue.map (fun y =>
        if y.payRef = q.payRef ∧ q.code.isSome then { y with code := q.code, amount := q.amount } else y) } := by
  unfold needReversal
  rw [if_pos (by simpa [Option.isSome_iff_ne_none] using hq)]
  rfl

theorem tied_none (h : q.basket = none) : s.tied q = none := by rw [State.tied, h]; rfl

theorem tied_some {slot : Fin 16} {ref : Nat} {b : Basket} (h : q.basket = some (slot, ref)) (hb : s.basket slot ref = some b) :
    s.tied q = some (slot, b) := by
  rw [State.tied, h]
  simp [hb]

theorem dispose_untied (h : s.tied q = none) : dispose line q s = s := by
  unfold dispose
  rw [h]

/-- A reversal of an approval that no basket waits for: it joins the queue, or a full queue gives it up. -/
theorem needReversal_untied {queue : List Reversal} {doubt : Line → List Frame} (hbasket : q.basket = none)
    (hq : (s.payLine line).reversal q.payRef = none)
    (h : (s.payLine line).queue.length < 4 ∧ queue = (s.payLine line).queue ++ [q] ∧ doubt = nothing
      ∨ 4 ≤ (s.payLine line).queue.length ∧ queue = (s.payLine line).queue ∧ doubt = on .ol [doubtFrame line q 2 none s]) :
    Says doubt s (needReversal line q s) ∧ Only [.pay, .lines] s (needReversal line q s)
      ∧ (needReversal line q s).pay = { s.pay with lines := s.pay.lines.set line { s.payLine line with queue := queue } } := by
  rcases h with ⟨hroom, rfl, rfl⟩ | ⟨hfull, rfl, rfl⟩
  · rw [needReversal_joins hq hroom]
    exact ⟨.of_only withPayLine_only (by simp), withPayLine_only.mono (by simp), rfl⟩
  · have hnotice := doubtNotice_says line q .overflow s
    have honly := doubtNotice_only line q .overflow s
    rw [tied_none hbasket] at hnotice
    rw [needReversal_overflows hq hfull, dispose_untied (tied_none hbasket)]
    refine ⟨hnotice, honly.mono (by simp), (honly .pay (by simp)).trans ?_⟩
    have hself := withPayLine_self (s := s) (i := line)
    exact (congrArg State.pay hself).symm

end

-- ## The basket of an attempt judged (R99, R109), or disposed of (R105, R107)

section
variable {slot : Fin 16} {b : Basket} {p reason : Nat} {o : PayOutcome} {told : Line → List Frame} {s t s' t' : State}

theorem returnBasket_baskets (slot : Fin 16) (b : Basket) (s : State) :
    (returnBasket slot b s).baskets = s.baskets.set slot (some b.returned) := by
  have h : (releaseReservation b s).baskets = s.baskets := releaseReservation_only b s .baskets (by simp)
  rw [← h]
  rfl

theorem returnBasket_sales (slot : Fin 16) (b : Basket) (s : State) : (returnBasket slot b s).sales = released b s := by
  rw [← releaseReservation_sales]
  rfl

theorem returnBasket_only (slot : Fin 16) (b : Basket) (s : State) : Only [.baskets, .sales] s (returnBasket slot b s) :=
  (only_returnBasket (by simp)).2 (Only.refl _ s)

theorem payResult_says (slot : Fin 16) (b : Basket) (p : Nat) (o : PayOutcome) (f : PayFigures) (s : State) :
    Says (toOwner s b.owner (resultFrame slot b p o f.reason f.made f.left f.countdown)) s (payResult slot b p o f s) :=
  says_notifyOwner ..

theorem payResult_only (slot : Fin 16) (b : Basket) (p : Nat) (o : PayOutcome) (f : PayFigures) (s : State) :
    Only [.lines] s (payResult slot b p o f s) := (only_payResult (by simp)).2 (Only.refl _ s)

theorem toOwner_of_only {bs : List Block} (h : Only bs s t) (hb : .stations ∉ bs) (o : Owner) (f : Frame) :
    toOwner t o f = toOwner s o f :=
  toOwner_of_bindings (fun n => by rw [State.binding, (h .stations hb : t.ifc.stations = s.ifc.stations), State.binding]) o f

/-- A basket that is told a result and then ends. -/
theorem tellEnds_judged (f : PayFigures) (why : EndReason) :
    Says (toOwner s b.owner (resultFrame slot b p o f.reason f.made f.left f.countdown)) s
        (endBasket slot b why (payResult slot b p o f s))
      ∧ (endBasket slot b why (payResult slot b p o f s)).sales = released b s
      ∧ (endBasket slot b why (payResult slot b p o f s)).baskets = s.baskets.set slot (some (b.ended why))
      ∧ (endBasket slot b why (payResult slot b p o f s)).engine
          = { s.engine with queue := s.engine.queue ++ [.releaseBasket slot b.ref b.screening] } := by
  have honly := payResult_only slot b p o f s
  refine ⟨(payResult_says ..).then_only (endBasket_only _ _ _ _) (by simp), ?_, ?_, ?_⟩
  · rw [endBasket_sales]
    exact released_congr (honly .sales (by simp))
  · rw [endBasket_baskets, (honly .baskets (by simp) : (payResult slot b p o f s).baskets = _)]
  · rw [endBasket_engine, (honly .engine (by simp) : (payResult slot b p o f s).engine = _)]

theorem judgeAttempt_judges (slot : Fin 16) (b : Basket) (p : Nat) (o : PayOutcome) (reason : Nat) (s : State) :
    ∃ told, Says told s (judgeAttempt slot b p o reason s) ∧ Judged slot b p o reason told s (judgeAttempt slot b p o reason s) := by
  unfold judgeAttempt
  by_cases hlimit : b.attempts < s.params.declineLimit
  · rw [if_pos hlimit]
    by_cases hopen : s.ownerOpen b.owner = true
    · have hreturn := returnBasket_only slot b s
      have hsays := payResult_says slot b p o ⟨reason, b.attempts, s.params.declineLimit - b.attempts, max b.hold.seconds
        Config.returnFloor⟩ (returnBasket slot b s)
      have hresult := payResult_only slot b p o ⟨reason, b.attempts, s.params.declineLimit - b.attempts, max b.hold.seconds
        Config.returnFloor⟩ (returnBasket slot b s)
      rw [toOwner_of_only hreturn (by simp)] at hsays
      rw [if_pos hopen]
      refine ⟨_, hsays.after_only hreturn (by simp), (hresult .sales (by simp)).trans (returnBasket_sales ..), fun _ _ => ⟨rfl,
        (hresult .baskets (by simp)).trans (returnBasket_baskets ..),
        (hresult .engine (by simp)).trans (hreturn .engine (by simp))⟩, fun _ h => ?_, fun h => ?_⟩
      · rw [hopen] at h
        cases h
      · omega
    · obtain ⟨hsays, hsales, hbaskets, hengine⟩ := tellEnds_judged (slot := slot) (b := b) (p := p) (o := o) (s := s)
        ⟨reason, b.attempts, s.params.declineLimit - b.attempts, 0⟩ .stationClosed
      rw [if_neg hopen]
      exact ⟨_, hsays, hsales, fun _ h => absurd h hopen, fun _ _ => ⟨rfl, hbaskets, hengine⟩, fun h => by omega⟩
  · obtain ⟨hsays, hsales, hbaskets, hengine⟩ := tellEnds_judged (slot := slot) (b := b) (p := p) (o := o) (s := s)
      ⟨reason, b.attempts, 0, 0⟩ .payFailed
    rw [if_neg hlimit]
    exact ⟨_, hsays, hsales, fun h => absurd h hlimit, fun h => absurd h hlimit, fun _ => ⟨rfl, hbaskets, hengine⟩⟩

theorem judgeAttempt_only (slot : Fin 16) (b : Basket) (p : Nat) (o : PayOutcome) (reason : Nat) (s : State) :
    Only [.baskets, .engine, .sales, .lines] s (judgeAttempt slot b p o reason s) :=
  (only_judgeAttempt (by simp)).2 (Only.refl _ s)

/-- A judgement, seen from states that differ elsewhere. -/
theorem Judged.congr {bs cs : List Block} (h : Judged slot b p o reason told s t) (hs : Only bs s s') (ht : Only cs t t')
    (hb : ∀ x ∈ [Block.sales, .stations, .params, .baskets, .engine], x ∉ bs)
    (hc : ∀ x ∈ [Block.sales, .baskets, .engine], x ∉ cs) : Judged slot b p o reason told s' t' := by
  have hsales : s'.sales = s.sales := hs .sales (hb _ (by simp))
  have hstations : s'.ifc.stations = s.ifc.stations := hs .stations (hb _ (by simp))
  have hparams : s'.params = s.params := hs .params (hb _ (by simp))
  have hbaskets : s'.baskets = s.baskets := hs .baskets (hb _ (by simp))
  have hengine : s'.engine = s.engine := hs .engine (hb _ (by simp))
  have hsales' : t'.sales = t.sales := ht .sales (hc _ (by simp))
  have hbaskets' : t'.baskets = t.baskets := ht .baskets (hc _ (by simp))
  have hengine' : t'.engine = t.engine := ht .engine (hc _ (by simp))
  have hopen : s'.ownerOpen b.owner = s.ownerOpen b.owner := by
    unfold State.ownerOpen
    rw [hstations]
  unfold Judged at h ⊢
  simpa only [released_congr hsales, hparams, hbaskets, hengine, hsales', hbaskets', hengine', hopen,
    toOwner_of_only hs (hb .stations (by simp))] using h

end

end Sys2Proof.Machine
end

section
/-! PROOFS. The statement about the progress of an attempt (R91, R97). -/

namespace Sys2Proof.Machine

-- ## Reading a state in which a message has been taken

section
variable {s t : State} {bs : List Block}

theorem payLine_of_only (h : Only bs s t) (hb : .pay ∉ bs) (i : Fin 8) : t.payLine i = s.payLine i := by
  rw [State.payLine, (h .pay hb : t.pay = s.pay), State.payLine]

theorem basket_of_only (h : Only bs s t) (hb : .baskets ∉ bs) (slot : Fin 16) (ref : Nat) : t.basket slot ref = s.basket slot ref := by
  rw [State.basket, (h .baskets hb : t.baskets = s.baskets), State.basket]

end

-- ## A message by the pay ref it names (R91)

section
variable {line : Fin 8} {p : Nat} {f : PayRecord → State → State} {s : State}

theorem onNamed_record {r : PayRecord} (h : (s.payLine line).record p = some r) : onNamed line p f s = f r s := by
  rw [onNamed, h]

theorem onNamed_reversal {q : Reversal} (h : (s.payLine line).record p = none) (hq : (s.payLine line).reversal p = some q) :
    onNamed line p f s = s := by
  rw [onNamed, h]
  simp [hq]

theorem onNamed_stray (h : (s.payLine line).record p = none) (hq : (s.payLine line).reversal p = none) :
    onNamed line p f s = countStray line s := by
  rw [onNamed, h]
  simp [hq]

theorem record_payRef {r : PayRecord} (h : (s.payLine line).record p = some r) : r.payRef = p := by
  obtain ⟨-, h⟩ := payLine_mem h
  exact h

end

/-- A message that is counted as stray. -/
theorem message_stray {i i' : Instr} {f : State → State} {s : State} {line : Fin 8} (hq : s.quiet = true)
    (hx : ∀ s, exec i s = message (.pl line) i' f s) (hf : f (takeMessage (.pl line) i' s) = countStray line (takeMessage (.pl line) i' s)) :
    ∃ t, exec i s = .next t ∧ Effect [] nothing (s.withPayLine line { s.payLine line with
      stray := min ((s.payLine line).stray + 1) 65535 }) t := by
  have htake := takeMessage_only (.pl line) i' s
  refine message_pay hq hx hf (withPayLine_only.mono (by simp)) ?_ (.of_only withPayLine_only (by simp))
  have hpay : (takeMessage (.pl line) i' s).pay = s.pay := htake .pay (by simp)
  rw [countStray, onPayLine_eq, payLine_of_only htake (by simp), State.withPayLine, hpay]
  rfl

-- ## The status told (R97)

/-- The frame of a PAY_STATUS. -/
def statusFrame (slot : Fin 16) (b : Basket) (p : Nat) (code : Byte) : Frame :=
  noticeFrame 0xE3 (bytes1 slot.val ++ bytes2 b.ref ++ bytes2 p ++ [code])

theorem payStatus_says (slot : Fin 16) (b : Basket) (p : Nat) (st : Stage) (s : State) :
    Says (toOwner s b.owner (statusFrame slot b p st.statusCode)) s (payStatus slot b p st s) := says_notifyOwner ..

theorem payStatus_only (slot : Fin 16) (b : Basket) (p : Nat) (st : Stage) (s : State) :
    Only [.lines] s (payStatus slot b p st s) := (only_payStatus (by simp)).2 (Only.refl _ s)

theorem withBasket_some {r : PayRecord} {f : Basket → State → State} {s : State} {b : Basket}
    (h : s.basket r.slot r.ref = some b) : withBasket r f s = f b s := by
  rw [withBasket, State.attemptBasket, h]

/-- The pay line of an attempt whose terminal has accepted it. -/
def PayLine.accepted (l : PayLine) (p wait : Nat) : PayLine :=
  { l.onRecord p (fun x => { x with state := .accepted }) with exchange := some ⟨.authorization, p, wait⟩ }

section
variable {line : Fin 8} {r : PayRecord} {s : State} {b : Basket}

theorem acceptRecord_eq (h : s.basket r.slot r.ref = some b) : acceptRecord line r s
    = payStatus r.slot b r.payRef .none (s.withPayLine line ((s.payLine line).accepted r.payRef s.params.authorizationWait)) := by
  have hb := (basket_of_only (withPayLine_only (s := s) (i := line)
    (x := (s.payLine line).accepted r.payRef s.params.authorizationWait)) (by simp) r.slot r.ref).trans h
  exact withBasket_some (f := fun b => payStatus r.slot b r.payRef .none) hb

theorem progressRecord_eq (h : s.basket r.slot r.ref = some b) (st : Stage) : progressRecord line r st s
    = payStatus r.slot b r.payRef st (s.withPayLine line ((s.payLine line).onRecord r.payRef (fun x => { x with stage := st }))) := by
  have hb := (basket_of_only (withPayLine_only (s := s) (i := line)
    (x := (s.payLine line).onRecord r.payRef (fun x => { x with stage := st }))) (by simp) r.slot r.ref).trans h
  exact withBasket_some (f := fun b => payStatus r.slot b r.payRef st) hb

/-- Frames told while a pay line is replaced. -/
theorem payStatus_withPayLine (slot : Fin 16) (p : Nat) (st : Stage) (x : PayLine) :
    Says (toOwner s b.owner (statusFrame slot b p st.statusCode)) s (payStatus slot b p st (s.withPayLine line x))
      ∧ Only [.pay, .lines] s (payStatus slot b p st (s.withPayLine line x))
      ∧ (payStatus slot b p st (s.withPayLine line x)).pay = { s.pay with lines := s.pay.lines.set line x } := by
  have hsays := payStatus_says slot b p st (s.withPayLine line x)
  have honly := payStatus_only slot b p st (s.withPayLine line x)
  have hpay : Only [.pay] s (s.withPayLine line x) := withPayLine_only
  rw [toOwner_of_only hpay (by simp)] at hsays
  exact ⟨hsays.after_only hpay (by simp), (hpay.mono (by simp)).trans (honly.mono (by simp)), pay_of_only honly (by simp)⟩

end

theorem onRecord_onRecord (l : PayLine) (p : Nat) {f g : PayRecord → PayRecord} (h : ∀ x, (f x).payRef = x.payRef) :
    (l.onRecord p f).onRecord p g = l.onRecord p (fun x => g (f x)) := by
  simp only [PayLine.onRecord, List.map_map]
  congr 1
  refine List.map_congr_left fun x _ => ?_
  by_cases hx : x.payRef = p <;> simp [hx, h]

theorem readStage_of {k : Byte} {st : Stage} (h : k = 1 ∧ st = .cardWait ∨ k = 2 ∧ st = .pinWait ∨ k = 3 ∧ st = .online) :
    readStage k = some st ∧ st.statusCode = k + 1 := by
  rcases h with ⟨rfl, rfl⟩ | ⟨rfl, rfl⟩ | ⟨rfl, rfl⟩ <;> exact ⟨rfl, rfl⟩

theorem readStage_within {k : Byte} (h : within 1 3 k.toNat) : ∃ st, readStage k = some st := by
  unfold within at h
  have hk : k.toNat = 1 ∨ k.toNat = 2 ∨ k.toNat = 3 := by omega
  unfold readStage
  rcases hk with hk | hk | hk <;> rw [hk] <;> exact ⟨_, rfl⟩

theorem readStage_eq_none {k : Byte} (h : ¬ within 1 3 k.toNat) : readStage k = none := by
  unfold within at h
  unfold readStage
  split
  · omega
  · omega
  · omega
  · rfl

/-- A message that replaces a pay line and tells a status. -/
theorem message_status {i i' : Instr} {f : State → State} {s : State} {line : Fin 8} {slot : Fin 16} {b : Basket} {p : Nat}
    {st : Stage} {x : PayLine} (hq : s.quiet = true) (hx : ∀ s, exec i s = message (.pl line) i' f s)
    (hf : f (takeMessage (.pl line) i' s) = payStatus slot b p st ((takeMessage (.pl line) i' s).withPayLine line x)) :
    ∃ t, exec i s = .next t ∧ Effect [] (toOwner s b.owner (statusFrame slot b p st.statusCode)) (s.withPayLine line x) t := by
  have htake := takeMessage_only (.pl line) i' s
  have hpay : (takeMessage (.pl line) i' s).pay = s.pay := htake .pay (by simp)
  obtain ⟨hsays, honly, hp⟩ := payStatus_withPayLine (s := takeMessage (.pl line) i' s) (b := b) (line := line) slot p st x
  rw [hpay] at hp
  rw [toOwner_of_only htake (by simp)] at hsays
  exact message_pay hq hx hf (honly.mono (by simp)) hp hsays

/-- Settles O44, by the state of the record a message names. -/
theorem attemptsReportTheirProgress : Obligations.AttemptsReportTheirProgress := by
  unfold Obligations.AttemptsReportTheirProgress
  refine ⟨?_, ?_, ?_, ?_, ?_, ?_, ?_, ?_⟩
  · intro line p s rec b hq hrec hstate hb
    have htake := takeMessage_only (.pl line) (.accepted line p) s
    have hline := payLine_of_only htake (by simp) line
    have hparams : (takeMessage (.pl line) (.accepted line p) s).params = s.params := htake .params (by simp)
    have href := record_payRef hrec
    refine message_status (i := .accepted line p) (slot := rec.slot) (b := b) (p := p.toNat) (st := .none)
      (x := (s.payLine line).accepted p.toNat s.params.authorizationWait) hq (fun _ => rfl) ?_
    rw [onNamed_record (hline ▸ hrec), if_pos hstate, acceptRecord_eq ((basket_of_only htake (by simp) ..).trans hb), href, hline,
      hparams]
  · intro line p k stage s rec b hq hrec hstate hb hk
    have htake := takeMessage_only (.pl line) (.progress line p k) s
    have hline := payLine_of_only htake (by simp) line
    have href := record_payRef hrec
    obtain ⟨hread, hcode⟩ := readStage_of hk
    rw [← hcode]
    refine message_status (i := .progress line p k) (slot := rec.slot) (b := b) (p := p.toNat) (st := stage)
      (x := (s.payLine line).onRecord p.toNat (fun x => { x with stage := stage })) hq (fun s => show execProgress line p k s = _ from rfl) ?_
    simp only [hread]
    rw [onNamed_record (hline ▸ hrec), hstate]
    dsimp only
    rw [progressRecord_eq ((basket_of_only htake (by simp) ..).trans hb), href, hline]
  · intro line p k stage s rec b hq hrec hstate hb hk
    have htake := takeMessage_only (.pl line) (.progress line p k) s
    have hline := payLine_of_only htake (by simp) line
    have hparams : (takeMessage (.pl line) (.progress line p k) s).params = s.params := htake .params (by simp)
    have hpay : (takeMessage (.pl line) (.progress line p k) s).pay = s.pay := htake .pay (by simp)
    have href := record_payRef hrec
    obtain ⟨hread, hcode⟩ := readStage_of hk
    rw [← hcode]
    have hb' := (basket_of_only htake (by simp) rec.slot rec.ref).trans hb
    generalize hv : takeMessage (.pl line) (.progress line p k) s = v at htake hline hparams hpay hb'
    have hbind (o : Owner) (x : Frame) := toOwner_of_only htake (by simp) o x
    obtain ⟨hsays, honly, hp⟩ := payStatus_withPayLine (s := v) (b := b) (line := line) rec.slot rec.payRef .none
      ((v.payLine line).accepted rec.payRef v.params.authorizationWait)
    have haccept := acceptRecord_eq (line := line) hb'
    rw [← haccept] at hsays honly hp
    obtain ⟨hsays', honly', hp'⟩ := payStatus_withPayLine (s := acceptRecord line rec v) (b := b) (line := line) rec.slot rec.payRef stage
      (((acceptRecord line rec v).payLine line).onRecord rec.payRef (fun x => { x with stage := stage }))
    have hb'' := (basket_of_only honly (by simp) rec.slot rec.ref).trans hb'
    rw [← progressRecord_eq hb''] at hsays' honly' hp'
    rw [toOwner_of_only honly (by simp), hbind, href] at hsays'
    rw [hbind, href] at hsays
    rw [payLine_of_pay hp, hp, href, hline, hparams, hpay, Tab.set_set] at hp'
    refine message_pay (i := .progress line p k) hq (fun s => show execProgress line p k s = _ from rfl)
      (u := progressRecord line rec stage (acceptRecord line rec v)) ?_ ?_ ?_ ?_
    · simp only [hread]
      rw [hv, onNamed_record (hline ▸ hrec), hstate]
    · rw [hv]
      exact (honly.mono (by simp)).trans (honly'.mono (by simp))
    · rw [hp']
      have hrecords := onRecord_onRecord (s.payLine line) p.toNat (f := fun x => { x with state := .accepted })
        (g := fun x => { x with stage := stage }) fun _ => rfl
      simp only [PayLine.onRecord, PayLine.mk.injEq] at hrecords
      simp only [PayLine.accepted, PayLine.onRecord, hrecords]
    · rw [hv]
      exact hsays.trans hsays'
  · intro line p k s rec hq hrec hsent haccepted hk
    have hline (i : Instr) := payLine_of_only (takeMessage_only (.pl line) i s) (by simp) line
    obtain ⟨st, hst⟩ := readStage_within hk
    refine ⟨message_idle (i := .accepted line p) hq (fun _ => rfl) ?_,
      message_idle (i := .progress line p k) hq (fun s => show execProgress line p k s = _ from rfl) ?_⟩
    · rw [onNamed_record (hline _ ▸ hrec), if_neg hsent]
    · simp only [hst]
      rw [onNamed_record (hline _ ▸ hrec)]
      cases hs : rec.state <;> simp_all
  · intro line i p k body s hq hk h
    have hline (i : Instr) := payLine_of_only (takeMessage_only (.pl line) i s) (by simp) line
    obtain ⟨st, hst⟩ := readStage_within hk
    rcases h with ⟨rfl | rfl, hrec, hrev⟩ | rfl
    · exact message_stray (i := .accepted line p) hq (fun _ => rfl) (onNamed_stray (hline _ ▸ hrec) (hline _ ▸ hrev))
    · refine message_stray (i := .progress line p k) hq (fun s => show execProgress line p k s = _ from rfl) ?_
      simp only [hst]
      exact onNamed_stray (hline _ ▸ hrec) (hline _ ▸ hrev)
    · exact message_stray (i := .strayMessage line body) hq (fun _ => rfl) rfl
  · intro line p s rec hq hrec hstate
    have hline := payLine_of_only (takeMessage_only (.pl line) (.accepted line p) s) (by simp) line
    refine message_idle (i := .accepted line p) hq (fun _ => rfl) ?_
    rw [onNamed_record (hline ▸ hrec), if_neg (by simp [hstate])]
  · intro line p k s q hq hrec hrev hk
    have hline (i : Instr) := payLine_of_only (takeMessage_only (.pl line) i s) (by simp) line
    obtain ⟨st, hst⟩ := readStage_within hk
    refine ⟨message_idle (i := .accepted line p) hq (fun _ => rfl) (onNamed_reversal (hline _ ▸ hrec) (hline _ ▸ hrev)),
      message_idle (i := .progress line p k) hq (fun s => show execProgress line p k s = _ from rfl) ?_⟩
    simp only [hst]
    exact onNamed_reversal (hline _ ▸ hrec) (hline _ ▸ hrev)
  · intro line p k s hq hk
    refine message_stray (i := .progress line p k) hq (fun s => show execProgress line p k s = _ from rfl) ?_
    simp only [readStage_eq_none hk]

end Sys2Proof.Machine
end

section
/-! PROOFS. The ends of an attempt: the exchange ends, a reversal may be needed, the basket is dealt with, and the line goes on
with the next reversal; and the statement about approvals (R98, R101, R102, R106). -/

namespace Sys2Proof.Machine

-- ## An exchange ended, and the line going on

/-- The pay line of an attempt that has ended. -/
def PayLine.ended (l : PayLine) (p : Nat) (f : PayRecord → PayRecord) : PayLine := { l.onRecord p f with exchange := none }

theorem ends_eq (line : Fin 8) (p : Nat) (f : PayRecord → PayRecord) (s : State) :
    endExchange line (setRecord line p f s) = s.withPayLine line ((s.payLine line).ended p f) := by
  rw [endExchange, setRecord, onPayLine_onPayLine, onPayLine_eq]
  rfl

theorem ended_reversal (l : PayLine) (p : Nat) (f : PayRecord → PayRecord) (q : Nat) : (l.ended p f).reversal q = l.reversal q := rfl

/-- What the pay line's own work leaves, with a line whose exchange has ended. -/
structure Ends (line : Fin 8) (x : PayLine) (doubt : Line → List Frame) (s u : State) : Prop where
  tells : Says doubt s u
  only : Only [.pay, .lines] s u
  pay : u.pay = { s.pay with lines := s.pay.lines.set line x }
  ended : x.exchange = none

section
variable {line : Fin 8} {x : PayLine} {doubt told : Line → List Frame} {s u w : State} {bs : List Block}

theorem Ends.of_ended (line : Fin 8) (p : Nat) (f : PayRecord → PayRecord) (s : State) :
    Ends line ((s.payLine line).ended p f) nothing s (endExchange line (setRecord line p f s)) := by
  rw [ends_eq]
  exact ⟨.of_only withPayLine_only (by simp), withPayLine_only.mono (by simp), rfl, rfl⟩

/-- A reversal that is needed for an approval no basket waits for. -/
theorem Ends.needs {q : Reversal} {queue : List Reversal} (h : Ends line x nothing s u) (hbasket : q.basket = none)
    (hq : x.reversal q.payRef = none)
    (hroom : x.queue.length < 4 ∧ queue = x.queue ++ [q] ∧ doubt = nothing
      ∨ 4 ≤ x.queue.length ∧ queue = x.queue ∧ doubt = on .ol [doubtFrame line q 2 none s]) :
    Ends line { x with queue := queue } doubt s (needReversal line q u) := by
  have hx : u.payLine line = x := payLine_of_pay h.pay
  have hframe : doubtFrame line q 2 none u = doubtFrame line q 2 none s := by
    rw [doubtFrame, doubtFrame, (h.only .params (by simp) : u.params = s.params)]
  obtain ⟨hsays, honly, hpay⟩ := needReversal_untied (line := line) (s := u) (queue := queue) (doubt := doubt) hbasket
    (by rw [hx]; exact hq) (by rw [hx, hframe]; exact hroom)
  refine ⟨nothing_after doubt ▸ h.tells.trans hsays, h.only.trans honly, ?_, h.ended⟩
  rw [hpay, hx, h.pay, Tab.set_set]

theorem Ends.basket (h : Ends line x doubt s u) (slot : Fin 16) (ref : Nat) : u.basket slot ref = s.basket slot ref :=
  basket_of_only h.only (by simp) slot ref

/-- The line goes on with the next reversal, once the basket has been dealt with. -/
theorem Ends.goesOn (h : Ends line x doubt s u) (hw : Only bs u w) (htold : Says told u w) (hb : .pay ∉ bs ∧ .params ∉ bs) :
    Says (after doubt (after told (reverseOf line x.queue))) s (pump line w)
      ∧ (pump line w).pay = { s.pay with lines := s.pay.lines.set line (x.resumed s.params.reversalInterval) } := by
  have hpay : w.pay = { s.pay with lines := s.pay.lines.set line x } := (hw .pay hb.1).trans h.pay
  have hparams : w.params = s.params := (hw .params hb.2).trans (h.only .params (by simp))
  obtain ⟨hsays, hp⟩ := pump_resumes (payLine_of_pay hpay) h.ended
  refine ⟨h.tells.trans (htold.trans hsays), ?_⟩
  rw [hp, hpay, hparams, Tab.set_set]

end

/-- The basket judged as for a decline. -/
theorem Ends.judged {line : Fin 8} {x : PayLine} {doubt : Line → List Frame} {s u : State} (h : Ends line x doubt s u)
    (slot : Fin 16) (b : Basket) (p : Nat) (o : PayOutcome) (reason : Nat) :
    ∃ told, Says (after doubt (after told (reverseOf line x.queue))) s (pump line (judgeAttempt slot b p o reason u))
      ∧ (pump line (judgeAttempt slot b p o reason u)).pay
        = { s.pay with lines := s.pay.lines.set line (x.resumed s.params.reversalInterval) }
      ∧ Judged slot b p o reason told s (pump line (judgeAttempt slot b p o reason u))
      ∧ Only [.baskets, .engine, .sales, .lines, .pay] s (pump line (judgeAttempt slot b p o reason u)) := by
  obtain ⟨told, htold, hjudged⟩ := judgeAttempt_judges slot b p o reason u
  have honly := judgeAttempt_only slot b p o reason u
  have hpump := pump_only line (judgeAttempt slot b p o reason u)
  obtain ⟨hsays, hpay⟩ := h.goesOn honly htold (by simp)
  exact ⟨told, hsays, hpay, hjudged.congr h.only.symm hpump (by simp) (by simp),
    (h.only.mono (by simp)).trans ((honly.mono (by simp)).trans (hpump.mono (by simp)))⟩

/-- The basket brought to its end. -/
theorem Ends.endsBasket {line : Fin 8} {x : PayLine} {doubt : Line → List Frame} {s u : State} (h : Ends line x doubt s u)
    (slot : Fin 16) (b : Basket) (why : EndReason) :
    Says (after doubt (reverseOf line x.queue)) s (pump line (endBasket slot b why u))
      ∧ (pump line (endBasket slot b why u)).pay
        = { s.pay with lines := s.pay.lines.set line (x.resumed s.params.reversalInterval) }
      ∧ (pump line (endBasket slot b why u)).baskets = s.baskets.set slot (some (b.ended why))
      ∧ (pump line (endBasket slot b why u)).sales = released b s
      ∧ (pump line (endBasket slot b why u)).engine
        = { s.engine with queue := s.engine.queue ++ [.releaseBasket slot b.ref b.screening] }
      ∧ Only [.baskets, .engine, .sales, .lines, .pay] s (pump line (endBasket slot b why u)) := by
  have honly := endBasket_only slot b why u
  have hpump := pump_only line (endBasket slot b why u)
  obtain ⟨hsays, hpay⟩ := h.goesOn honly (.of_only honly (by simp)) (by simp)
  rw [nothing_after] at hsays
  refine ⟨hsays, hpay, (hpump .baskets (by simp)).trans ?_, (hpump .sales (by simp)).trans ?_, (hpump .engine (by simp)).trans ?_,
    (h.only.mono (by simp)).trans ((honly.mono (by simp)).trans (hpump.mono (by simp)))⟩
  · rw [endBasket_baskets, (h.only .baskets (by simp) : u.baskets = s.baskets)]
  · rw [endBasket_sales, released_congr (h.only .sales (by simp))]
  · rw [endBasket_engine, (h.only .engine (by simp) : u.engine = s.engine)]

-- ## An APPROVED (R98, R101, R102)

/-- In `v`, a message of `s` taken from its line, the command `i` runs as `f` does. -/
def Taken (i : Instr) (f : State → State) (s v : State) : Prop :=
  Only [.lines] s v ∧ ∀ {u : State} {bs : List Block} {out : Line → List Frame} {Q : State → Prop}, f v = u →
    Only (.lines :: .choice :: bs) v u → Says out v u → .latched ∉ bs → (∀ t, Only [.lines, .latched, .choice] u t → Q t) →
    ∃ t, exec i s = .next t ∧ Effect bs out s t ∧ Q t

section
variable {line : Fin 8} {p : BitVec 16} {code : List Byte} {amount : BitVec 32} {a : Nat} {s : State} {rec : PayRecord}

/-- A message on a state in which nothing is due. -/
theorem message_taken {i i' : Instr} {l : Line} {f g : State → State} (hq : s.quiet = true) (hx : ∀ s, exec i s = message l i' f s)
    (hf : ∀ v, Only [.lines] s v → f v = g v) : ∃ v, Taken i g s v :=
  ⟨_, takeMessage_only l i' s, fun hu ho hs hl hQ => message_does hq hx ((hf _ (takeMessage_only l i' s)).trans hu) ho hs hl hQ⟩

/-- An APPROVED well formed that names a record. -/
theorem approved_taken (hq : s.quiet = true) (hlen : code.length = 6) (hcode : ∀ x ∈ code, 0x20 ≤ x.toNat ∧ x.toNat ≤ 0x7E)
    (ha : readAmount amount = some a) (hrec : (s.payLine line).record p.toNat = some rec) :
    ∃ v, Taken (.approved line p code amount) (takeApproved line code a rec) s v := by
  refine message_taken hq (fun s => show execApproved line p code amount s = _ from rfl) fun v hv => ?_
  have hline := payLine_of_only hv (by simp) line
  simp only [ha]
  rw [if_neg (by simp [hlen, printable_of_range hcode]), if_neg (by simp [hline, hrec]), onNamed_record (hline ▸ hrec)]

end

/-- An attempt that ends by an approval no basket waits for. -/
theorem Ends.of_approval {line : Fin 8} {p : Nat} {code : List Byte} {a : Nat} {s v : State} {queue : List Reversal}
    {doubt : Line → List Frame} (hv : Only [.lines] s v) (f : PayRecord → PayRecord) (hrev : (s.payLine line).reversal p = none)
    (hroom : (s.payLine line).queue.length < 4 ∧ queue = (s.payLine line).queue ++ [⟨p, a, some code, 0, none⟩] ∧ doubt = nothing
      ∨ 4 ≤ (s.payLine line).queue.length ∧ queue = (s.payLine line).queue
        ∧ doubt = on .ol [doubtFrame line ⟨p, a, some code, 0, none⟩ 2 none s]) :
    Ends line { (s.payLine line).ended p f with queue := queue } doubt v
      (needReversal line ⟨p, a, some code, 0, none⟩ (endExchange line (setRecord line p f v))) := by
  have hline := payLine_of_only hv (by simp) line
  have hframe (q : Reversal) : doubtFrame line q 2 none v = doubtFrame line q 2 none s := by
    rw [doubtFrame, doubtFrame, (hv .params (by simp) : v.params = s.params)]
  rw [← hline]
  exact (Ends.of_ended line p f v).needs rfl (hline ▸ hrev) (by rw [hframe, hline]; exact hroom)

/-- The commit that an approval begins. -/
def approvedCommit (line : Fin 8) (r : PayRecord) (code : List Byte) (b : Basket) (s : State) : State :=
  beginCommit r.slot b (some ⟨line, r.payRef, code⟩) none (payResult r.slot b r.payRef .approved {} s)

section
variable (line : Fin 8) (r : PayRecord) (code : List Byte) (b : Basket) (s : State)

theorem approvedCommit_only : Only [.sales, .baskets, .engine, .lines] s (approvedCommit line r code b s) :=
  ((payResult_only _ _ _ _ _ _).mono (by simp)).trans ((beginCommit_only _ _ _ _ _).mono (by simp))

theorem approvedCommit_says : Says (toOwner s b.owner (resultFrame r.slot b r.payRef .approved 0 0 0 0)) s
    (approvedCommit line r code b s) :=
  (payResult_says r.slot b r.payRef .approved {} s).then_only (beginCommit_only _ _ _ _ _) (by simp)

theorem approvedCommit_baskets : (approvedCommit line r code b s).baskets = s.baskets.set r.slot (some { b with
    state := .ending, endReason := some .committed, hold := .absent }) := by
  rw [← (payResult_only r.slot b r.payRef .approved {} s .baskets (by simp) : State.baskets _ = s.baskets)]
  rfl

theorem approvedCommit_number : (payResult r.slot b r.payRef .approved {} s).freeNumber = s.freeNumber := by
  have h := payResult_only r.slot b r.payRef .approved {} s
  exact freeNumber_congr (h .sales (by simp)) (h .print (by simp))

theorem approvedCommit_sales : (approvedCommit line r code b s).sales = { s.sales with
    next := if s.freeNumber = 999999 then 1 else s.freeNumber + 1
    commits := s.sales.commits ++ [⟨r.slot, b.ref, s.freeNumber, some ⟨line, r.payRef, code⟩, none⟩] } := by
  rw [← approvedCommit_number r b s, ← (payResult_only r.slot b r.payRef .approved {} s .sales (by simp) : State.sales _ = s.sales)]
  rfl

theorem approvedCommit_engine : (approvedCommit line r code b s).engine = { s.engine with
    queue := s.engine.queue ++ [.sellBasket r.slot b.ref b.screening s.freeNumber] } := by
  rw [← approvedCommit_number r b s, ← (payResult_only r.slot b r.payRef .approved {} s .engine (by simp) : State.engine _ = s.engine)]
  rfl

end

-- ## A late approval (R102)

theorem storeCode_only (line : Fin 8) (p : Nat) (code : List Byte) (s : State) : Only [.pay] s (storeCode line p code s) :=
  (only_storeCode (by simp)).2 (Only.refl _ s)

theorem storeCode_pay (line : Fin 8) (p : Nat) (code : List Byte) (s : State) : (storeCode line p code s).pay = { s.pay with
    lines := s.pay.lines.set line ((s.payLine line).onRecord p (fun y => { y with code := some (y.code.getD code) }))
    doubts := s.pay.doubts.map (fun d => if d.payRef = p then { d with code := some code } else d) } := by
  have hcode : (fun y : PayRecord => { y with code := match y.code with
      | none => some code
      | some old => some old }) = fun y => { y with code := some (y.code.getD code) } := by
    funext y
    cases y.code <;> rfl
  rw [← hcode]
  rfl

/-- The three ways of a reversal that an approval needs. -/
theorem needReversal_approved {line : Fin 8} {s : State} {p a : Nat} {code : List Byte} {queue : List Reversal}
    {doubt : Line → List Frame}
    (h : (s.payLine line).reversal p ≠ none ∧ doubt = nothing
        ∧ queue = (s.payLine line).queue.map (fun y => if y.payRef = p then { y with code := some code, amount := a } else y)
      ∨ (s.payLine line).reversal p = none ∧ (s.payLine line).queue.length < 4
        ∧ queue = (s.payLine line).queue ++ [⟨p, a, some code, 0, none⟩] ∧ doubt = nothing
      ∨ (s.payLine line).reversal p = none ∧ 4 ≤ (s.payLine line).queue.length
        ∧ queue = (s.payLine line).queue ∧ doubt = on .ol [doubtFrame line ⟨p, a, some code, 0, none⟩ 2 none s]) :
    Says doubt s (needReversal line ⟨p, a, some code, 0, none⟩ s)
      ∧ Only [.pay, .lines] s (needReversal line ⟨p, a, some code, 0, none⟩ s)
      ∧ (needReversal line ⟨p, a, some code, 0, none⟩ s).pay
        = { s.pay with lines := s.pay.lines.set line { s.payLine line with queue := queue } } := by
  rcases h with ⟨hrev, rfl, rfl⟩ | ⟨hrev, hroom⟩ | ⟨hrev, hroom⟩
  · rw [needReversal_updates hrev]
    refine ⟨.of_only withPayLine_only (by simp), withPayLine_only.mono (by simp), ?_⟩
    simp only [State.withPayLine, Option.isSome_some, and_true]
  · exact needReversal_untied rfl hrev (.inl hroom)
  · exact needReversal_untied rfl hrev (.inr hroom)

/-- A line with an exchange in flight goes on with it; one without sends the head of its queue. -/
theorem pump_says {line : Fin 8} {s : State} {x : PayLine} (hx : s.payLine line = x) :
    Says (if x.exchange = none then reverseOf line x.queue else nothing) s (pump line s)
      ∧ (pump line s).pay = { s.pay with
          lines := s.pay.lines.set line (if x.exchange = none then x.resumed s.params.reversalInterval else x) } := by
  by_cases he : x.exchange = none
  · rw [if_pos he, if_pos he]
    exact pump_resumes hx he
  · rw [if_neg he, if_neg he, pump_waits (hx ▸ he), ← hx]
    exact ⟨.refl s, (congrArg State.pay (withPayLine_self (s := s) (i := line))).symm⟩

/-- An APPROVED that comes late. -/
theorem late_taken {line : Fin 8} {p : BitVec 16} {code : List Byte} {amount : BitVec 32} {a : Nat} {s : State}
    (hq : s.quiet = true) (hlen : code.length = 6) (hcode : ∀ x ∈ code, 0x20 ≤ x.toNat ∧ x.toNat ≤ 0x7E)
    (ha : readAmount amount = some a)
    (h : (∃ rec, (s.payLine line).record p.toNat = some rec ∧ (rec.state = .timedOut ∨ rec.state = .aborted
        ∨ rec.state = .declined ∨ rec.state = .approved ∧ a ≠ rec.amount))
      ∨ (s.payLine line).record p.toNat = none ∧ (s.payLine line).reversal p.toNat ≠ none) :
    ∃ v, Taken (.approved line p code amount) (lateApproval line p.toNat code a) s v := by
  refine message_taken hq (fun s => show execApproved line p code amount s = _ from rfl) fun v hv => ?_
  have hline := payLine_of_only hv (by simp) line
  simp only [ha]
  rw [if_neg (by simp [hlen, printable_of_range hcode])]
  rcases h with ⟨rec, hrec, hstate⟩ | ⟨hrec, hrev⟩
  · rw [if_neg (by simp [hline, hrec]), onNamed_record (hline ▸ hrec), ← record_payRef hrec]
    rcases hstate with h | h | h | ⟨h, hne⟩
    · simp only [takeApproved, h]
    · simp only [takeApproved, h]
    · simp only [takeApproved, h]
    · simp only [takeApproved, h, if_neg hne]
  · rw [if_pos (by simp [hline, hrec, Option.isSome_iff_ne_none, hrev])]

/-- Settles O45, by the state of the record that the approval names. -/
theorem approvalsCommitOrReverse : Obligations.ApprovalsCommitOrReverse := by
  unfold Obligations.ApprovalsCommitOrReverse
  refine ⟨?_, ?_, ?_, ?_, ?_, ?_, ?_⟩
  · intro line p code amount s rec b n hq hrec hstate hlen hcode ha hb hn
    subst hn
    have href := record_payRef hrec
    obtain ⟨v, hv, run⟩ := approved_taken hq hlen hcode ha hrec
    have hline := payLine_of_only hv (by simp) line
    have hends := Ends.of_ended line p.toNat (fun x => { x with state := .approved, code := some code }) v
    generalize hu : endExchange line (setRecord line p.toNat (fun x => { x with state := .approved, code := some code }) v) = u at hends
    have hub : u.basket rec.slot rec.ref = some b := (hends.basket ..).trans ((basket_of_only hv (by simp) ..).trans hb)
    have hsu : Only [.pay, .lines] s u := (hv.mono (by simp)).trans hends.only
    have honly := approvedCommit_only line rec code b u
    obtain ⟨hsays, hpay⟩ := hends.goesOn honly (approvedCommit_says line rec code b u) (by simp)
    rw [toOwner_of_only hsu (by simp), nothing_after, href, hline] at hsays
    rw [(hv .pay (by simp) : v.pay = s.pay), (hv .params (by simp) : v.params = s.params), hline] at hpay
    have hpump := pump_only line (approvedCommit line rec code b u)
    have htake : takeApproved line code rec.amount rec v = pump line (approvedCommit line rec code b u) := by
      have happrove : approveRecord line rec code v = pump line (approvedCommit line rec code b u) := by
        unfold approveRecord
        rw [href]
        dsimp only
        rw [hu, withBasket_some hub, approvedCommit, href]
      rcases hstate with h | h <;> simp only [takeApproved, h, if_true, happrove]
    obtain ⟨t, hx, heffect, hQ⟩ := run (bs := [.baskets, .sales, .engine, .pay])
      (Q := fun t => Only [.lines, .latched, .choice] (pump line (approvedCommit line rec code b u)) t) htake
      ((hends.only.mono (by simp)).trans ((honly.mono (by simp)).trans (hpump.mono (by simp)))) hsays (by simp) fun t ht => ht
    have hwt : Only [.pay, .lines, .latched, .choice] (approvedCommit line rec code b u) t :=
      (hpump.mono (by simp)).trans (hQ.mono (by simp))
    have hnumber := freeNumber_congr (hsu .sales (by simp)) (hsu .print (by simp))
    refine ⟨t, hx, heffect, (hQ .pay (by simp)).trans hpay, (hwt .baskets (by simp)).trans ?_, (hwt .sales (by simp)).trans ?_,
      (hwt .engine (by simp)).trans ?_⟩
    · rw [approvedCommit_baskets, (hsu .baskets (by simp) : u.baskets = s.baskets)]
    · rw [approvedCommit_sales, (hsu .sales (by simp) : u.sales = s.sales), hnumber, href]
    · rw [approvedCommit_engine, (hsu .engine (by simp) : u.engine = s.engine), hnumber]
  · intro line p code amount a s rec hq hrec hstate hlen hcode ha hne hroom hrev
    have href := record_payRef hrec
    obtain ⟨v, hv, run⟩ := approved_taken hq hlen hcode ha hrec
    have hends := Ends.of_approval (a := a) (code := code) (doubt := nothing) hv
      (fun x => { x with state := .declined, reason := some 0, code := some code }) hrev (.inl ⟨hroom, rfl, rfl⟩)
    generalize hu : needReversal line ⟨p.toNat, a, some code, 0, none⟩ (endExchange line (setRecord line p.toNat
      (fun x => { x with state := .declined, reason := some 0, code := some code }) v)) = u at hends
    have honly : Only [.baskets, .engine, .sales, .lines] u (withBasket rec (fun b => judgeAttempt rec.slot b p.toNat .declined 0) u) := by
      simp
    obtain ⟨told, htold⟩ : ∃ told, Says told u (withBasket rec (fun b => judgeAttempt rec.slot b p.toNat .declined 0) u) := by
      unfold withBasket
      cases u.attemptBasket rec with
      | none => exact ⟨_, .refl u⟩
      | some b =>
        obtain ⟨told, htold, -⟩ := judgeAttempt_judges rec.slot b p.toNat .declined 0 u
        exact ⟨told, htold⟩
    generalize hw : withBasket rec (fun b => judgeAttempt rec.slot b p.toNat .declined 0) u = w at honly htold
    obtain ⟨hsays, hpay⟩ := hends.goesOn honly htold (by simp)
    rw [(hv .pay (by simp) : v.pay = s.pay), (hv .params (by simp) : v.params = s.params)] at hpay
    have htake : takeApproved line code a rec v = pump line w := by
      have hmismatch : mismatchRecord line rec code a v = pump line w := by
        unfold mismatchRecord
        rw [href]
        dsimp only
        rw [hu, hw]
      rcases hstate with h | h <;> simp only [takeApproved, h, if_neg hne, hmismatch]
    obtain ⟨t, hx, heffect, hQ⟩ := run (bs := [.baskets, .sales, .engine, .pay])
      (Q := fun t => Only [.lines, .latched, .choice] (pump line w) t) htake
      ((hends.only.mono (by simp)).trans ((honly.mono (by simp)).trans ((pump_only line w).mono (by simp)))) hsays (by simp) fun t ht => ht
    exact ⟨t, hx, heffect.only.mono (by simp), payLine_of_pay ((hQ .pay (by simp)).trans hpay)⟩
  · intro line p code amount a s rec b q queue doubt hq hrec hstate hlen hcode ha hne hrev hb hqdef hroom
    subst hqdef
    have href := record_payRef hrec
    obtain ⟨v, hv, run⟩ := approved_taken hq hlen hcode ha hrec
    have hends := Ends.of_approval hv (fun x => { x with state := .declined, reason := some 0, code := some code }) hrev hroom
    generalize hu : needReversal line ⟨p.toNat, a, some code, 0, none⟩ (endExchange line (setRecord line p.toNat
      (fun x => { x with state := .declined, reason := some 0, code := some code }) v)) = u at hends
    have hub : u.basket rec.slot rec.ref = some b := (hends.basket ..).trans ((basket_of_only hv (by simp) ..).trans hb)
    obtain ⟨told, hsays, hpay, hjudged, honly⟩ := hends.judged rec.slot b p.toNat .declined 0
    rw [(hv .pay (by simp) : v.pay = s.pay), (hv .params (by simp) : v.params = s.params)] at hpay
    have htake : takeApproved line code a rec v = pump line (judgeAttempt rec.slot b p.toNat .declined 0 u) := by
      have hmismatch : mismatchRecord line rec code a v = pump line (judgeAttempt rec.slot b p.toNat .declined 0 u) := by
        unfold mismatchRecord
        rw [href]
        dsimp only
        rw [hu, withBasket_some hub]
      rcases hstate with h | h <;> simp only [takeApproved, h, if_neg hne, hmismatch]
    obtain ⟨t, hx, heffect, hQ⟩ := run (bs := [.baskets, .sales, .engine, .pay])
      (Q := fun t => Only [.lines, .latched, .choice] (pump line (judgeAttempt rec.slot b p.toNat .declined 0 u)) t) htake
      (honly.mono (by simp)) hsays (by simp) fun t ht => ht
    exact ⟨t, told, hx, heffect, hjudged.congr hv.symm hQ (by simp) (by simp), (hQ .pay (by simp)).trans hpay⟩
  · intro line p code amount a s rec b q queue doubt hq hrec hstate hlen hcode ha hrev hb hqdef hroom
    subst hqdef
    have href := record_payRef hrec
    obtain ⟨v, hv, run⟩ := approved_taken hq hlen hcode ha hrec
    have hends := Ends.of_approval hv (fun x => { x with state := .aborted, code := some code }) hrev hroom
    generalize hu : needReversal line ⟨p.toNat, a, some code, 0, none⟩ (endExchange line (setRecord line p.toNat
      (fun x => { x with state := .aborted, code := some code }) v)) = u at hends
    have hub : u.basket rec.slot rec.ref = some b := (hends.basket ..).trans ((basket_of_only hv (by simp) ..).trans hb)
    obtain ⟨hsays, hpay, hbaskets, hsales, hengine, honly⟩ := hends.endsBasket rec.slot b .cancelled
    rw [(hv .pay (by simp) : v.pay = s.pay), (hv .params (by simp) : v.params = s.params)] at hpay
    have htake : takeApproved line code a rec v = pump line (endBasket rec.slot b .cancelled u) := by
      simp only [takeApproved, hstate]
      unfold abortApproved
      rw [href]
      dsimp only
      rw [hu, withBasket_some hub]
    obtain ⟨t, hx, heffect, hQ⟩ := run (bs := [.baskets, .sales, .engine, .pay])
      (Q := fun t => Only [.lines, .latched, .choice] (pump line (endBasket rec.slot b .cancelled u)) t) htake
      (honly.mono (by simp)) hsays (by simp) fun t ht => ht
    refine ⟨t, hx, heffect, (hQ .baskets (by simp)).trans (hbaskets.trans ?_), (hQ .sales (by simp)).trans (hsales.trans ?_),
      (hQ .engine (by simp)).trans (hengine.trans ?_), (hQ .pay (by simp)).trans hpay⟩
    · rw [(hv .baskets (by simp) : v.baskets = s.baskets)]
    · exact released_congr (hv .sales (by simp))
    · rw [(hv .engine (by simp) : v.engine = s.engine)]
  · intro line p code amount a s q queue doubt x hq hlen hcode ha hlate hqdef hroom hx
    subst hqdef
    obtain ⟨v, hv, run⟩ := late_taken hq hlen hcode ha hlate
    have hline := payLine_of_only hv (by simp) line
    have hstored := storeCode_only line p.toNat code v
    have hspay := storeCode_pay line p.toNat code v
    have htake : lateApproval line p.toNat code a v
      = pump line (needReversal line ⟨p.toNat, a, some code, 0, none⟩ (storeCode line p.toNat code v)) := rfl
    generalize storeCode line p.toNat code v = u at hstored hspay htake
    have huline : u.payLine line = (s.payLine line).onRecord p.toNat (fun y => { y with code := some (y.code.getD code) }) := by
      rw [State.payLine, hspay, hline]
      exact Tab.get_set_self ..
    have hframe (q : Reversal) : doubtFrame line q 2 none u = doubtFrame line q 2 none s := by
      rw [doubtFrame, doubtFrame, (hstored .params (by simp) : u.params = v.params), (hv .params (by simp) : v.params = s.params)]
    obtain ⟨hneeds, honly, hpay⟩ := needReversal_approved (line := line) (s := u) (queue := queue) (doubt := doubt) (p := p.toNat) (a := a)
      (code := code) (by rw [huline, hframe]; exact hroom)
    generalize needReversal line ⟨p.toNat, a, some code, 0, none⟩ u = w at hneeds honly hpay htake
    have hwline : w.payLine line = x := (payLine_of_pay hpay).trans (by rw [huline, hx])
    obtain ⟨hpump, hppay⟩ := pump_says hwline
    obtain ⟨t, hex, heffect, hQ⟩ := run (bs := [.pay]) (Q := fun t => Only [.lines, .latched, .choice] (pump line w) t) htake
      ((hstored.mono (by simp)).trans ((honly.mono (by simp)).trans ((pump_only line w).mono (by simp))))
      ((hneeds.trans hpump).after_only hstored (by simp)) (by simp) fun t ht => ht
    have hexchange : x.exchange = (s.payLine line).exchange := by rw [hx]; rfl
    have hqueue : x.queue = queue := by rw [hx]
    rw [hexchange, hqueue] at heffect
    refine ⟨t, hex, heffect, (hQ .pay (by simp)).trans ?_⟩
    have hparams : w.params = s.params :=
      (honly .params (by simp)).trans ((hstored .params (by simp)).trans (hv .params (by simp)))
    rw [hppay, hexchange, hparams, hpay, hspay, (hv .pay (by simp) : v.pay = s.pay), Tab.set_set, Tab.set_set]
  · intro line p code amount s rec hq hrec hstate hlen hcode ha
    obtain ⟨v, hv, run⟩ := approved_taken hq hlen hcode ha hrec
    obtain ⟨t, hx, heffect, -⟩ := run (bs := []) (out := nothing) (Q := fun _ => True) (u := v)
      (by simp only [takeApproved, hstate, if_true]) (Only.refl _ _) (.refl _) (by simp) fun _ _ => trivial
    exact ⟨t, hx, heffect⟩
  · intro line p code amount s hq h
    refine message_stray (i := .approved line p code amount) hq (fun s => show execApproved line p code amount s = _ from rfl) ?_
    have hline := payLine_of_only (takeMessage_only (.pl line) (.approved line p code amount) s) (by simp) line
    have hbad {x : Byte} (hx : ¬ within 0x20 0x7E x.toNat) : printable x = false := by
      simpa [printable, within] using hx
    cases ha : readAmount amount with
    | none => rfl
    | some a =>
      dsimp only
      by_cases hform : code.length ≠ 6 ∨ (!code.all printable) = true
      · rw [if_pos hform]
      · rw [if_neg hform]
        rcases h with h | h | ⟨x, hx, hno⟩ | ⟨hrec, hrev⟩
        · rw [ha] at h
          cases h
        · exact absurd (.inl h) hform
        · refine absurd (.inr ?_) hform
          rw [Bool.not_eq_true', List.all_eq_false]
          exact ⟨x, hx, by simp [hbad hno]⟩
        · rw [if_neg (by simp [hline, hrev]), onNamed_stray (hline ▸ hrec) (hline ▸ hrev)]

end Sys2Proof.Machine
end

section
/-! PROOFS. The statement about declines and aborts (R99, R101, R102, R109). -/

namespace Sys2Proof.Machine

section
variable {bs cs : List Block} {out : Line → List Frame} {s t : State}

theorem Effect.mono (h : Effect bs out s t) (hb : bs ⊆ cs) : Effect cs out s t :=
  ⟨h.only.mono (List.cons_subset_cons _ (List.cons_subset_cons _ (List.cons_subset_cons _ hb))), h.sends, h.latches⟩

/-- A piece that stays as it was need not be named. -/
theorem Effect.without {b : Block} (h : Effect (b :: bs) out s t) (hb : b.same s t) : Effect bs out s t := by
  refine ⟨fun c hc => ?_, h.sends, h.latches⟩
  by_cases he : c = b
  · exact he ▸ hb
  · exact h.only c (by simp at hc ⊢; exact ⟨hc.1, hc.2.1, hc.2.2.1, he, hc.2.2.2⟩)

end

section
variable {line : Fin 8} {p : BitVec 16} {k : Byte} {i : Instr} {n : Nat} {s : State} {rec : PayRecord}

theorem reason_within (h : within 1 15 k.toNat) : ¬ (k.toNat = 0 ∨ 15 < k.toNat) := by
  unfold within at h
  omega

/-- A DECLINED or an ABORTED for an attempt in SENT or ACCEPTED. -/
theorem decline_taken (hq : s.quiet = true)
    (h : i = .declined line p k ∧ n = k.toNat ∧ within 1 15 k.toNat ∨ i = .aborted line p ∧ n = 0)
    (hrec : (s.payLine line).record p.toNat = some rec) (hstate : rec.state = .sent ∨ rec.state = .accepted) :
    ∃ v, Taken i (declineRecord line rec n) s v := by
  rcases h with ⟨rfl, rfl, hk⟩ | ⟨rfl, rfl⟩
  · refine message_taken hq (fun s => show execDeclined line p k s = _ from rfl) fun v hv => ?_
    dsimp only
    rw [if_neg (reason_within hk), onNamed_record (payLine_of_only hv (by simp) line ▸ hrec)]
    rcases hstate with h | h <;> simp only [h]
  · refine message_taken hq (fun s => show execAborted line p s = _ from rfl) fun v hv => ?_
    rw [onNamed_record (payLine_of_only hv (by simp) line ▸ hrec)]
    rcases hstate with h | h <;> simp only [h]

/-- The same for an attempt that is being aborted. -/
theorem aborted_taken {f : PayRecord → PayRecord} (hq : s.quiet = true)
    (h : i = .declined line p k ∧ within 1 15 k.toNat ∧ f = (fun x => { x with state := .declined, reason := some k.toNat })
      ∨ i = .aborted line p ∧ f = (fun x => { x with state := .aborted }))
    (hrec : (s.payLine line).record p.toNat = some rec) (hstate : rec.state = .aborting) :
    ∃ v, Taken i (abortAnswered line rec f) s v := by
  rcases h with ⟨rfl, hk, rfl⟩ | ⟨rfl, rfl⟩
  · refine message_taken hq (fun s => show execDeclined line p k s = _ from rfl) fun v hv => ?_
    dsimp only
    rw [if_neg (reason_within hk), onNamed_record (payLine_of_only hv (by simp) line ▸ hrec)]
    simp only [hstate]
  · refine message_taken hq (fun s => show execAborted line p s = _ from rfl) fun v hv => ?_
    rw [onNamed_record (payLine_of_only hv (by simp) line ▸ hrec)]
    simp only [hstate]

/-- What a decline does: the basket judged, the record final, and the line going on. -/
theorem decline_does {b : Basket} (hq : s.quiet = true)
    (h : i = .declined line p k ∧ n = k.toNat ∧ within 1 15 k.toNat ∨ i = .aborted line p ∧ n = 0)
    (hrec : (s.payLine line).record p.toNat = some rec) (hstate : rec.state = .sent ∨ rec.state = .accepted)
    (hb : s.basket rec.slot rec.ref = some b) :
    ∃ t told, exec i s = .next t
      ∧ Effect [.engine, .baskets, .sales, .pay] (after told (reverseOf line (s.payLine line).queue)) s t
      ∧ Judged rec.slot b p.toNat .declined n told s t
      ∧ t.pay = { s.pay with
          lines := s.pay.lines.set line
            (((s.payLine line).onRecord p.toNat (fun x => { x with state := .declined, reason := some n })).resumed
              s.params.reversalInterval) } := by
  have href := record_payRef hrec
  obtain ⟨v, hv, run⟩ := decline_taken hq h hrec hstate
  have hline := payLine_of_only hv (by simp) line
  have hends := Ends.of_ended line p.toNat (fun x => { x with state := .declined, reason := some n }) v
  generalize hu : endExchange line (setRecord line p.toNat (fun x => { x with state := .declined, reason := some n }) v) = u at hends
  have hub : u.basket rec.slot rec.ref = some b := (hends.basket ..).trans ((basket_of_only hv (by simp) ..).trans hb)
  obtain ⟨told, hsays, hpay, hjudged, honly⟩ := hends.judged rec.slot b p.toNat .declined n
  rw [(hv .pay (by simp) : v.pay = s.pay), (hv .params (by simp) : v.params = s.params), hline] at hpay
  rw [nothing_after, hline] at hsays
  have htake : declineRecord line rec n v = pump line (judgeAttempt rec.slot b p.toNat .declined n u) := by
    unfold declineRecord
    rw [href]
    dsimp only
    rw [hu, withBasket_some hub]
  obtain ⟨t, hx, heffect, hQ⟩ := run (bs := [.engine, .baskets, .sales, .pay])
    (Q := fun t => Only [.lines, .latched, .choice] (pump line (judgeAttempt rec.slot b p.toNat .declined n u)) t) htake
    (honly.mono (by simp)) hsays (by simp) fun t ht => ht
  exact ⟨t, told, hx, heffect, hjudged.congr hv.symm hQ (by simp) (by simp), (hQ .pay (by simp)).trans hpay⟩

end

/-- Settles O46, by the state of the record that the message names. -/
theorem declinesJudgeTheBasket : Obligations.DeclinesJudgeTheBasket := by
  unfold Obligations.DeclinesJudgeTheBasket
  refine ⟨?_, ?_, ?_, ?_, ?_⟩
  · intro line p k reason i s rec b st hq hi hrec hstate hb howner pay
    obtain ⟨t, told, hx, heffect, ⟨hsales, hreturns, hcloses, hfails⟩, hpay⟩ := decline_does hq hi hrec hstate hb
    have hopen : s.ownerOpen b.owner = ((s.ifc.stations.get st).state == .opened) := by rw [howner]; rfl
    refine ⟨fun hlimit hstation => ?_, fun hlimit hstation => ?_, fun hlimit => ?_⟩
    · obtain ⟨rfl, hbaskets, hengine⟩ := hreturns hlimit (by simp [hopen, hstation])
      exact ⟨t, hx, heffect.without hengine, hpay, hbaskets, hsales⟩
    · obtain ⟨rfl, hbaskets, hengine⟩ := hcloses hlimit (by simp [hopen, hstation])
      exact ⟨t, hx, heffect.mono (by simp), hpay, hbaskets, hsales, hengine⟩
    · obtain ⟨rfl, hbaskets, hengine⟩ := hfails hlimit
      exact ⟨t, hx, heffect.mono (by simp), hpay, hbaskets, hsales, hengine⟩
  · intro line p k i f s rec b hq hi hrec hstate hb
    have href := record_payRef hrec
    obtain ⟨v, hv, run⟩ := aborted_taken hq hi hrec hstate
    have hline := payLine_of_only hv (by simp) line
    have hends := Ends.of_ended line p.toNat f v
    generalize hu : endExchange line (setRecord line p.toNat f v) = u at hends
    have hub : u.basket rec.slot rec.ref = some b := (hends.basket ..).trans ((basket_of_only hv (by simp) ..).trans hb)
    obtain ⟨hsays, hpay, hbaskets, hsales, hengine, honly⟩ := hends.endsBasket rec.slot b .cancelled
    rw [(hv .pay (by simp) : v.pay = s.pay), (hv .params (by simp) : v.params = s.params), hline] at hpay
    rw [nothing_after, hline] at hsays
    have htake : abortAnswered line rec f v = pump line (endBasket rec.slot b .cancelled u) := by
      unfold abortAnswered
      rw [href]
      dsimp only
      rw [hu, withBasket_some hub]
    obtain ⟨t, hx, heffect, hQ⟩ := run (bs := [.baskets, .sales, .pay, .engine])
      (Q := fun t => Only [.lines, .latched, .choice] (pump line (endBasket rec.slot b .cancelled u)) t) htake
      (honly.mono (by simp)) hsays (by simp) fun t ht => ht
    refine ⟨t, hx, heffect, (hQ .pay (by simp)).trans hpay, (hQ .baskets (by simp)).trans (hbaskets.trans ?_),
      (hQ .sales (by simp)).trans (hsales.trans ?_), (hQ .engine (by simp)).trans (hengine.trans ?_)⟩
    · rw [(hv .baskets (by simp) : v.baskets = s.baskets)]
    · exact released_congr (hv .sales (by simp))
    · rw [(hv .engine (by simp) : v.engine = s.engine)]
  · intro line p k i s rec hq hi hrec hstate
    have hline (j : Instr) := payLine_of_only (takeMessage_only (.pl line) j s) (by simp) line
    rcases hi with ⟨rfl, hk⟩ | rfl
    · refine message_idle (i := .declined line p k) hq (fun s => show execDeclined line p k s = _ from rfl) ?_
      dsimp only
      rw [if_neg (reason_within hk), onNamed_record (hline _ ▸ hrec)]
      rcases hstate with h | h | h | h <;> simp only [h]
    · refine message_idle (i := .aborted line p) hq (fun s => show execAborted line p s = _ from rfl) ?_
      rw [onNamed_record (hline _ ▸ hrec)]
      rcases hstate with h | h | h | h <;> simp only [h]
  · intro line p k i s q hq hi hrec hrev
    have hline (j : Instr) := payLine_of_only (takeMessage_only (.pl line) j s) (by simp) line
    rcases hi with ⟨rfl, hk⟩ | rfl
    · refine message_idle (i := .declined line p k) hq (fun s => show execDeclined line p k s = _ from rfl) ?_
      dsimp only
      rw [if_neg (reason_within hk), onNamed_reversal (hline _ ▸ hrec) (hline _ ▸ hrev)]
    · exact message_idle (i := .aborted line p) hq (fun s => show execAborted line p s = _ from rfl)
        (onNamed_reversal (hline _ ▸ hrec) (hline _ ▸ hrev))
  · intro line p k i s hq h
    have hline (j : Instr) := payLine_of_only (takeMessage_only (.pl line) j s) (by simp) line
    rcases h with ⟨rfl, hk⟩ | ⟨rfl | rfl, hrec, hrev⟩
    · refine message_stray (i := .declined line p k) hq (fun s => show execDeclined line p k s = _ from rfl) ?_
      dsimp only
      rw [if_pos]
      unfold within at hk
      omega
    · refine message_stray (i := .declined line p k) hq (fun s => show execDeclined line p k s = _ from rfl) ?_
      dsimp only
      split
      · rfl
      · exact onNamed_stray (hline _ ▸ hrec) (hline _ ▸ hrev)
    · exact message_stray (i := .aborted line p) hq (fun s => show execAborted line p s = _ from rfl)
        (onNamed_stray (hline _ ▸ hrec) (hline _ ▸ hrev))

end Sys2Proof.Machine
end

section
/-! PROOFS. A basket disposed of by the doubt policy (R105, R107), and the statement about the waits that expire (R100, R101,
R103, R106). -/

namespace Sys2Proof.Machine

-- ## The doubt policy (R105, R107)

section
variable {line : Fin 8} {q : Reversal} {slot : Fin 16} {b : Basket} {told : Line → List Frame} {s t s' t' : State}

theorem doubtBasket_only (slot : Fin 16) (b : Basket) (s : State) : Only [.baskets, .sales, .stations] s (doubtBasket slot b s) :=
  (only_doubtBasket (by simp)).2 (Only.refl _ s)

theorem lockIfClosing_only (o : Owner) (s : State) : Only [.stations] s (lockIfClosing o s) :=
  (only_lockIfClosing (by simp)).2 (Only.refl _ s)

theorem doubtBasket_baskets (slot : Fin 16) (b : Basket) (s : State) : (doubtBasket slot b s).baskets
    = s.baskets.set slot (some { b with state := .doubt, hold := .absent, reserved := false, payRef := none }) := by
  have h : (releaseReservation b s).baskets = s.baskets := releaseReservation_only b s .baskets (by simp)
  rw [doubtBasket, (lockIfClosing_only _ _ .baskets (by simp) : State.baskets _ = _), ← h]
  rfl

theorem doubtBasket_sales (slot : Fin 16) (b : Basket) (s : State) : (doubtBasket slot b s).sales = released b s := by
  rw [doubtBasket, (lockIfClosing_only _ _ .sales (by simp) : State.sales _ = _), ← releaseReservation_sales]
  rfl

theorem doubtBasket_stations (slot : Fin 16) (b : Basket) (s : State) (m : Fin 8) :
    (doubtBasket slot b s).ifc.stations.get m = if b.owner = .station m ∧ (s.ifc.stations.get m).state = .closing
      then { s.ifc.stations.get m with state := .locked } else s.ifc.stations.get m := by
  have h : (releaseReservation b s).ifc.stations = s.ifc.stations := releaseReservation_only b s .stations (by simp)
  rw [doubtBasket, lockIfClosing_stations]
  show (if b.owner = .station m ∧ ((releaseReservation b s).ifc.stations.get m).state = .closing
    then { (releaseReservation b s).ifc.stations.get m with state := .locked } else (releaseReservation b s).ifc.stations.get m) = _
  rw [h]

theorem doubtBasket_binding (slot : Fin 16) (b : Basket) (s : State) (m : Fin 8) :
    (doubtBasket slot b s).binding m = s.binding m := by
  rw [State.binding, doubtBasket_stations]
  split <;> rfl

/-- What the doubt policy makes of a tied basket. -/
theorem dispose_disposes (h : s.tied q = some (slot, b)) : ∃ told, Says told s (dispose line q s)
    ∧ Disposed line q slot b told s (dispose line q s) ∧ (dispose line q s).pay.nextRef = s.pay.nextRef
    ∧ (dispose line q s).pay.lines = s.pay.lines := by
  unfold dispose
  rw [h]
  dsimp only
  cases hp : s.params.doubtPolicy with
  | release =>
    have honly := endBasket_only slot b .doubtReleased s
    have hpay : (endBasket slot b .doubtReleased s).pay = s.pay := honly .pay (by simp)
    dsimp only
    refine ⟨nothing, .of_only honly (by simp), ⟨endBasket_sales .., fun hk => absurd (hp.symm.trans hk) (by simp), fun _ =>
      ⟨rfl, endBasket_baskets .., endBasket_engine .., ?_, honly .stations (by simp)⟩⟩, ?_, ?_⟩
    · rw [hpay]
    · rw [hpay]
    · rw [hpay]
  | keep =>
    have honly := doubtBasket_only slot b s
    have hresult := payResult_only slot b q.payRef .doubt {} (doubtBasket slot b s)
    have hsays := payResult_says slot b q.payRef .doubt {} (doubtBasket slot b s)
    rw [toOwner_of_bindings (doubtBasket_binding slot b s)] at hsays
    dsimp only
    generalize payResult slot b q.payRef .doubt {} (doubtBasket slot b s) = u at hresult hsays
    have hpay : u.pay = s.pay := (hresult .pay (by simp)).trans (honly .pay (by simp))
    refine ⟨_, (hsays.after_only honly (by simp)).then_only (bs := [.pay]) ((only_pay (by simp)).2 (Only.refl _ u)) (by simp),
      ⟨(hresult .sales (by simp)).trans (doubtBasket_sales ..), fun _ => ⟨rfl, (hresult .baskets (by simp)).trans
        (doubtBasket_baskets ..), ?_, (hresult .engine (by simp)).trans (honly .engine (by simp)), fun m => ?_⟩,
        fun hr => absurd (hp.symm.trans hr) (by simp)⟩, ?_, ?_⟩
    · rw [hpay]
    · exact (congrArg (fun x => Tab.get x m) (hresult .stations (by simp))).trans (doubtBasket_stations ..)
    · rw [hpay]
    · rw [hpay]

theorem dispose_only (line : Fin 8) (q : Reversal) (s : State) :
    Only [.baskets, .engine, .sales, .lines, .stations, .pay] s (dispose line q s) := (only_dispose (by simp)).2 (Only.refl _ s)

/-- A disposal, seen from states that differ elsewhere, the basket's own slot aside. -/
theorem Disposed.congr {bs cs : List Block} (h : Disposed line q slot b told s t) (hs : Only bs s s') (ht : Only cs t t')
    (hslot : ∀ y, s'.baskets.set slot y = s.baskets.set slot y) (hdoubts : s'.pay.doubts = s.pay.doubts)
    (hdoubts' : t'.pay.doubts = t.pay.doubts) (hb : ∀ x ∈ [Block.sales, .stations, .params, .engine], x ∉ bs)
    (hc : ∀ x ∈ [Block.sales, .baskets, .engine, .stations], x ∉ cs) : Disposed line q slot b told s' t' := by
  have hsales : s'.sales = s.sales := hs .sales (hb _ (by simp))
  have hstations : s'.ifc.stations = s.ifc.stations := hs .stations (hb _ (by simp))
  have hparams : s'.params = s.params := hs .params (hb _ (by simp))
  have hengine : s'.engine = s.engine := hs .engine (hb _ (by simp))
  have hsales' : t'.sales = t.sales := ht .sales (hc _ (by simp))
  have hbaskets' : t'.baskets = t.baskets := ht .baskets (hc _ (by simp))
  have hengine' : t'.engine = t.engine := ht .engine (hc _ (by simp))
  have hstations' : t'.ifc.stations = t.ifc.stations := ht .stations (hc _ (by simp))
  unfold Disposed at h ⊢
  simpa only [released_congr hsales, hparams, hslot, hengine, hsales', hbaskets', hengine', hstations, hstations', hdoubts, hdoubts',
    toOwner_of_only hs (hb .stations (by simp))] using h

end

-- ## A wait that expires (R100, R101)

/-- The basket of an attempt that waits in REVERSING. -/
def Basket.reversing (b : Basket) : Basket := { b with state := .reversing, waiter := none }

/-- The reversal of an attempt that timed out. -/
def timedOutReversal (p : Nat) (r : PayRecord) : Reversal := ⟨p, r.amount, none, 0, some (r.slot, r.ref)⟩

section
variable {line : Fin 8} {p : Nat} {kind : ExchangeKind} {s : State} {rec : PayRecord} {b : Basket} {w : Line → List Frame} {i : Instr}

theorem reverseBasket_only (slot : Fin 16) (b : Basket) (s : State) : Only [.baskets] s (reverseBasket slot b s) :=
  (only_putBasket (by simp)).2 (Only.refl _ s)

/-- What stands before the reversal of an attempt that timed out is asked for. -/
structure TimedOut (line : Fin 8) (p : Nat) (rec : PayRecord) (b : Basket) (w : Line → List Frame) (s u : State) : Prop where
  tells : Says w s u
  only : Only [.baskets, .pay, .lines] s u
  baskets : u.baskets = s.baskets.set rec.slot (some b.reversing)
  pay : u.pay = { s.pay with lines := s.pay.lines.set line ((s.payLine line).ended p (fun x => { x with state := .timedOut })) }

/-- The basket put in REVERSING, nothing told yet. -/
def waiting (line : Fin 8) (p : Nat) (rec : PayRecord) (b : Basket) (s : State) : State :=
  reverseBasket rec.slot b (endExchange line (setRecord line p (fun x => { x with state := .timedOut }) s))

theorem waiting_timedOut (line : Fin 8) (p : Nat) (rec : PayRecord) (b : Basket) (s : State) :
    TimedOut line p rec b nothing s (waiting line p rec b s) := by
  obtain ⟨hsays, honly, hpay, -⟩ := Ends.of_ended line p (fun x => { x with state := .timedOut }) s
  unfold waiting
  generalize endExchange line (setRecord line p (fun x => { x with state := .timedOut }) s) = u at hsays honly hpay
  have hput := reverseBasket_only rec.slot b u
  refine ⟨hsays.then_only hput (by simp), (honly.mono (by simp)).trans (hput.mono (by simp)), ?_, (hput .pay (by simp)).trans hpay⟩
  rw [← (honly .baskets (by simp) : u.baskets = s.baskets)]
  rfl

theorem TimedOut.tell {u v : State} (h : TimedOut line p rec b nothing s u) (hs : Says w u v) (hv : Only [.lines] u v) :
    TimedOut line p rec b w s v :=
  ⟨nothing_after w ▸ h.tells.trans hs, h.only.trans (hv.mono (by simp)), (hv .baskets (by simp)).trans h.baskets,
    (hv .pay (by simp)).trans h.pay⟩

theorem waitOver_of (he : (s.payLine line).exchange = some ⟨kind, p, 0⟩) (hk : kind ≠ .reversal)
    (hrec : (s.payLine line).record p = some rec) : s.waitOver line = some (⟨kind, p, 0⟩, rec) := by
  simp [State.waitOver, he, hk, hrec]

theorem timeOut_eq (href : rec.payRef = p) (hb : s.basket rec.slot rec.ref = some b) : timeOut line rec s
    = pump line (needReversal line (timedOutReversal p rec) (payResult rec.slot b p .timedOut {} (waiting line p rec b s))) := by
  have hends := Ends.of_ended line p (fun x => { x with state := .timedOut }) s
  unfold timeOut
  rw [href]
  dsimp only
  rw [withBasket_some ((hends.basket ..).trans hb)]
  rfl

theorem silentAbort_eq (href : rec.payRef = p) (hb : s.basket rec.slot rec.ref = some b) : silentAbort line rec s
    = pump line (needReversal line (timedOutReversal p rec) (b.waiter.elim (waiting line p rec b s)
        (fun r => answer r .okReversing [] (waiting line p rec b s)))) := by
  have hends := Ends.of_ended line p (fun x => { x with state := .timedOut }) s
  unfold silentAbort
  rw [href]
  dsimp only
  rw [withBasket_some ((hends.basket ..).trans hb)]
  cases b.waiter <;> rfl

/-- An accept wait or an authorization wait that is over, as far as the reversal. -/
theorem wait_expires (he : (s.payLine line).exchange = some ⟨kind, p, 0⟩) (hrec : (s.payLine line).record p = some rec)
    (hb : s.basket rec.slot rec.ref = some b)
    (h : i = .acceptWaitExpiry line ∧ kind = .authorization ∧ rec.state ≠ .accepted
        ∧ w = toOwner s b.owner (resultFrame rec.slot b p .timedOut 0 0 0 0)
      ∨ i = .authorizationWaitExpiry line ∧ kind ≠ .reversal ∧ rec.state = .accepted
        ∧ w = toOwner s b.owner (resultFrame rec.slot b p .timedOut 0 0 0 0)
      ∨ i = .acceptWaitExpiry line ∧ kind = .abort ∧ rec.state ≠ .accepted
        ∧ w = b.waiter.elim nothing (fun r => on r.link.line [answerFrame r .okReversing []])) :
    ∃ u, TimedOut line p rec b w s u
      ∧ exec i s = .next (latchAlarms (pump line (needReversal line (timedOutReversal p rec) u))) := by
  have href := record_payRef hrec
  have hwait := waiting_timedOut line p rec b s
  have hresult := payResult_says rec.slot b p .timedOut {} (waiting line p rec b s)
  have hresultOnly := payResult_only rec.slot b p .timedOut {} (waiting line p rec b s)
  rw [toOwner_of_only hwait.only (by simp)] at hresult
  rcases h with ⟨rfl, rfl, hstate, rfl⟩ | ⟨rfl, hk, hstate, rfl⟩ | ⟨rfl, rfl, hstate, rfl⟩
  · refine ⟨_, hwait.tell hresult hresultOnly, ?_⟩
    rw [← timeOut_eq href hb]
    show event (expireAccept line) s = _
    simp only [event, expireAccept, waitOver_of he (by simp) hrec, if_neg hstate, reduceCtorEq, if_false]
  · refine ⟨_, hwait.tell hresult hresultOnly, ?_⟩
    rw [← timeOut_eq href hb]
    show event (expireAuthorization line) s = _
    simp only [event, expireAuthorization, waitOver_of he hk hrec, if_pos hstate]
  · refine ⟨b.waiter.elim (waiting line p rec b s) (fun r => answer r .okReversing [] (waiting line p rec b s)), hwait.tell ?_ ?_, ?_⟩
    · cases b.waiter with
      | none => exact .refl _
      | some r => exact says_answer ..
    · cases b.waiter with
      | none => exact Only.refl _ _
      | some r => exact (only_answer (by simp)).2 (Only.refl _ _)
    · rw [← silentAbort_eq href hb]
      show event (expireAccept line) s = _
      simp only [event, expireAccept, waitOver_of he (by simp) hrec, if_neg hstate, if_true]

end

/-- Settles O47, by the room in the reversal queue. -/
theorem waitsThatExpireAreReversed : Obligations.WaitsThatExpireAreReversed := by
  unfold Obligations.WaitsThatExpireAreReversed
  refine ⟨?_, ?_, ?_⟩
  · intro line p kind s rec b w i he hrec hb hi hroom hrev
    obtain ⟨u, hu, hx⟩ := wait_expires he hrec hb hi
    have hline : u.payLine line = (s.payLine line).ended p (fun x => { x with state := .timedOut }) := payLine_of_pay hu.pay
    have hjoins := needReversal_joins (s := u) (line := line) (q := timedOutReversal p rec) (by rw [hline]; exact hrev)
      (by rw [hline]; exact hroom)
    rw [hjoins, hline] at hx
    generalize hv : u.withPayLine line { (s.payLine line).ended p (fun x => { x with state := .timedOut }) with
      queue := ((s.payLine line).ended p (fun x => { x with state := .timedOut })).queue ++ [timedOutReversal p rec] } = v at hx
    have huv : Only [.pay] u v := hv ▸ withPayLine_only
    have hvline : v.payLine line = { (s.payLine line).ended p (fun x => { x with state := .timedOut }) with
      queue := (s.payLine line).queue ++ [timedOutReversal p rec] } := hv ▸ withPayLine_payLine
    obtain ⟨hpump, hppay⟩ := pump_resumes hvline rfl
    have hpumpOnly := pump_only line v
    have hvpay : v.pay = { u.pay with lines := u.pay.lines.set line { (s.payLine line).ended p
      (fun x => { x with state := .timedOut }) with queue := (s.payLine line).queue ++ [timedOutReversal p rec] } } := hv ▸ rfl
    have hparams : v.params = s.params := (huv .params (by simp)).trans (hu.only .params (by simp))
    refine ⟨_, _, rfl, hx, effect_says ((hu.only.mono (by simp)).trans ((huv.mono (by simp)).trans (hpumpOnly.mono (by simp))))
      ((hu.tells.then_only huv (by simp)).trans hpump) (by simp), ?_, ?_⟩
    · exact (latched_same _ .baskets (by simp)).trans ((hpumpOnly .baskets (by simp)).trans
        ((huv .baskets (by simp)).trans hu.baskets))
    · refine (latched_same _ .pay (by simp)).trans (hppay.trans ?_)
      rw [hvpay, hu.pay, hparams]
      simp only [Tab.set_set]
      rfl
  · intro line p kind s rec b w i q b' he hrec hb hi hfull hrev hq hb'
    subst hq hb'
    obtain ⟨u, hu, hx⟩ := wait_expires he hrec hb hi
    have hline : u.payLine line = (s.payLine line).ended p (fun x => { x with state := .timedOut }) := payLine_of_pay hu.pay
    rw [needReversal_overflows (by rw [hline]; exact hrev) (by rw [hline]; exact hfull)] at hx
    have hbref : b.ref = rec.ref := by
      obtain ⟨-, h⟩ := basket_get hb
      exact h
    have hub : u.basket rec.slot rec.ref = some b.reversing := by
      simp [State.basket, hu.baskets, Basket.reversing, hbref]
    have htied : u.tied (timedOutReversal p rec) = some (rec.slot, b.reversing) := tied_some rfl hub
    have hnotice := doubtNotice_says line (timedOutReversal p rec) .overflow u
    have hnoticeOnly := doubtNotice_only line (timedOutReversal p rec) .overflow u
    have hframe : doubtFrame line (timedOutReversal p rec) DoubtCause.overflow.code (u.tied (timedOutReversal p rec)) u
        = doubtFrame line (timedOutReversal p rec) 2 (some (rec.slot, b.reversing)) s := by
      rw [htied, doubtFrame, doubtFrame, (hu.only .params (by simp) : u.params = s.params)]
      rfl
    rw [hframe] at hnotice
    generalize doubtNotice line (timedOutReversal p rec) .overflow u = v at hx hnotice hnoticeOnly
    have hvtied : v.tied (timedOutReversal p rec) = some (rec.slot, b.reversing) :=
      tied_some rfl ((basket_of_only hnoticeOnly (by simp) ..).trans hub)
    obtain ⟨told, htold, hdisposed, href, hlines⟩ := dispose_disposes (line := line) hvtied
    have hdispose := dispose_only line (timedOutReversal p rec) v
    generalize dispose line (timedOutReversal p rec) v = d at hx htold hdisposed href hlines hdispose
    have hvpay : v.pay = u.pay := hnoticeOnly .pay (by simp)
    have hdline : d.payLine line = (s.payLine line).ended p (fun x => { x with state := .timedOut }) := by
      rw [State.payLine, hlines, hvpay]
      exact hline
    obtain ⟨hpump, hppay⟩ := pump_resumes hdline rfl
    have hpumpOnly := pump_only line d
    have hsv : Only [.baskets, .pay, .lines] s v := hu.only.trans (hnoticeOnly.mono (by simp))
    have hparams : d.params = s.params := (hdispose .params (by simp)).trans (hsv .params (by simp))
    have htpay : (latchAlarms (pump line d)).pay = { d.pay with
        lines := d.pay.lines.set line
          (((s.payLine line).ended p (fun x => { x with state := .timedOut })).resumed d.params.reversalInterval) } :=
      (latched_same _ .pay (by simp)).trans hppay
    refine ⟨_, told, hx, effect_says ((hsv.mono (by simp)).trans ((hdispose.mono (by simp)).trans (hpumpOnly.mono (by simp))))
      (hu.tells.trans (hnotice.trans (htold.trans hpump))) (by simp), ?_, ?_, ?_⟩
    · refine hdisposed.congr (bs := [.baskets, .pay, .lines]) (cs := [.pay, .lines, .latched, .choice]) hsv.symm
        ((hpumpOnly.mono (by simp)).trans ((latched_same _).mono (by simp))) (fun y => ?_) ?_ ?_ (by simp) (by simp)
      · rw [(hnoticeOnly .baskets (by simp) : v.baskets = u.baskets), hu.baskets, Tab.set_set]
      · rw [hvpay, hu.pay]
      · rw [htpay]
    · rw [htpay]
      exact href.trans (by rw [hvpay, hu.pay])
    · rw [htpay, hlines, hvpay, hu.pay, hparams]
      simp only [Tab.set_set]
      rfl
  · intro line s h
    have hwait : s.waitOver line = none := by
      unfold State.waitOver
      cases he : (s.payLine line).exchange with
      | none => rfl
      | some e => exact if_neg fun hz => h e he hz.1
    refine ⟨event_idle (i := .acceptWaitExpiry line) (f := expireAccept line) rfl (by rw [expireAccept, hwait]),
      event_idle (i := .authorizationWaitExpiry line) (f := expireAuthorization line) rfl (by rw [expireAuthorization, hwait]),
      event_idle (i := .reversalIntervalExpiry line) (f := expireInterval line) rfl (if_neg ?_)⟩
    unfold State.intervalOver
    cases he : (s.payLine line).exchange with
    | none => simp
    | some e => simp [h e he]

end Sys2Proof.Machine
end

section
/-! PROOFS. The statement about reversals confirmed, retried and given up (R104, R105, R107). -/

namespace Sys2Proof.Machine

theorem Sends.withPay {s u : State} {n : Fin 8} {x : PayLine} {l : Line} {fs : List Frame} (h : Sends l fs s u) :
    Sends l fs (s.withPayLine n x) u := by
  obtain ⟨hsending, hreceiver, hbad, hhanded⟩ := h
  exact ⟨hsending, hreceiver, hbad, hhanded⟩

theorem Effect.withPay {bs : List Block} {out : Line → List Frame} {s t : State} {n : Fin 8} {x : PayLine}
    (h : Effect (.pay :: bs) out s t) (hp : t.pay = { s.pay with lines := s.pay.lines.set n x }) :
    Effect bs out (s.withPayLine n x) t := by
  have hmoved : Effect (.pay :: bs) out (s.withPayLine n x) t :=
    ⟨(withPayLine_only.mono (by simp)).symm.trans h.only, fun l => (h.sends l).withPay, h.latches⟩
  exact hmoved.without hp

-- ## A reversal confirmed (R104)

/-- The pay line once the reversal of a pay ref is confirmed. -/
def PayLine.confirmed (l : PayLine) (p : Nat) : PayLine :=
  { l with
    queue := l.queue.filter (fun q => q.payRef != p)
    exchange := match l.exchange with
      | some ⟨.reversal, q, n⟩ => if q = p then none else some ⟨.reversal, q, n⟩
      | other => other }

theorem confirmed_ends {l : PayLine} {p : Nat} (h : ∀ e, l.exchange = some e → e.kind = .reversal ∧ e.payRef = p) :
    (l.confirmed p).exchange = none := by
  unfold PayLine.confirmed
  dsimp only
  split
  · next q n he =>
    obtain ⟨-, hp⟩ := h _ he
    exact if_pos hp
  · next hne =>
    cases he : l.exchange with
    | none => rfl
    | some e =>
      obtain ⟨hk, -⟩ := h e he
      obtain ⟨kind, q, n⟩ := e
      cases hk
      exact absurd he (hne q n)

theorem confirmed_goesOn {l : PayLine} {p : Nat} {e : Exchange} (he : l.exchange = some e)
    (h : ¬ (e.kind = .reversal ∧ e.payRef = p)) : l.confirmed p = { l with queue := l.queue.filter (fun q => q.payRef != p) } := by
  obtain ⟨kind, q, n⟩ := e
  unfold PayLine.confirmed
  rw [he]
  cases kind with
  | reversal =>
    have hq : q ≠ p := fun hq => h ⟨rfl, hq⟩
    simp [hq]
  | authorization => rfl
  | abort => rfl

theorem resumed_confirmed (l : PayLine) (p n : Nat) :
    (l.confirmed p).resumed n = PayLine.resumed { l with queue := l.queue.filter (fun q => q.payRef != p) } n := rfl

theorem reversal_payRef {l : PayLine} {p : Nat} {q : Reversal} (h : l.reversal p = some q) : q.payRef = p := by
  simpa using List.find?_some h

section
variable {line : Fin 8} {p : BitVec 16} {s v : State} {q : Reversal}

/-- A REVERSED of a queued reversal. -/
theorem reversed_taken (hq : s.quiet = true) (h : (s.payLine line).reversal p.toNat = some q) :
    ∃ v, Taken (.reversed line p) (confirmReversal line q) s v := by
  refine message_taken hq (fun s => show execReversed line p s = _ from rfl) fun v hv => ?_
  rw [payLine_of_only hv (by simp), h]

theorem confirmReversal_untied (hbasket : q.basket = none) :
    confirmReversal line q v = pump line (v.withPayLine line ((v.payLine line).confirmed q.payRef)) := by
  unfold confirmReversal
  dsimp only
  rw [tied_none hbasket]
  rfl

theorem confirmReversal_tied {slot : Fin 16} {ref : Nat} {b : Basket} (hbasket : q.basket = some (slot, ref))
    (hb : v.basket slot ref = some b) : confirmReversal line q v
      = pump line (judgeAttempt slot b q.payRef .reversed 0 (v.withPayLine line ((v.payLine line).confirmed q.payRef))) := by
  have htied : (v.withPayLine line ((v.payLine line).confirmed q.payRef)).tied q = some (slot, b) :=
    tied_some hbasket ((basket_of_only withPayLine_only (by simp) ..).trans hb)
  unfold confirmReversal
  dsimp only
  split
  · next h => exact absurd (h.symm.trans htied) (by simp)
  · next h =>
    have hsame := Option.some.inj (h.symm.trans htied)
    cases hsame
    rfl

/-- A confirmed reversal that no basket is tied to. -/
theorem reversed_untied (hq : s.quiet = true) (h : (s.payLine line).reversal p.toNat = some q) (hbasket : q.basket = none) :
    ∃ t, exec (.reversed line p) s = .next t
      ∧ Effect [.pay] (if ((s.payLine line).confirmed p.toNat).exchange = none
          then reverseOf line ((s.payLine line).confirmed p.toNat).queue else nothing) s t
      ∧ t.pay = { s.pay with
          lines := s.pay.lines.set line (if ((s.payLine line).confirmed p.toNat).exchange = none
            then ((s.payLine line).confirmed p.toNat).resumed s.params.reversalInterval
            else (s.payLine line).confirmed p.toNat) } := by
  obtain ⟨v, hv, run⟩ := reversed_taken hq h
  have hline := payLine_of_only hv (by simp) line
  have href := reversal_payRef h
  generalize hu : v.withPayLine line ((v.payLine line).confirmed q.payRef) = u
  have hvu : Only [.pay] v u := hu ▸ withPayLine_only
  obtain ⟨hpump, hppay⟩ := pump_says (s := u) (line := line) (x := (s.payLine line).confirmed p.toNat)
    (by rw [← hu, withPayLine_payLine, hline, href])
  obtain ⟨t, hx, heffect, hQ⟩ := run (bs := [.pay]) (Q := fun t => Only [.lines, .latched, .choice] (pump line u) t)
    ((confirmReversal_untied hbasket).trans (by rw [hu])) ((hvu.mono (by simp)).trans ((pump_only line u).mono (by simp)))
    (hpump.after_only hvu (by simp)) (by simp) fun t ht => ht
  refine ⟨t, hx, heffect, (hQ .pay (by simp)).trans (hppay.trans ?_)⟩
  have hparams : u.params = s.params := (hvu .params (by simp)).trans (hv .params (by simp))
  have hupay : u.pay = { s.pay with lines := s.pay.lines.set line ((s.payLine line).confirmed p.toNat) } := by
    rw [← hu, State.withPayLine, hline, href, (hv .pay (by simp) : v.pay = s.pay)]
  rw [hparams, hupay, Tab.set_set]

/-- A confirmed reversal and the basket that waits for it. -/
theorem reversed_tied {slot : Fin 16} {ref : Nat} {b : Basket} (hq : s.quiet = true)
    (h : (s.payLine line).reversal p.toNat = some q) (hbasket : q.basket = some (slot, ref)) (hb : s.basket slot ref = some b) :
    ∃ t told, exec (.reversed line p) s = .next t
      ∧ Effect [.baskets, .sales, .engine, .pay] (after told (if ((s.payLine line).confirmed p.toNat).exchange = none
          then reverseOf line ((s.payLine line).confirmed p.toNat).queue else nothing)) s t
      ∧ Judged slot b p.toNat .reversed 0 told s t
      ∧ t.pay = { s.pay with
          lines := s.pay.lines.set line (if ((s.payLine line).confirmed p.toNat).exchange = none
            then ((s.payLine line).confirmed p.toNat).resumed s.params.reversalInterval
            else (s.payLine line).confirmed p.toNat) } := by
  obtain ⟨v, hv, run⟩ := reversed_taken hq h
  have hline := payLine_of_only hv (by simp) line
  have href := reversal_payRef h
  have htied := confirmReversal_tied (line := line) hbasket ((basket_of_only hv (by simp) ..).trans hb)
  generalize hu : v.withPayLine line ((v.payLine line).confirmed q.payRef) = u at htied
  have hvu : Only [.pay] v u := hu ▸ withPayLine_only
  obtain ⟨told, htold, hjudged⟩ := judgeAttempt_judges slot b p.toNat .reversed 0 u
  have honly := judgeAttempt_only slot b p.toNat .reversed 0 u
  rw [href] at htied
  generalize judgeAttempt slot b p.toNat .reversed 0 u = w at htied htold hjudged honly
  have hupay : u.pay = { s.pay with lines := s.pay.lines.set line ((s.payLine line).confirmed p.toNat) } := by
    rw [← hu, State.withPayLine, hline, href, (hv .pay (by simp) : v.pay = s.pay)]
  have hwpay : w.pay = { s.pay with lines := s.pay.lines.set line ((s.payLine line).confirmed p.toNat) } :=
    (honly .pay (by simp)).trans hupay
  obtain ⟨hpump, hppay⟩ := pump_says (payLine_of_pay hwpay)
  have hpumpOnly := pump_only line w
  obtain ⟨t, hx, heffect, hQ⟩ := run (bs := [.baskets, .sales, .engine, .pay])
    (Q := fun t => Only [.lines, .latched, .choice] (pump line w) t) htied
    ((hvu.mono (by simp)).trans ((honly.mono (by simp)).trans (hpumpOnly.mono (by simp))))
    ((htold.trans hpump).after_only hvu (by simp)) (by simp) fun t ht => ht
  refine ⟨t, told, hx, heffect, hjudged.congr (bs := [.pay, .lines]) (cs := [.pay, .lines, .latched, .choice])
    ((hvu.symm.mono (by simp)).trans (hv.symm.mono (by simp))) ((hpumpOnly.mono (by simp)).trans (hQ.mono (by simp)))
    (by simp) (by simp), (hQ .pay (by simp)).trans (hppay.trans ?_)⟩
  have hparams : w.params = s.params :=
    (honly .params (by simp)).trans ((hvu .params (by simp)).trans (hv .params (by simp)))
  rw [hparams, hwpay, Tab.set_set]

end

-- ## A reversal interval (R105)

section
variable {line : Fin 8} {s : State} {p n : Nat} {q : Reversal} {rest : List Reversal}

theorem intervalOver_of (he : (s.payLine line).exchange = some ⟨.reversal, p, 0⟩) : s.intervalOver line = true := by
  simp [State.intervalOver, he]

theorem exec_interval (he : (s.payLine line).exchange = some ⟨.reversal, p, 0⟩) :
    exec (.reversalIntervalExpiry line) s = .next (latchAlarms (intervalExpired line s)) := by
  show event (expireInterval line) s = _
  rw [event, expireInterval, if_pos (intervalOver_of he)]

theorem intervalExpired_retries (hq : (s.payLine line).queue = q :: rest) (hn : n = min (q.attempts + 1) 65535)
    (h : s.params.reversalLimit = 0 ∨ n < 2 * s.params.reversalLimit) : intervalExpired line s
      = pump line (s.withPayLine line { s.payLine line with queue := { q with attempts := n } :: rest, exchange := none }) := by
  subst hn
  unfold intervalExpired
  rw [hq]
  dsimp only
  rw [if_neg]
  · rfl
  · simp only [reversalExhausted, bump, Config.countTop, Bool.and_eq_true, bne_iff_ne, ne_eq]
    rintro ⟨hlimit, hreached⟩
    have := of_decide_eq_true hreached
    omega

theorem intervalExpired_abandons (hq : (s.payLine line).queue = q :: rest) (hn : n = min (q.attempts + 1) 65535)
    (hlimit : s.params.reversalLimit ≠ 0) (h : 2 * s.params.reversalLimit ≤ n) : intervalExpired line s
      = pump line (dispose line { q with attempts := n } (doubtNotice line { q with attempts := n } .limit
        (s.withPayLine line { s.payLine line with queue := rest, exchange := none }))) := by
  subst hn
  unfold intervalExpired
  rw [hq]
  dsimp only
  rw [if_pos]
  · rfl
  · simp only [reversalExhausted, bump, Config.countTop, Bool.and_eq_true, bne_iff_ne, ne_eq]
    exact ⟨hlimit, decide_eq_true h⟩

/-- The line goes on, whatever has been told since its record was replaced. -/
theorem pump_effect {x : PayLine} {told : Line → List Frame} {u : State} (he : x.exchange = none)
    (hu : Only [.lines] (s.withPayLine line x) u) (htold : Says told (s.withPayLine line x) u) :
    Effect [] (after told (reverseOf line x.queue)) (s.withPayLine line (x.resumed s.params.reversalInterval))
      (latchAlarms (pump line u)) := by
  have hupay : u.pay = { s.pay with lines := s.pay.lines.set line x } := pay_of_only hu (by simp)
  obtain ⟨hpump, hppay⟩ := pump_resumes (payLine_of_pay hupay) he
  have hparams : u.params = s.params := hu .params (by simp)
  have heffect : Effect [.pay] (after told (reverseOf line x.queue)) s (latchAlarms (pump line u)) :=
    effect_says ((withPayLine_only.mono (by simp)).trans ((hu.mono (by simp)).trans ((pump_only line u).mono (by simp))))
      ((htold.trans hpump).after_only withPayLine_only (by simp)) (by simp)
  refine heffect.withPay ((latched_same _ .pay (by simp)).trans (hppay.trans ?_))
  rw [hparams, hupay, Tab.set_set]

end

/-- Settles O48, by what stands in the queue and what its reversal is tied to. -/
theorem reversalsAreConfirmedOrRetried : Obligations.ReversalsAreConfirmedOrRetried := by
  unfold Obligations.ReversalsAreConfirmedOrRetried
  refine ⟨?_, ?_, ?_, ?_, ?_, ?_, ?_⟩
  · intro line p s q hq hrev hbasket hexchange
    obtain ⟨t, hx, heffect, hpay⟩ := reversed_untied hq hrev hbasket
    rw [if_pos (confirmed_ends hexchange)] at heffect hpay
    exact ⟨t, _, rfl, hx, heffect.withPay hpay⟩
  · intro line p s q slot ref b queue x resumes hq hrev hbasket hb hqueue hx hresumes
    obtain ⟨t, told, hex, heffect, hjudged, hpay⟩ := reversed_tied hq hrev hbasket hb
    have hsame : PayLine.resumed x s.params.reversalInterval
        = ((s.payLine line).confirmed p.toNat).resumed s.params.reversalInterval := by rw [resumed_confirmed, hx, hqueue]
    have hq' : ((s.payLine line).confirmed p.toNat).queue = queue := hqueue.symm
    cases resumes with
    | true =>
      rw [if_pos (confirmed_ends (hresumes.1 rfl)), hq'] at heffect
      rw [if_pos (confirmed_ends (hresumes.1 rfl)), ← hsame] at hpay
      exact ⟨t, told, hex, heffect, hjudged, hpay⟩
    | false =>
      have hother : ¬ ∀ e, (s.payLine line).exchange = some e → e.kind = .reversal ∧ e.payRef = p.toNat :=
        fun h => absurd (hresumes.2 h) (by simp)
      simp only [Classical.not_forall] at hother
      obtain ⟨e, he, hne⟩ := hother
      have hconfirmed : (s.payLine line).confirmed p.toNat = x := by rw [confirmed_goesOn he hne, hx, hqueue]
      have hgoes : x.exchange ≠ none := by simp [hx, he]
      rw [hconfirmed, if_neg hgoes] at heffect hpay
      exact ⟨t, told, hex, heffect, hjudged, hpay⟩
  · intro line p s q e hq hrev hbasket he hother
    obtain ⟨t, hx, heffect, hpay⟩ := reversed_untied hq hrev hbasket
    rw [confirmed_goesOn he hother, if_neg (by simp [he])] at heffect hpay
    exact ⟨t, hx, heffect.withPay hpay⟩
  · intro line s p q rest n he hq hn hlimit
    have hx := exec_interval he
    rw [intervalExpired_retries hq hn hlimit] at hx
    refine ⟨_, hx, ?_⟩
    have heffect := pump_effect (line := line) (s := s)
      (x := { s.payLine line with queue := { q with attempts := n } :: rest, exchange := none }) rfl (Only.refl _ _) (.refl _)
    rw [nothing_after] at heffect
    exact heffect
  · intro line s p q rest n he hq hn hbasket hlimit hreached
    have hx := exec_interval he
    rw [intervalExpired_abandons hq hn hlimit hreached] at hx
    generalize hv : s.withPayLine line { s.payLine line with queue := rest, exchange := none } = v at hx
    have hnotice := doubtNotice_says line { q with attempts := n } .limit v
    have honly := doubtNotice_only line { q with attempts := n } .limit v
    have htied (w : State) : w.tied { q with attempts := n } = none := tied_none hbasket
    rw [htied] at hnotice
    rw [dispose_untied (htied _)] at hx
    subst hv
    exact ⟨_, hx, pump_effect rfl honly hnotice⟩
  · intro line s p q rest n slot ref b he hq hn hbasket hb hlimit hreached
    have hx := exec_interval he
    rw [intervalExpired_abandons hq hn hlimit hreached] at hx
    generalize hu : s.withPayLine line { s.payLine line with queue := rest, exchange := none } = u at hx
    have hsu : Only [.pay] s u := hu ▸ withPayLine_only
    have hupay : u.pay = { s.pay with lines := s.pay.lines.set line { s.payLine line with queue := rest, exchange := none } } :=
      hu ▸ rfl
    have hnotice := doubtNotice_says line { q with attempts := n } .limit u
    have hnoticeOnly := doubtNotice_only line { q with attempts := n } .limit u
    have hub : u.basket slot ref = some b := (basket_of_only hsu (by simp) ..).trans hb
    have hframe : doubtFrame line { q with attempts := n } DoubtCause.limit.code (u.tied { q with attempts := n }) u
        = doubtFrame line q 1 (some (slot, b)) s := by
      rw [tied_some (q := { q with attempts := n }) hbasket hub, doubtFrame, doubtFrame, (hsu .params (by simp) : u.params = s.params)]
      rfl
    rw [hframe] at hnotice
    generalize doubtNotice line { q with attempts := n } .limit u = v at hx hnotice hnoticeOnly
    have hvtied : v.tied { q with attempts := n } = some (slot, b) :=
      tied_some hbasket ((basket_of_only hnoticeOnly (by simp) ..).trans hub)
    obtain ⟨told, htold, hdisposed, href, hlines⟩ := dispose_disposes (line := line) hvtied
    have hdispose := dispose_only line { q with attempts := n } v
    generalize dispose line { q with attempts := n } v = d at hx htold hdisposed href hlines hdispose
    have hvpay : v.pay = u.pay := hnoticeOnly .pay (by simp)
    have hdline : d.payLine line = { s.payLine line with queue := rest, exchange := none } := by
      rw [State.payLine, hlines, hvpay, hupay]
      exact Tab.get_set_self ..
    obtain ⟨hpump, hppay⟩ := pump_resumes hdline rfl
    have hpumpOnly := pump_only line d
    have hsv : Only [.pay, .lines] s v := (hsu.mono (by simp)).trans (hnoticeOnly.mono (by simp))
    have hparams : d.params = s.params := (hdispose .params (by simp)).trans (hsv .params (by simp))
    have htpay := (latched_same (pump line d) .pay (by simp) : (latchAlarms (pump line d)).pay = _).trans hppay
    refine ⟨_, told, hx, effect_says ((hsv.mono (by simp)).trans ((hdispose.mono (by simp)).trans (hpumpOnly.mono (by simp))))
      ((hnotice.trans (htold.trans hpump)).after_only hsu (by simp)) (by simp), ?_, ?_, ?_⟩
    · refine (hdisposed.congr (bs := [.pay, .lines]) (cs := [.pay, .lines, .latched, .choice]) hsv.symm
        ((hpumpOnly.mono (by simp)).trans ((latched_same _).mono (by simp))) (fun y => ?_) ?_ ?_ (by simp) (by simp) :)
      · rw [(hsv .baskets (by simp) : v.baskets = s.baskets)]
      · rw [hvpay, hupay]
      · rw [htpay]
    · rw [htpay]
      exact href.trans (by rw [hvpay, hupay])
    · rw [htpay, hlines, hvpay, hupay, hparams]
      simp only [Tab.set_set]
      rfl
  · intro line p s hq hrev
    have hline := payLine_of_only (takeMessage_only (.pl line) (.reversed line p) s) (by simp) line
    cases hrec : (s.payLine line).record p.toNat with
    | none =>
      rw [if_pos rfl]
      refine message_stray (i := .reversed line p) hq (fun s => show execReversed line p s = _ from rfl) ?_
      rw [hline, hrev]
      dsimp only
      rw [hrec]
      rfl
    | some r =>
      rw [if_neg (by simp)]
      refine message_idle (i := .reversed line p) hq (fun s => show execReversed line p s = _ from rfl) ?_
      rw [hline, hrev]
      dsimp only
      rw [hrec]
      rfl

end Sys2Proof.Machine
end

section
/-! PROOFS. The print controller at work: what its steps send and leave unchanged, and, where the laws of power and of the pool
hold, that each PRINT_ELEMENT sent is for the element that is then in flight (R145, R147). -/

namespace Sys2Proof.Machine

theorem Says.unique {f g : Line → List Frame} {s t : State} (h : Says f s t) (k : Says g s t) : f = g := by
  funext l
  simpa using (h.line l).symm.trans (k.line l)

-- ## What the jobs keep

/-- All of a job but its started flag. -/
def Job.figures (j : Job) : Nat × Owner × Fin 256 × Nat × Bool := (j.sale, j.origin, j.first, j.remaining, j.reprint)

/-- The jobs stand as they were, but for their started flags. -/
def SameJobs (s t : State) : Prop :=
  ∀ k, (t.ticketLine k).queue.map Job.figures = (s.ticketLine k).queue.map Job.figures

theorem SameJobs.trans {s t u : State} (h : SameJobs s t) (k : SameJobs t u) : SameJobs s u := fun i => (k i).trans (h i)

theorem startedQueue_figures (q : List Job) : (startedQueue q).map Job.figures = q.map Job.figures := by
  cases q <;> rfl

/-- What the sending of a PRINT_ELEMENT does to its line. -/
theorem sendElement_line (i : Fin 8) (s : State) : (sendElement i s).ticketLine i = s.ticketLine i
    ∨ (sendElement i s).ticketLine i = { s.ticketLine i with queue := startedQueue (s.ticketLine i).queue } := by
  unfold sendElement
  split
  · exact .inl rfl
  · split
    · exact .inl rfl
    · exact .inr (ticketLine_onTicketLine_self i (fun l => { l with queue := startedQueue l.queue }) s)

theorem sendElement_jobs (i : Fin 8) (s : State) : SameJobs s (sendElement i s) := fun k => by
  by_cases hk : i = k
  · subst hk
    rcases sendElement_line i s with h | h
    · rw [h]
    · rw [h]
      exact startedQueue_figures _
  · rw [sendElement_ticketLine_ne hk]

theorem grantHead_jobs (i : Fin 8) (rest : List (Fin 8)) (s : State) : SameJobs s (grantHead i rest s) := fun k => by
  rw [grantHead_ticketLine]
  split <;> rfl

theorem judgeFrom_jobs (n : Nat) (s : State) : SameJobs s (judgeFrom n s) := by
  induction n generalizing s with
  | zero => exact fun _ => rfl
  | succ n ih =>
    unfold judgeFrom
    split
    · exact fun _ => rfl
    · next i rest ho =>
      split
      · exact ((grantHead_jobs i rest s).trans (sendElement_jobs i _)).trans (ih _)
      · exact fun _ => rfl

-- ## What a line's work reaches

/-- What the print controller's work on the line `n` sends and leaves unchanged: it moves lines of the order alone besides. -/
structure Moves (n : Fin 8) (told : Line → List Frame) (s t : State) : Prop where
  tells : Says told s t
  elsewhere : ∀ m, told m ≠ [] → ∃ i, m = .tl i
  touches : Only [.print, .lines] s t
  waiting : t.print.waiting = s.print.waiting
  pool : t.print.pool = s.print.pool
  jobs : SameJobs s t
  other : ∀ k, k ≠ n → t.ticketLine k = s.ticketLine k ∨ k ∈ s.print.order
  order : ∀ k, k ≠ n → k ∈ t.print.order → k ∈ s.print.order

section
variable {n : Fin 8} {f g told : Line → List Frame} {s t u : State}

theorem after_elsewhere {P : Line → Prop} (hf : ∀ m, f m ≠ [] → P m) (hg : ∀ m, g m ≠ [] → P m) (m : Line)
    (h : after f g m ≠ []) : P m := by
  by_cases hm : f m = []
  · refine hg m fun hgm => h ?_
    rw [after, hm, hgm]
    rfl
  · exact hf m hm

theorem Moves.refl (n : Fin 8) (s : State) : Moves n nothing s s where
  tells := .refl s
  elsewhere := fun _ h => absurd rfl h
  touches := Only.refl _ s
  waiting := rfl
  pool := rfl
  jobs := fun _ => rfl
  other := fun _ _ => .inl rfl
  order := fun _ _ h => h

theorem Moves.trans (h : Moves n f s t) (k : Moves n g t u) : Moves n (after f g) s u where
  tells := h.tells.trans k.tells
  elsewhere := after_elsewhere h.elsewhere k.elsewhere
  touches := h.touches.trans k.touches
  waiting := k.waiting.trans h.waiting
  pool := k.pool.trans h.pool
  jobs := h.jobs.trans k.jobs
  other := fun i hi => by
    rcases k.other i hi with hu | hu
    · rw [hu]
      exact h.other i hi
    · exact .inr (h.order i hi hu)
  order := fun i hi hm => h.order i hi (k.order i hi hm)

/-- A line changed, and perhaps the order, with nothing sent. -/
theorem Moves.silent (ho : Only [.print] s t) (hw : t.print.waiting = s.print.waiting) (hp : t.print.pool = s.print.pool)
    (hline : ∀ k, k ≠ n → t.ticketLine k = s.ticketLine k) (hq : (t.ticketLine n).queue = (s.ticketLine n).queue)
    (horder : ∀ k, k ≠ n → k ∈ t.print.order → k ∈ s.print.order) : Moves n nothing s t where
  tells := .of_only ho (by simp)
  elsewhere := fun _ h => absurd rfl h
  touches := ho.mono (by simp)
  waiting := hw
  pool := hp
  jobs := fun k => by
    by_cases hk : k = n
    · subst hk
      rw [hq]
    · rw [hline k hk]
  other := fun k hk => .inl (hline k hk)
  order := horder

theorem sendElement_moves (n : Fin 8) (s : State) : ∃ told, Moves n told s (sendElement n s) ∧ ∀ m, m ≠ .tl n → told m = [] := by
  obtain ⟨told, h⟩ := sendElement_elements n s
  refine ⟨told, ⟨h.sends, fun m hm => ⟨n, ?_⟩, h.touches, h.waiting, h.pool, sendElement_jobs n s, fun k hk => .inl (h.other k hk),
    fun k _ hm => h.order ▸ hm⟩, h.elsewhere⟩
  by_contra hne
  exact hm (h.elsewhere m hne)

theorem judge_moves (n : Fin 8) (s : State) : ∃ told, Moves n told s (judge s) := by
  obtain ⟨given, told, h, -⟩ := judgeFrom_granted 8 s
  refine ⟨told, ⟨h.sends, fun m hm => ?_, h.touches, h.waiting, h.pool, judgeFrom_jobs 8 s, fun k _ => ?_, fun k _ hm => ?_⟩⟩
  · obtain ⟨k, -, hm⟩ := h.elsewhere m hm
    exact ⟨k, hm⟩
  · by_cases hk : k ∈ given
    · exact .inr (h.order ▸ List.mem_append_left _ hk)
    · exact .inl (h.other k hk)
  · rw [h.order]
    exact List.mem_append_right _ hm

theorem enterOrder_moves (n : Fin 8) (s : State) : Moves n nothing s (enterOrder n id s) := by
  refine .silent (by simp [enterOrder]) rfl rfl (fun k hk => ?_) ?_ fun k hk hm => ?_
  · rw [enterOrder_ticketLine, if_neg (Ne.symm hk)]
  · rw [enterOrder_ticketLine, if_pos rfl]
    rfl
  · have hm' : k ∈ s.print.order ++ [n] := hm
    simpa [hk] using hm'

/-- The three things that a line's waking can be (R143, R145). -/
theorem wake_cases (n : Fin 8) (s : State) :
    (¬ ((s.ticketLine n).state = .idle ∧ (s.ticketLine n).queue ≠ []) ∧ wake n s = s)
    ∨ ((s.ticketLine n).state = .idle ∧ (s.ticketLine n).queue ≠ []) ∧ wake n s = enterOrder n id s
      ∧ (s.print.order = [] → s.params.budget < s.grantedSum + s.params.draws.get n)
    ∨ ((s.ticketLine n).state = .idle ∧ (s.ticketLine n).queue ≠ []) ∧ s.print.order = []
      ∧ s.grantedSum + s.params.draws.get n ≤ s.params.budget
      ∧ wake n s = sendElement n (grantHead n [] (enterOrder n id s)) := by
  by_cases h : (s.ticketLine n).state = .idle ∧ (s.ticketLine n).queue ≠ []
  · have hwake : wake n s = joinOrder n s := if_pos h
    rw [hwake, joinOrder_eq]
    by_cases hnil : s.print.order = []
    · rw [if_pos (by rw [hnil]; rfl), judge_alone (by rw [enterOrder_print, hnil]; rfl), enterOrder_grantedSum h.1]
      by_cases hfit : s.grantedSum + s.params.draws.get n ≤ s.params.budget
      · rw [if_pos (by exact hfit)]
        exact .inr (.inr ⟨h, hnil, hfit, rfl⟩)
      · rw [if_neg (by exact hfit)]
        exact .inr (.inl ⟨h, rfl, fun _ => Nat.lt_of_not_le hfit⟩)
    · rw [if_neg (by simpa using hnil)]
      exact .inr (.inl ⟨h, rfl, fun hno => absurd hno hnil⟩)
  · exact .inl ⟨h, if_neg h⟩

theorem grantHead_moves {rest : List (Fin 8)} (n : Fin 8) (hrest : ∀ k, k ∈ rest → k ∈ s.print.order) :
    Moves n nothing s (grantHead n rest s) := by
  refine .silent (by simp [grantHead]) rfl rfl (fun k hk => ?_) ?_ fun k _ hm => hrest k hm
  · rw [grantHead_ticketLine, if_neg (Ne.symm hk)]
  · rw [grantHead_ticketLine, if_pos rfl]

theorem wake_moves (n : Fin 8) (s : State) : ∃ told, Moves n told s (wake n s) ∧ ∀ m, m ≠ .tl n → told m = [] := by
  rcases wake_cases n s with ⟨-, h⟩ | ⟨-, h, -⟩ | ⟨-, -, -, h⟩
  · rw [h]
    exact ⟨nothing, .refl n s, fun _ _ => rfl⟩
  · rw [h]
    exact ⟨nothing, enterOrder_moves n s, fun _ _ => rfl⟩
  · obtain ⟨told, hsend, honly⟩ := sendElement_moves n (grantHead n [] (enterOrder n id s))
    have hmove := ((enterOrder_moves n s).trans (grantHead_moves n (rest := []) (by simp))).trans hsend
    rw [nothing_after, nothing_after] at hmove
    rw [h]
    exact ⟨told, hmove, honly⟩

theorem release_moves {f : TicketLine → TicketLine} (n : Fin 8) (s : State) (hf : ∀ l, (f l).queue = l.queue) :
    ∃ told, Moves n told s (release n f s) := by
  have hvacate : Moves n nothing s (vacate n f s) := by
    refine .silent (by simp) rfl rfl (fun k hk => ?_) ?_ fun k hk hm => ?_
    · rw [vacate_ticketLine, if_neg (Ne.symm hk)]
    · rw [vacate_ticketLine, if_pos rfl, hf]
    · exact List.mem_of_mem_filter (show k ∈ s.print.order.filter (fun k => k != n) from hm)
  unfold release
  dsimp only
  split
  · obtain ⟨told, h⟩ := judge_moves n (vacate n f s)
    exact ⟨_, hvacate.trans h⟩
  · exact ⟨_, hvacate⟩

theorem onLine_moves {f : TicketLine → TicketLine} (n : Fin 8) (s : State) (hf : ∀ l, (f l).queue = l.queue) :
    Moves n nothing s (s.onTicketLine n f) := by
  refine .silent (by simp) rfl rfl (fun k hk => ?_) ?_ fun k _ hm => hm
  · rw [onTicketLine_ticketLine, if_neg (Ne.symm hk)]
  · rw [onTicketLine_ticketLine, if_pos rfl, hf]

theorem leaveRest_moves (n : Fin 8) (s : State) : ∃ told, Moves n told s (leaveRest n s) := by
  obtain ⟨told, h, -⟩ := wake_moves n (s.onTicketLine n (fun l => { l with state := .idle, rest := none }))
  exact ⟨_, (onLine_moves (f := fun l => { l with state := .idle, rest := none }) n s fun _ => rfl).trans h⟩

theorem enterRest_moves (n : Fin 8) (s : State) : ∃ told, Moves n told s (enterRest n s) := by
  obtain ⟨told, h⟩ := release_moves (f := fun l => { l with
    state := .resting, sinceRest := 0, rest := if s.params.restTime = 0 then none else some s.params.restTime }) n s fun _ => rfl
  unfold enterRest
  dsimp only
  generalize release n _ s = u at h ⊢
  split
  · obtain ⟨later, hleave⟩ := leaveRest_moves n u
    exact ⟨_, h.trans hleave⟩
  · exact ⟨_, h⟩

theorem goOn_moves (n : Fin 8) (done : Bool) (s : State) : ∃ told, Moves n told s (goOn n done s) := by
  unfold goOn
  dsimp only
  split
  · exact release_moves n s fun _ => rfl
  · split
    · exact release_moves n s fun _ => rfl
    · split
      · exact enterRest_moves n s
      · split
        · obtain ⟨told, h, -⟩ := sendElement_moves n s
          exact ⟨told, h⟩
        · exact release_moves n s fun _ => rfl

end

-- ## Each PRINT_ELEMENT for the element then in flight (R147)

/-- What is sent on ticket lines that printed nothing before, the lines of `X` apart, each for the element then in flight; what was
in flight elsewhere stays so. -/
structure Emits (X : Fin 8 → Prop) (told : Line → List Frame) (s t : State) : Prop where
  tells : Says told s t
  fresh : ∀ m, told m = [] ∨ ∃ k e x, m = .tl k ∧ (X k ∨ (s.ticketLine k).state ≠ .printing) ∧ t.inFlight k = some e
    ∧ t.print.pool.get e = some x ∧ told m = [elementFrame e x]
  keeps : ∀ k e x, ¬ X k → s.inFlight k = some e → s.print.pool.get e = some x →
    t.inFlight k = some e ∧ t.print.pool.get e = some x
  printing : ∀ k, ¬ X k → (s.ticketLine k).state = .printing → (t.ticketLine k).state = .printing

theorem inFlight_printing {s : State} {k : Fin 8} {e : Fin 256} (h : s.inFlight k = some e) :
    (s.ticketLine k).state = .printing := by
  by_contra hno
  rw [State.inFlight, if_neg hno] at h
  cases h

section
variable {X Y : Fin 8 → Prop} {f g told : Line → List Frame} {s t u : State} {n : Fin 8}

theorem Emits.silent {bs : List Block} (ho : Only bs s t) (hb : .lines ∉ bs)
    (hline : ∀ k, ¬ X k → (s.ticketLine k).state = .printing →
      (t.ticketLine k).state = .printing ∧ ∀ e, s.headElement k = some e → t.headElement k = some e)
    (hpool : ∀ k e, ¬ X k → s.inFlight k = some e → t.print.pool.get e = s.print.pool.get e) : Emits X nothing s t where
  tells := .of_only ho hb
  fresh := fun _ => .inl rfl
  keeps := fun k e x hX he hx => by
    have hs := inFlight_printing he
    obtain ⟨ht, hhead⟩ := hline k hX hs
    rw [State.inFlight, if_pos hs] at he
    exact ⟨by rw [State.inFlight, if_pos ht, hhead e he], by rw [hpool k e hX (by rw [State.inFlight, if_pos hs, he]), hx]⟩
  printing := fun k hX hs => (hline k hX hs).1

theorem Emits.refl (X : Fin 8 → Prop) (s : State) : Emits X nothing s s :=
  .silent (Only.refl [] s) (by simp) (fun _ _ h => ⟨h, fun _ he => he⟩) fun _ _ _ _ => rfl

theorem Emits.trans (h : Emits X f s t) (k : Emits Y g t u) (hXY : ∀ i, X i → Y i) (hsilent : ∀ i, Y i → f (.tl i) = []) :
    Emits Y (after f g) s u where
  tells := h.tells.trans k.tells
  fresh := fun m => by
    rcases k.fresh m with hg | ⟨i, e, x, rfl, hi, he, hx, hg⟩
    · rcases h.fresh m with hf | ⟨i, e, x, rfl, hi, he, hx, hf⟩
      · exact .inl (by rw [after, hf, hg]; rfl)
      · by_cases hY : Y i
        · exact .inl (by rw [after, hsilent i hY, hg]; rfl)
        · obtain ⟨he', hx'⟩ := k.keeps i e x hY he hx
          exact .inr ⟨i, e, x, rfl, hi.imp_left (hXY i), he', hx', by rw [after, hf, hg]; rfl⟩
    · have hf : f (.tl i) = [] := by
        by_cases hY : Y i
        · exact hsilent i hY
        · rcases h.fresh (.tl i) with hf | ⟨i', e', x', hm, -, he', -⟩
          · exact hf
          · cases hm
            exact absurd (inFlight_printing he') (hi.resolve_left hY)
      refine .inr ⟨i, e, x, rfl, ?_, he, hx, by rw [after, hf, hg]; rfl⟩
      by_cases hY : Y i
      · exact .inl hY
      · exact .inr fun hs => hi.resolve_left hY (h.printing i (fun hX => hY (hXY i hX)) hs)
  keeps := fun i e x hY he hx => by
    obtain ⟨he', hx'⟩ := h.keeps i e x (fun hX => hY (hXY i hX)) he hx
    exact k.keeps i e x hY he' hx'
  printing := fun i hY hs => k.printing i hY (h.printing i (fun hX => hY (hXY i hX)) hs)

/-- The lines that printed nothing before need not be set apart. -/
theorem Emits.shrink (h : Emits X told s t) (hX : ∀ k, X k → Y k ∨ (s.ticketLine k).state ≠ .printing) : Emits Y told s t where
  tells := h.tells
  fresh := fun m => (h.fresh m).imp_right fun ⟨k, e, x, hm, hk, hrest⟩ =>
    ⟨k, e, x, hm, hk.elim (hX k) .inr, hrest⟩
  keeps := fun k e x hY he hx => h.keeps k e x (fun hXk => (hX k hXk).elim hY fun hno => hno (inFlight_printing he)) he hx
  printing := fun k hY hs => h.printing k (fun hXk => (hX k hXk).elim hY fun hno => hno hs) hs

theorem Emits.silentOn (h : Emits X told s t) (hn : (t.ticketLine n).state ≠ .printing) : told (.tl n) = [] := by
  rcases h.fresh (.tl n) with hf | ⟨k, e, x, hm, -, he, -⟩
  · exact hf
  · cases hm
    exact absurd (inFlight_printing he) hn

theorem Emits.quietOn (h : Emits X told s t) (hX : ¬ X n) (hn : (s.ticketLine n).state = .printing) : told (.tl n) = [] := by
  rcases h.fresh (.tl n) with hf | ⟨k, e, x, hm, hk, -⟩
  · exact hf
  · cases hm
    exact absurd hn (hk.resolve_left hX)

theorem Emits.prints (h : Emits X told s t) : Prints told t := fun m =>
  (h.fresh m).imp_right fun ⟨k, e, x, hm, _, he, hx, htold⟩ => ⟨k, e, x, hm, he, hx, htold⟩

theorem sendElement_next (i : Fin 8) (s : State) (k : Fin 8) : (sendElement i s).headElement k = s.headElement k := by
  obtain ⟨told, h⟩ := sendElement_elements i s
  have hnext : ∀ q : List Job, (startedQueue q).head?.bind (fun j => j.next s.print.pool) = q.head?.bind (fun j => j.next s.print.pool) :=
    fun q => by cases q <;> rfl
  rw [State.headElement, State.headElement, h.pool]
  by_cases hk : k = i
  · subst hk
    rcases sendElement_line k s with hl | hl
    · rw [hl]
    · rw [hl]
      exact hnext _
  · rw [h.other k hk]

theorem sendElement_emits (n : Fin 8) (s : State) (hn : (s.ticketLine n).state = .printing) :
    ∃ told, Emits (· = n) told s (sendElement n s) := by
  obtain ⟨told, h⟩ := sendElement_elements n s
  have hstate : ∀ k, ((sendElement n s).ticketLine k).state = (s.ticketLine k).state := fun k => by
    by_cases hk : k = n
    · subst hk
      exact h.state
    · rw [h.other k hk]
  have hflight : ∀ k, (sendElement n s).inFlight k = s.inFlight k := fun k => by
    rw [State.inFlight, State.inFlight, hstate, sendElement_next]
  have hsame : ∀ k e x, ¬ k = n → s.inFlight k = some e → s.print.pool.get e = some x →
      (sendElement n s).inFlight k = some e ∧ (sendElement n s).print.pool.get e = some x := fun k e x _ he hx =>
    ⟨(hflight k).trans he, h.pool ▸ hx⟩
  cases hhead : s.headElement n with
  | none =>
    have hstill : sendElement n s = s := by
      unfold sendElement
      rw [hhead]
    rw [hstill]
    exact ⟨nothing, .refl _ s⟩
  | some e =>
    cases hx : s.print.pool.get e with
    | none =>
      have hstill : sendElement n s = s := by
        unfold sendElement
        rw [hhead]
        dsimp only
        rw [hx]
      rw [hstill]
      exact ⟨nothing, .refl _ s⟩
    | some x =>
      have hsays : Says (on (.tl n) [elementFrame e x]) s (sendElement n s) := by
        rw [sendElement_eq hhead hx]
        exact (says_send ..).after_only (bs := [.print]) (by simp) (by simp)
      refine ⟨_, hsays, fun m => ?_, hsame, fun k _ hs => (hstate k).trans hs⟩
      by_cases hm : m = .tl n
      · refine .inr ⟨n, e, x, hm, .inl rfl, ?_, h.pool ▸ hx, by rw [hm]; exact if_pos rfl⟩
        rw [hflight, State.inFlight, if_pos hn, hhead]
      · exact .inl (on_ne hm _)

/-- A line that printed nothing is granted and prints. -/
theorem grantHead_emits {rest : List (Fin 8)} (i : Fin 8) (hi : (s.ticketLine i).state ≠ .printing) :
    ∃ told, Emits (fun _ => False) told s (sendElement i (grantHead i rest s)) := by
  have hhead : Emits (fun _ => False) nothing s (grantHead i rest s) := by
    refine .silent (bs := [.print]) (by simp [grantHead]) (by simp) (fun k _ hk => ?_) fun _ _ _ _ => rfl
    have hne : i ≠ k := fun h => hi (h ▸ hk)
    have hline : (grantHead i rest s).ticketLine k = s.ticketLine k := by rw [grantHead_ticketLine, if_neg hne]
    exact ⟨hline ▸ hk, fun e he => by rw [State.headElement, hline]; exact he⟩
  obtain ⟨told, hsend⟩ := sendElement_emits i (grantHead i rest s) (by rw [grantHead_ticketLine, if_pos rfl])
  exact ⟨_, (hhead.trans hsend (fun _ h => h.elim) fun _ _ => rfl).shrink fun k hk => .inr (hk ▸ hi)⟩

theorem judgeFrom_emits (n : Nat) (hs : PowerLaw s) : ∃ told, Emits (fun _ => False) told s (judgeFrom n s) := by
  induction n generalizing s with
  | zero => exact ⟨nothing, .refl _ s⟩
  | succ n ih =>
    unfold judgeFrom
    split
    · exact ⟨nothing, .refl _ s⟩
    · next i rest ho =>
      split
      · next hfit =>
        obtain ⟨-, -, horder, -⟩ := id hs
        have hi : (s.ticketLine i).state = .waitPower := (horder i).1 (by rw [ho]; simp)
        obtain ⟨head, hhead⟩ := grantHead_emits (rest := rest) (s := s) i (by rw [hi]; simp)
        obtain ⟨told, h⟩ := ih (PowerLaw.printWork ((PrintWork.grants i rest ho hfit).trans (printWork_sendElement i _)) hs)
        exact ⟨_, hhead.trans h (fun _ h => h) fun _ h => h.elim⟩
      · exact ⟨nothing, .refl _ s⟩

theorem wake_emits (n : Fin 8) (s : State) : ∃ told, Emits (fun _ => False) told s (wake n s) := by
  have henter (hidle : (s.ticketLine n).state = .idle) : Emits (fun _ => False) nothing s (enterOrder n id s) := by
    refine .silent (bs := [.print]) (by simp [enterOrder]) (by simp) (fun k _ hk => ?_) fun _ _ _ _ => rfl
    have hne : n ≠ k := fun h => by
      subst h
      simp [hidle] at hk
    have hline : (enterOrder n id s).ticketLine k = s.ticketLine k := by rw [enterOrder_ticketLine, if_neg hne]
    exact ⟨hline ▸ hk, fun e he => by rw [State.headElement, hline]; exact he⟩
  rcases wake_cases n s with ⟨-, h⟩ | ⟨⟨hidle, -⟩, h, -⟩ | ⟨⟨hidle, -⟩, -, -, h⟩
  · rw [h]
    exact ⟨nothing, .refl _ s⟩
  · rw [h]
    exact ⟨nothing, henter hidle⟩
  · obtain ⟨told, hgrant⟩ := grantHead_emits (rest := []) (s := enterOrder n id s) n (by rw [enterOrder_ticketLine, if_pos rfl]; simp)
    rw [h]
    exact ⟨_, (henter hidle).trans hgrant (fun _ h => h) fun _ h => h.elim⟩

theorem release_emits {f : TicketLine → TicketLine} (n : Fin 8) (hs : PowerLaw s) (hq : ∀ l, (f l).queue = l.queue)
    (hnew : ¬ (f (s.ticketLine n)).state.atPower) (hidle : (f (s.ticketLine n)).state = .idle → (s.ticketLine n).queue = []) :
    ∃ told, Emits (· = n) told s (release n f s) := by
  have hvacate : Emits (· = n) nothing s (vacate n f s) := by
    refine .silent (bs := [.print]) (by simp) (by simp) (fun k hk hstate => ?_) fun _ _ _ _ => rfl
    have hline : (vacate n f s).ticketLine k = s.ticketLine k := by rw [vacate_ticketLine, if_neg (Ne.symm hk)]
    exact ⟨hline ▸ hstate, fun e he => by rw [State.headElement, hline]; exact he⟩
  unfold release
  dsimp only
  split
  · obtain ⟨told, h⟩ := judgeFrom_emits 8 (PowerLaw.printWork (.vacates n f hq hnew hidle) hs)
    exact ⟨_, hvacate.trans (h.shrink fun _ h => h.elim) (fun _ h => h) fun _ _ => rfl⟩
  · exact ⟨_, hvacate⟩

theorem enterRest_emits (n : Fin 8) (hs : PowerLaw s) : ∃ told, Emits (· = n) told s (enterRest n s) := by
  obtain ⟨told, h⟩ := release_emits (f := fun l => { l with
    state := .resting, sinceRest := 0, rest := if s.params.restTime = 0 then none else some s.params.restTime }) n hs (fun _ => rfl)
    (by simp [TicketLineState.atPower]) (by simp)
  have hself := release_ticketLine_self n (fun l => { l with
    state := .resting, sinceRest := 0, rest := if s.params.restTime = 0 then none else some s.params.restTime }) s
  unfold enterRest
  dsimp only
  generalize release n _ s = u at h hself ⊢
  split
  · have hmark : Emits (· = n) nothing u (u.onTicketLine n (fun l => { l with state := .idle, rest := none })) := by
      refine .silent (bs := [.print]) (by simp) (by simp) (fun k hk hstate => ?_) fun _ _ _ _ => rfl
      have hline : (u.onTicketLine n (fun l => { l with state := .idle, rest := none })).ticketLine k = u.ticketLine k := by
        rw [onTicketLine_ticketLine, if_neg (Ne.symm hk)]
      exact ⟨hline ▸ hstate, fun e he => by rw [State.headElement, hline]; exact he⟩
    obtain ⟨later, hwake⟩ := wake_emits n (u.onTicketLine n (fun l => { l with state := .idle, rest := none }))
    refine ⟨_, h.trans (hmark.trans (hwake.shrink fun _ h => h.elim) (fun _ h => h) fun _ _ => rfl) (fun _ h => h) fun k hk => ?_⟩
    subst hk
    exact h.silentOn (by rw [hself]; simp)
  · exact ⟨_, h⟩

theorem goOn_emits (n : Fin 8) (done : Bool) (hs : PowerLaw s) (hn : (s.ticketLine n).state = .printing) :
    ∃ told, Emits (· = n) told s (goOn n done s) := by
  unfold goOn
  dsimp only
  split
  · exact release_emits n hs (fun _ => rfl) (by simp [TicketLineState.atPower]) (by simp)
  · split
    · exact release_emits n hs (fun _ => rfl) (by simp [TicketLineState.atPower]) (by simp)
    · split
      · exact enterRest_emits n hs
      · split
        · exact sendElement_emits n s hn
        · next h => exact release_emits n hs (fun _ => rfl) (by simp [TicketLineState.atPower]) fun _ => by simpa using h

end

end Sys2Proof.Machine
end

section
/-! PROOFS. The waiting list served (R140, R142): the jobs it makes, and that it prints only what is then in flight. -/

namespace Sys2Proof.Machine

-- ## One job made

section
variable {i n : Fin 8} {sale : Sale} {origin : Owner} {makeUp : MakeUp} {s t u : State} {told : Line → List Frame}

theorem wake_other {k : Fin 8} (hk : k ≠ n) (s : State) : (wake n s).ticketLine k = s.ticketLine k := by
  have henter : (enterOrder n id s).ticketLine k = s.ticketLine k := by rw [enterOrder_ticketLine, if_neg (Ne.symm hk)]
  rcases wake_cases n s with ⟨-, h⟩ | ⟨-, h, -⟩ | ⟨-, -, -, h⟩
  · rw [h]
  · rw [h, henter]
  · rw [h, sendElement_ticketLine_ne (Ne.symm hk), grantHead_ticketLine, if_neg (Ne.symm hk), henter]

/-- A job of `numbers` on the line `i`, its line not yet woken. -/
def madeJob (i : Fin 8) (sale : Sale) (origin : Owner) (makeUp : MakeUp) (first : Fin 256) (rest : List (Fin 256)) (c : Nat)
    (s : State) : State :=
  { queuedJob i sale origin makeUp first (first :: rest) (composeJob s sale makeUp) s with choice := c }

theorem makeJob_cases (i : Fin 8) (sale : Sale) (origin : Owner) (makeUp : MakeUp) (s : State) :
    (makeUp.count ≤ s.freeElements.length → makeUp.count = 0) ∧ makeJob i sale origin makeUp s = s
    ∨ ∃ first rest c, (arrangeFrom s.choice makeUp.count s.freeElements).take makeUp.count = first :: rest
      ∧ makeJob i sale origin makeUp s = wake i (madeJob i sale origin makeUp first rest c s) := by
  cases hn : (arrangeFrom s.choice makeUp.count s.freeElements).take makeUp.count with
  | nil =>
    refine .inl ⟨fun hfree => ?_, ?_⟩
    · have hlen := (chooses hfree).length
      rw [hn] at hlen
      exact hlen.symm
    · unfold makeJob
      simp only [length_composeJob, hn]
  | cons first rest =>
    obtain ⟨c, h⟩ := makeJob_eq (i := i) (sale := sale) (origin := origin) hn
    exact .inr ⟨first, rest, c, rfl, h⟩

theorem free_of_take {first : Fin 256} {rest : List (Fin 256)} {m : Nat}
    (hn : (arrangeFrom s.choice m s.freeElements).take m = first :: rest) : ∀ e ∈ first :: rest, s.print.pool.get e = none :=
  fun _ he => freeElements_isNone.1 ((arrangeFrom_perm _ _ _).subset (List.mem_of_mem_take (hn ▸ he)))

theorem madeJob_only (i : Fin 8) (sale : Sale) (origin : Owner) (makeUp : MakeUp) (first : Fin 256) (rest : List (Fin 256))
    (c : Nat) (s : State) : Only [.print, .choice] s (madeJob i sale origin makeUp first rest c s) := by
  intro b hb
  cases b <;> simp_all [Block.same, madeJob, queuedJob]

theorem madeJob_ticketLine (i k : Fin 8) (sale : Sale) (origin : Owner) (makeUp : MakeUp) (first : Fin 256) (rest : List (Fin 256))
    (c : Nat) (s : State) : (madeJob i sale origin makeUp first rest c s).ticketLine k = if i = k then { s.ticketLine i with
      queue := (s.ticketLine i).queue ++ [⟨sale.number, origin, first, makeUp.count, makeUp.reprints, false⟩] }
    else s.ticketLine k := by
  have h := queuedJob_ticketLine i k sale origin makeUp first (first :: rest) (composeJob s sale makeUp) s
  rw [length_composeJob] at h
  exact h

/-- What the making of one job sends and leaves unchanged. -/
structure Makes (told : Line → List Frame) (s t : State) : Prop where
  tells : Says told s t
  elsewhere : ∀ m, told m ≠ [] → ∃ i, m = .tl i
  touches : Only [.print, .lines, .choice] s t
  pool : ∀ e, s.print.pool.get e ≠ none → t.print.pool.get e = s.print.pool.get e
  busy : ∀ k, (s.ticketLine k).state = .printing → ∃ q, t.ticketLine k = { s.ticketLine k with queue := q }

theorem Makes.refl (s : State) : Makes nothing s s :=
  ⟨.refl s, fun _ h => absurd rfl h, Only.refl _ s, fun _ _ => rfl, fun _ _ => ⟨_, rfl⟩⟩

theorem Makes.trans {f g : Line → List Frame} (h : Makes f s t) (k : Makes g t u) : Makes (after f g) s u where
  tells := h.tells.trans k.tells
  elsewhere := after_elsewhere h.elsewhere k.elsewhere
  touches := h.touches.trans k.touches
  pool := fun e he => by
    have ht := h.pool e he
    rw [k.pool e (ht ▸ he), ht]
  busy := fun i hi => by
    obtain ⟨q, hq⟩ := h.busy i hi
    obtain ⟨q', hq'⟩ := k.busy i (by rw [hq]; exact hi)
    exact ⟨q', by rw [hq', hq]⟩

theorem makeJob_makes (i : Fin 8) (sale : Sale) (origin : Owner) (makeUp : MakeUp) (s : State) :
    (∃ told, Makes told s (makeJob i sale origin makeUp s)) ∧ (makeJob i sale origin makeUp s).print.waiting = s.print.waiting := by
  rcases makeJob_cases i sale origin makeUp s with ⟨-, h⟩ | ⟨first, rest, c, hn, h⟩
  · rw [h]
    exact ⟨⟨nothing, .refl s⟩, rfl⟩
  · have honly := madeJob_only i sale origin makeUp first rest c s
    have hline := fun k => madeJob_ticketLine i k sale origin makeUp first rest c s
    have hpool : ∀ e, s.print.pool.get e ≠ none → (madeJob i sale origin makeUp first rest c s).print.pool.get e
        = s.print.pool.get e := fun e he =>
      writeChain_get_of_not_mem _ _ _ fun hm => he (free_of_take hn e hm)
    have hwaiting : (madeJob i sale origin makeUp first rest c s).print.waiting = s.print.waiting := rfl
    obtain ⟨told, hwake, -⟩ := wake_moves i (madeJob i sale origin makeUp first rest c s)
    rw [h]
    generalize madeJob i sale origin makeUp first rest c s = u at honly hline hpool hwake hwaiting
    refine ⟨⟨told, hwake.tells.after_only honly (by simp), hwake.elsewhere, (honly.mono (by simp)).trans (hwake.touches.mono (by simp)),
      fun e he => by rw [hwake.pool, hpool e he], fun k hk => ?_⟩, hwake.waiting.trans hwaiting⟩
    by_cases hki : k = i
    · subst hki
      have hself := hline k
      rw [if_pos rfl] at hself
      rw [wake_still (by rw [hself, hk]; simp), hself]
      exact ⟨_, rfl⟩
    · rw [wake_other hki, hline, if_neg (Ne.symm hki)]
      exact ⟨_, rfl⟩

/-- R139 to R142: the job `j` made for the entry `w` of the waiting list. -/
def Made (t : State) (w : WaitEntry) (j : Job) : Prop :=
  j.sale = w.sale ∧ j.origin = w.origin ∧ j.remaining = w.needed ∧ j.reprint = w.makeUp.reprints
    ∧ ∃ u plans, t.sale w.sale = some u ∧ Composed t u w.makeUp plans ∧ j.holds u.number plans t.print.pool

/-- A job made for an entry that fits. -/
theorem makeJob_made {w : WaitEntry} (hneeded : w.needed = w.makeUp.count ∧ 0 < w.needed) (hsale : s.sale w.sale = some sale)
    (hfree : w.needed ≤ s.freeElements.length) :
    ∃ j, Made (makeJob w.line sale w.origin w.makeUp s) w j
      ∧ ((makeJob w.line sale w.origin w.makeUp s).ticketLine w.line).queue.map Job.figures
        = (s.ticketLine w.line).queue.map Job.figures ++ [j.figures]
      ∧ ∀ k, k ≠ w.line → (makeJob w.line sale w.origin w.makeUp s).ticketLine k = s.ticketLine k := by
  obtain ⟨hcount, hpos⟩ := hneeded
  rw [hcount] at hfree hpos
  rcases makeJob_cases w.line sale w.origin w.makeUp s with ⟨hzero, -⟩ | ⟨first, rest, c, hn, h⟩
  · exact absurd (hzero hfree) (Nat.pos_iff_ne_zero.1 hpos)
  · have honly := madeJob_only w.line sale w.origin w.makeUp first rest c s
    have hline := fun k => madeJob_ticketLine w.line k sale w.origin w.makeUp first rest c s
    have hchosen := chooses hfree
    rw [hn, ← length_composeJob s sale w.makeUp] at hchosen
    obtain ⟨-, hholds⟩ := holds_writeChain (number := sale.number)
      (job := ⟨sale.number, w.origin, first, w.makeUp.count, w.makeUp.reprints, false⟩) hchosen rfl
    have hpool : (madeJob w.line sale w.origin w.makeUp first rest c s).print.pool
        = writeChain sale.number (first :: rest) (composeJob s sale w.makeUp) s.print.pool := rfl
    obtain ⟨told, hwake, -⟩ := wake_moves w.line (madeJob w.line sale w.origin w.makeUp first rest c s)
    have hother : ∀ k, k ≠ w.line → (wake w.line (madeJob w.line sale w.origin w.makeUp first rest c s)).ticketLine k
        = s.ticketLine k := fun k hk => by rw [wake_other hk, hline, if_neg (Ne.symm hk)]
    rw [h]
    rw [← hpool] at hholds
    generalize madeJob w.line sale w.origin w.makeUp first rest c s = u at honly hline hwake hother hholds
    have hsu : Only [.print, .lines, .choice] s (wake w.line u) := (honly.mono (by simp)).trans (hwake.touches.mono (by simp))
    have hsales : (wake w.line u).sales = s.sales := hsu .sales (by simp)
    refine ⟨⟨sale.number, w.origin, first, w.makeUp.count, w.makeUp.reprints, false⟩,
      ⟨sale_number hsale, rfl, hcount.symm, rfl, sale, composeJob s sale w.makeUp, ?_, ?_, ?_⟩, ?_, hother⟩
    · rw [State.sale, hsales]
      exact hsale
    · refine (composed s sale w.makeUp).congr fun c' hd rows hc' hp' => ⟨c', ?_, ?_, rfl, rfl⟩
      · rw [State.screening, (hsu .screenings (by simp) : (wake w.line u).screenings = s.screenings)] at hc'
        exact hc'
      · rw [State.plan_of (hsu .plans (by simp))] at hp'
        exact hp'
    · rw [hwake.pool]
      exact hholds
    · rw [hwake.jobs, hline, if_pos rfl, List.map_append]
      rfl

/-- A chain that is not free stands as it did. -/
theorem Job.holds.congr {j : Job} {number : Nat} {plans : List ElementPlan} {pool pool' : Tab (Option Element) 256}
    (h : j.holds number plans pool) (hp : ∀ e, pool.get e ≠ none → pool'.get e = pool.get e) : j.holds number plans pool' := by
  obtain ⟨hlen, hall⟩ := h
  have hsame : ∀ e ∈ j.chain pool, pool'.get e = pool.get e := fun e he => by
    obtain ⟨a, ha, rfl⟩ := List.getElem_of_mem he
    refine hp _ ?_
    rw [hall a _ (by simp [ha]) _ (by rw [Option.mem_def, List.getElem?_eq_getElem (hlen ▸ ha)])]
    simp
  have hchain : j.chain pool' = j.chain pool := chainFrom_congr_of_mem hsame
  rw [Job.holds, hchain]
  refine ⟨hlen, fun a e he p hpl => ?_⟩
  rw [hsame e (List.mem_of_getElem? he)]
  exact hall a e he p hpl

theorem Made.congr {w : WaitEntry} {j : Job} {bs : List Block} (h : Made t w j) (ho : Only bs t u)
    (hb : ∀ b ∈ [Block.screenings, .plans], b ∉ bs) (hs : ∀ m, u.sale m = t.sale m)
    (hp : ∀ e, t.print.pool.get e ≠ none → u.print.pool.get e = t.print.pool.get e) : Made u w j := by
  obtain ⟨hsale, horigin, hremaining, hreprint, k, plans, hk, hcomposed, hholds⟩ := h
  refine ⟨hsale, horigin, hremaining, hreprint, k, plans, (hs _).trans hk, hcomposed.congr fun c' hd rows hc' hp' =>
    ⟨c', ?_, ?_, rfl, rfl⟩, hholds.congr hp⟩
  · rw [State.screening, (ho .screenings (hb _ (by simp)) : u.screenings = t.screenings)] at hc'
    exact hc'
  · rw [State.plan_of (ho .plans (hb _ (by simp)))] at hp'
    exact hp'

end

-- ## The list served

/-- R142: the head entries `served` of the waiting list have left it, each with its job where its sale is live. -/
structure ServesList (served : List WaitEntry) (told : Line → List Frame) (s t : State) : Prop where
  makes : Makes told s t
  waiting : s.print.waiting = served ++ t.print.waiting
  still : served = [] → t = s
  jobs : (∀ w ∈ s.print.waiting, w.needed = w.makeUp.count ∧ 0 < w.needed) → ∀ i, ∃ made,
    (t.ticketLine i).queue.map Job.figures = (s.ticketLine i).queue.map Job.figures ++ made.map Job.figures
    ∧ List.Forall₂ (Made t) (served.filter (fun w => w.line == i && (s.sale w.sale).isSome)) made

section
variable {s t u : State} {w : WaitEntry} {rest served : List WaitEntry} {told : Line → List Frame}

theorem ServesList.refl (s : State) : ServesList [] nothing s s :=
  ⟨.refl s, rfl, fun _ => rfl, fun _ _ => ⟨[], by simp, .nil⟩⟩

/-- The waiting list with its head gone. -/
def withWaiting (rest : List WaitEntry) (s : State) : State := { s with print := { s.print with waiting := rest } }

theorem withWaiting_only (rest : List WaitEntry) (s : State) : Only [.print] s (withWaiting rest s) :=
  (only_print (by simp)).2 (Only.refl _ s)

theorem withWaiting_makes (rest : List WaitEntry) (s : State) : Makes nothing s (withWaiting rest s) :=
  ⟨.of_only (withWaiting_only rest s) (by simp), fun _ h => absurd rfl h, (withWaiting_only rest s).mono (by simp),
    fun _ _ => rfl, fun _ _ => ⟨_, rfl⟩⟩

theorem Makes.sale {f : Line → List Frame} (h : Makes f s t) (m : Nat) : t.sale m = s.sale m := by
  rw [State.sale, (h.touches .sales (by simp) : t.sales = s.sales), State.sale]

/-- An entry whose sale is no longer live. -/
theorem ServesList.skip (hw : s.print.waiting = w :: rest) (hsale : s.sale w.sale = none) (h : ServesList served told (withWaiting rest s) t) :
    ServesList (w :: served) told s t where
  makes := nothing_after told ▸ (withWaiting_makes rest s).trans h.makes
  waiting := by
    have hrest : rest = served ++ t.print.waiting := h.waiting
    rw [hw, hrest]
    rfl
  still := fun hno => by cases hno
  jobs := fun hneeded i => by
    obtain ⟨made, hq, hall⟩ := h.jobs (fun x hx => hneeded x (by rw [hw]; exact List.mem_cons_of_mem _ hx)) i
    refine ⟨made, hq, ?_⟩
    rw [List.filter_cons_of_neg (by simp [hsale])]
    exact hall

/-- An entry whose job fits. -/
theorem ServesList.serve {sale : Sale} (hw : s.print.waiting = w :: rest) (hsale : s.sale w.sale = some sale)
    (hfits : s.jobFits w.line w.needed = true)
    (h : ServesList served told (makeJob w.line sale w.origin w.makeUp (withWaiting rest s)) t) : ∃ told, ServesList (w :: served) told s t := by
  obtain ⟨⟨head, hmake⟩, hwaiting⟩ := makeJob_makes w.line sale w.origin w.makeUp (withWaiting rest s)
  have hmake' := (withWaiting_makes rest s).trans hmake
  have hlater : (makeJob w.line sale w.origin w.makeUp (withWaiting rest s)).print.waiting = rest := hwaiting
  refine ⟨_, hmake'.trans h.makes, ?_, fun hno => (by cases hno), fun hneeded i => ?_⟩
  · rw [hw, ← hlater, h.waiting]
    rfl
  · rw [hw] at hneeded
    have hfree : w.needed ≤ (withWaiting rest s).freeElements.length := by
      rw [State.jobFits, Bool.and_eq_true, decide_eq_true_eq] at hfits
      exact hfits.1
    obtain ⟨j, hj, hqueue, hother⟩ := makeJob_made (hneeded w (by simp)) (show (withWaiting rest s).sale w.sale = some sale from hsale) hfree
    obtain ⟨made, hq, hall⟩ := h.jobs (fun x hx => hneeded x (List.mem_cons_of_mem _ (hlater ▸ hx))) i
    have hsales : ∀ m, (makeJob w.line sale w.origin w.makeUp (withWaiting rest s)).sale m = s.sale m := hmake'.sale
    simp only [hsales] at hall
    by_cases hi : w.line = i
    · subst hi
      refine ⟨j :: made, ?_, ?_⟩
      · rw [hq, hqueue, List.append_assoc]
        rfl
      · rw [List.filter_cons_of_pos (by simp [hsale])]
        exact .cons (hj.congr h.makes.touches (by simp) h.makes.sale h.makes.pool) hall
    · refine ⟨made, ?_, ?_⟩
      · rw [hq, hother i (Ne.symm hi)]
        rfl
      · rw [List.filter_cons_of_neg (by simp [hi])]
        exact hall

/-- R142: the waiting list is served as far as its head fits. -/
theorem serveFrom_serves (n : Nat) (s : State) : ∃ served told, ServesList served told s (serveFrom n s)
    ∧ (s.print.waiting.length ≤ n → ∀ w, (serveFrom n s).print.waiting.head? = some w →
      (serveFrom n s).sale w.sale ≠ none ∧ (serveFrom n s).jobFits w.line w.needed = false) := by
  induction n generalizing s with
  | zero =>
    refine ⟨[], nothing, .refl s, fun hlen w hw => ?_⟩
    have hnil : s.print.waiting = [] := List.length_eq_zero_iff.1 (Nat.le_zero.1 hlen)
    simp [serveFrom, hnil] at hw
  | succ n ih =>
    cases hw : s.print.waiting with
    | nil =>
      have hs : serveFrom (n + 1) s = s := by
        unfold serveFrom
        rw [hw]
      rw [hs]
      exact ⟨[], nothing, .refl s, fun _ w hno => by simp [hw] at hno⟩
    | cons w rest =>
      cases hsale : s.sale w.sale with
      | none =>
        have hs : serveFrom (n + 1) s = serveFrom n (withWaiting rest s) := by
          rw [serveFrom, hw]
          dsimp only
          rw [hsale]
          rfl
        obtain ⟨served, told, h, hstop⟩ := ih (withWaiting rest s)
        rw [hs]
        exact ⟨w :: served, told, h.skip hw hsale, fun hlen => hstop (Nat.le_of_succ_le_succ hlen)⟩
      | some sale =>
        by_cases hfits : s.jobFits w.line w.needed = true
        · have hs : serveFrom (n + 1) s = serveFrom n (makeJob w.line sale w.origin w.makeUp (withWaiting rest s)) := by
            rw [serveFrom, hw]
            dsimp only
            rw [hsale]
            dsimp only
            rw [if_pos hfits]
            rfl
          obtain ⟨served, told, h, hstop⟩ := ih (makeJob w.line sale w.origin w.makeUp (withWaiting rest s))
          obtain ⟨-, hwaiting⟩ := makeJob_makes w.line sale w.origin w.makeUp (withWaiting rest s)
          obtain ⟨told', h'⟩ := h.serve hw hsale hfits
          rw [hs]
          exact ⟨w :: served, told', h', fun hlen => hstop (by rw [hwaiting]; exact Nat.le_of_succ_le_succ hlen)⟩
        · have hs : serveFrom (n + 1) s = s := by
            rw [serveFrom, hw]
            dsimp only
            rw [hsale]
            dsimp only
            rw [if_neg hfits]
          rw [hs]
          refine ⟨[], nothing, .refl s, fun _ x hx => ?_⟩
          rw [hw] at hx
          cases hx
          exact ⟨by simp [hsale], by simpa using hfits⟩

-- ## The elements printed while the list is served

theorem mem_elementsInUse {k : Fin 8} {j : Job} {e : Fin 256} (hj : j ∈ (s.ticketLine k).queue) (he : e ∈ j.chain s.print.pool) :
    e ∈ s.elementsInUse :=
  List.mem_flatMap.2 ⟨k, mem_indices k, List.mem_flatMap.2 ⟨j, hj, he⟩⟩

theorem next_mem_chain {j : Job} {pool : Tab (Option Element) 256} {e : Fin 256} (h : j.next pool = some e) : e ∈ j.chain pool :=
  List.mem_of_mem_drop (List.mem_of_head? h)

theorem madeJob_emits (i : Fin 8) (sale : Sale) (origin : Owner) (makeUp : MakeUp) {first : Fin 256} {rest : List (Fin 256)}
    (c : Nat) (hlaw : PoolLaw s) (hfree : ∀ e ∈ first :: rest, s.print.pool.get e = none) :
    Emits (fun _ => False) nothing s (madeJob i sale origin makeUp first rest c s) := by
  have hused : ∀ k j e, j ∈ (s.ticketLine k).queue → e ∈ j.chain s.print.pool →
      (madeJob i sale origin makeUp first rest c s).print.pool.get e = s.print.pool.get e := fun k j e hj he =>
    writeChain_get_of_not_mem _ _ _ fun hm => by
      have := (hlaw.2 e).1 (mem_elementsInUse hj he)
      simp [hfree e hm] at this
  have hhead : ∀ k e, s.headElement k = some e → ∃ j later, (s.ticketLine k).queue = j :: later ∧ j.next s.print.pool = some e :=
    fun k e he => by
      rw [State.headElement] at he
      cases hq : (s.ticketLine k).queue with
      | nil => simp [hq] at he
      | cons j later => exact ⟨j, later, rfl, by simpa [hq] using he⟩
  refine .silent (madeJob_only _ _ _ _ _ _ _ _) (by simp) (fun k _ hk => ⟨?_, fun e he => ?_⟩) fun k e _ he => ?_
  · rw [madeJob_ticketLine]
    split
    · next h => subst h; exact hk
    · exact hk
  · obtain ⟨j, later, hq, hnext⟩ := hhead k e he
    have hchain : j.chain (madeJob i sale origin makeUp first rest c s).print.pool = j.chain s.print.pool :=
      chainFrom_congr_of_mem fun e he => hused k j e (by simp [hq]) he
    have hqueue : ((madeJob i sale origin makeUp first rest c s).ticketLine k).queue.head? = some j := by
      rw [madeJob_ticketLine]
      split
      · next h =>
        subst h
        simp [hq]
      · simp [hq]
    rw [State.headElement, hqueue, Option.bind_some, Job.next, hchain]
    exact hnext
  · rw [State.inFlight, if_pos (inFlight_printing he)] at he
    obtain ⟨j, later, hq, hnext⟩ := hhead k e he
    exact hused k j e (by simp [hq]) (next_mem_chain hnext)

theorem makeJob_emits (i : Fin 8) (sale : Sale) (origin : Owner) (makeUp : MakeUp) (hlaw : PoolLaw s) :
    ∃ told, Emits (fun _ => False) told s (makeJob i sale origin makeUp s) := by
  rcases makeJob_cases i sale origin makeUp s with ⟨-, h⟩ | ⟨first, rest, c, hn, h⟩
  · rw [h]
    exact ⟨nothing, .refl _ s⟩
  · obtain ⟨told, hwake⟩ := wake_emits i (madeJob i sale origin makeUp first rest c s)
    rw [h]
    exact ⟨_, (madeJob_emits i sale origin makeUp c hlaw (free_of_take hn)).trans hwake (fun _ h => h) fun _ h => h.elim⟩

theorem serveFrom_emits (n : Nat) (hlaw : PoolLaw s) : ∃ told, Emits (fun _ => False) told s (serveFrom n s) := by
  induction n generalizing s with
  | zero => exact ⟨nothing, .refl _ s⟩
  | succ n ih =>
    unfold serveFrom
    split
    · exact ⟨nothing, .refl _ s⟩
    · next e rest hw =>
      have hremoved : Emits (fun _ => False) nothing s (withWaiting rest s) :=
        .silent (withWaiting_only rest s) (by simp) (fun _ _ h => ⟨h, fun _ he => he⟩) fun _ _ _ _ => rfl
      have hlaw' : PoolLaw (withWaiting rest s) := PoolLaw.printWork (.serves e rest hw) hlaw
      dsimp only
      split
      · obtain ⟨told, h⟩ := ih hlaw'
        exact ⟨_, hremoved.trans h (fun _ h => h) fun _ h => h.elim⟩
      · next sale hsale =>
        split
        · next hfits =>
          obtain ⟨head, hmake⟩ := makeJob_emits e.line sale e.origin e.makeUp hlaw'
          obtain ⟨told, h⟩ := ih (PoolLaw.printWork (printWork_makeJob (show (withWaiting rest s).jobFits e.line e.needed = true from hfits)) hlaw')
          exact ⟨_, (hremoved.trans hmake (fun _ h => h) fun _ h => h.elim).trans h (fun _ h => h) fun _ h => h.elim⟩
        · exact ⟨nothing, .refl _ s⟩

end

end Sys2Proof.Machine
end

section
/-! PROOFS. What follows a completed element (R148, R149): the line's counters, its job ended and the waiting list served, and the
line going on. -/

namespace Sys2Proof.Machine

-- ## The element's result and the line's counters

/-- Step 1 of R148: the result is written, and the line's counters change. -/
def counted (n : Fin 8) (e : Fin 256) (x : ElementResult) (s : State) : State :=
  State.onTicketLine n (fun l => { l with
      sinceRest := min (l.sinceRest + 1) 32
      queue := match l.queue with
        | j :: rest => { j with remaining := j.remaining - 1 } :: rest
        | [] => [] })
    { s with print := { s.print with pool := s.print.pool.modify e (fun y => y.map (fun y => { y with result := x })) } }

/-- The job that has one element less to print. -/
def Job.less (j : Job) : Job := { j with remaining := j.remaining - 1 }

section
variable {n : Fin 8} {e : Fin 256} {x : ElementResult} {s v : State} {j : Job} {rest : List Job}

theorem counted_line (hq : (s.ticketLine n).queue = j :: rest) (k : Fin 8) : (counted n e x s).ticketLine k
    = if n = k then { s.ticketLine n with sinceRest := min ((s.ticketLine n).sinceRest + 1) 32, queue := j.less :: rest }
      else s.ticketLine k := by
  unfold counted
  rw [onTicketLine_ticketLine]
  by_cases hk : n = k
  · subst hk
    rw [if_pos rfl, if_pos rfl]
    show ({ s.ticketLine n with sinceRest := _, queue := match (s.ticketLine n).queue with
        | j :: rest => { j with remaining := j.remaining - 1 } :: rest
        | [] => [] } : TicketLine) = _
    rw [hq]
    rfl
  · rw [if_neg hk, if_neg hk]
    rfl

theorem counted_pool (k : Fin 256) : (counted n e x s).print.pool.get k
    = if k = e then (s.print.pool.get e).map (fun y => { y with result := x }) else s.print.pool.get k := by
  show (s.print.pool.modify e (fun y => y.map (fun y => { y with result := x }))).get k = _
  rw [Tab.get_modify]
  by_cases hk : e = k
  · subst hk
    rw [if_pos rfl]
  · rw [if_neg hk, if_neg (Ne.symm hk)]

theorem counted_only (n : Fin 8) (e : Fin 256) (x : ElementResult) (s : State) : Only [.print] s (counted n e x s) := by
  simp [counted]

theorem counted_work (n : Fin 8) (e : Fin 256) (x : ElementResult) (s : State) : PrintWork s (counted n e x s) := by
  refine PrintWork.trans (.onElement (s := s) e (fun y => y.map (fun y => { y with result := x }))
    (fun y => by cases y <;> rfl)) ?_
  exact .onLine n _ ⟨rfl, jobs_counted _ _⟩

/-- The chains are as they were: a result is no part of them. -/
theorem counted_chain (j : Job) : j.chain (counted n e x s).print.pool = j.chain s.print.pool :=
  chainFrom_congr (fun k => by
    rw [counted_pool]
    by_cases hk : k = e
    · subst hk
      rw [if_pos rfl]
      cases s.print.pool.get k <;> rfl
    · rw [if_neg hk]) 256 j.first

theorem counted_next (j : Job) : j.next (counted n e x s).print.pool = j.next s.print.pool := by
  rw [Job.next, Job.next, counted_chain]

theorem completeElement_more (hq : (s.ticketLine n).queue = j :: rest) (hmore : 2 ≤ j.remaining) :
    completeElement n e x s = goOn n false (counted n e x s) := by
  have hline := counted_line (n := n) (e := e) (x := x) hq n
  rw [if_pos rfl] at hline
  show (match ((counted n e x s).ticketLine n).queue with
    | [] => counted n e x s
    | j :: _ => if j.remaining = 0 then goOn n true (completeJob n (counted n e x s)) else goOn n false (counted n e x s)) = _
  rw [hline]
  exact if_neg (show ¬ j.remaining - 1 = 0 by omega)

theorem completeElement_last (hq : (s.ticketLine n).queue = j :: rest) (hlast : j.remaining = 1) :
    completeElement n e x s = goOn n true (completeJob n (counted n e x s)) := by
  have hline := counted_line (n := n) (e := e) (x := x) hq n
  rw [if_pos rfl] at hline
  show (match ((counted n e x s).ticketLine n).queue with
    | [] => counted n e x s
    | j :: _ => if j.remaining = 0 then goOn n true (completeJob n (counted n e x s)) else goOn n false (counted n e x s)) = _
  rw [hline]
  exact if_pos (show j.remaining - 1 = 0 by omega)

end

-- ## The job ended

/-- Step 2 of R148 but for the waiting list: the head job reports and leaves, its elements free. -/
def finished (n : Fin 8) (j : Job) (rest : List Job) (s : State) : State :=
  let u := reportJob j.sale ((j.chain s.print.pool).filterMap s.print.pool.get) (s.onTicketLine n (fun l => { l with queue := rest }))
  { u with print := { u.print with pool := (j.chain s.print.pool).foldl (fun p e => p.set e none) s.print.pool } }

section
variable {n : Fin 8} {s : State} {j : Job} {rest : List Job}

theorem completeJob_eq (hq : (s.ticketLine n).queue = j :: rest) :
    completeJob n s = serveFrom s.print.waiting.length (finished n j rest s) := by
  unfold completeJob
  rw [hq]
  rfl

theorem finished_only (n : Fin 8) (j : Job) (rest : List Job) (s : State) : Only [.print, .sales] s (finished n j rest s) := by
  intro b hb
  cases b <;> simp_all [Block.same, finished, reportJob, State.onSale, State.onTicketLine]

theorem finished_line (n : Fin 8) (j : Job) (rest : List Job) (s : State) (k : Fin 8) : (finished n j rest s).ticketLine k
    = if n = k then { s.ticketLine k with queue := rest } else s.ticketLine k :=
  onTicketLine_ticketLine n k (fun l => { l with queue := rest }) s

theorem finished_pool (n : Fin 8) (j : Job) (rest : List Job) (s : State) (e : Fin 256) : (finished n j rest s).print.pool.get e
    = if e ∈ j.chain s.print.pool then none else s.print.pool.get e := foldl_set_none_get _ _ e

theorem finished_sales (n : Fin 8) (j : Job) (rest : List Job) (s : State) : (finished n j rest s).sales
    = (reportJob j.sale ((j.chain s.print.pool).filterMap s.print.pool.get) s).sales := rfl

theorem finished_work (hq : (s.ticketLine n).queue = j :: rest) : PrintWork s (finished n j rest s) := by
  refine (PrintWork.completes n j rest hq).trans (.of_eq ?_ ?_) <;> rfl

end

-- ## The line before it goes on

/-- Where a completed element leaves the print controller before the line goes on: the entries `served` have left the waiting list,
and the line's queue is `queue` if none has. -/
structure Reaches (n : Fin 8) (queue : List Job) (served : List WaitEntry) (told : Line → List Frame) (s v u : State) : Prop where
  tells : Says told v u
  elsewhere : ∀ m, told m ≠ [] → ∃ i, m = .tl i
  touches : Only [.print, .lines, .choice, .sales] s u
  line : ∃ q, u.ticketLine n
    = { s.ticketLine n with sinceRest := min ((s.ticketLine n).sinceRest + 1) 32, queue := q } ∧ (served = [] → q = queue)
  other : served = [] → ∀ k, k ≠ n → u.ticketLine k = s.ticketLine k
  order : served = [] → u.print.order = s.print.order
  silent : served = [] → told = nothing
  waiting : s.print.waiting = served ++ u.print.waiting
  power : PowerLaw s → PowerLaw u
  emits : PowerLaw s → PoolLaw s → told (.tl n) = []
    ∧ ∃ w, (w.ticketLine n).state = .printing ∧ Emits (fun _ => False) told w u

section
variable {n : Fin 8} {e : Fin 256} {x : ElementResult} {s v : State} {j : Job} {rest : List Job}

theorem ticketLine_of_only {bs : List Block} {s t : State} (h : Only bs s t) (hb : .print ∉ bs) (k : Fin 8) :
    t.ticketLine k = s.ticketLine k := by
  rw [State.ticketLine, (h .print hb : t.print = s.print)]
  rfl

theorem reaches_more (hv : Only [.lines] s v) (hq : (s.ticketLine n).queue = j :: rest) (hn : (s.ticketLine n).state = .printing) :
    Reaches n (j.less :: rest) [] nothing s v (counted n e x v) := by
  have hline := fun k => ticketLine_of_only hv (by simp) k
  have hprint : v.print = s.print := hv .print (by simp)
  have hvorder : v.print.order = s.print.order := by rw [hprint]
  have hvwaiting : v.print.waiting = s.print.waiting := by rw [hprint]
  have hcounted := counted_line (n := n) (e := e) (x := x) (hline n ▸ hq)
  have honly := counted_only n e x v
  refine ⟨.of_only honly (by simp), fun _ h => absurd rfl h, (hv.mono (by simp)).trans (honly.mono (by simp)),
    ⟨_, by rw [hcounted, if_pos rfl, hline], fun _ => rfl⟩, fun _ k hk => by rw [hcounted, if_neg (Ne.symm hk), hline],
    fun _ => hvorder, fun _ => rfl, hvwaiting.symm, 
    PowerLaw.printWork (.after_only hv (by simp) (counted_work n e x v)), fun _ _ => ⟨rfl, _, ?_, .refl _ _⟩⟩
  rw [hcounted, if_pos rfl, hline]
  exact hn

/-- What a job's end leaves before the waiting list is served, as far as the line goes. -/
theorem finished_counted_line (hv : Only [.lines] s v) (hq : (s.ticketLine n).queue = j :: rest) (k : Fin 8) :
    (finished n j.less rest (counted n e x v)).ticketLine k = if n = k then
      { s.ticketLine n with sinceRest := min ((s.ticketLine n).sinceRest + 1) 32, queue := rest } else s.ticketLine k := by
  have hline := fun k => ticketLine_of_only hv (by simp) k
  rw [finished_line, counted_line (hline n ▸ hq), hline, hline]
  by_cases hk : n = k
  · subst hk
    rw [if_pos rfl, if_pos rfl, if_pos rfl]
  · rw [if_neg hk, if_neg hk, if_neg hk]

theorem reaches_last (hv : Only [.lines] s v) (hq : (s.ticketLine n).queue = j :: rest) (hn : (s.ticketLine n).state = .printing) :
    ∃ served told, Reaches n rest served told s v (completeJob n (counted n e x v))
      ∧ ServesList served told (finished n j.less rest (counted n e x v)) (completeJob n (counted n e x v))
      ∧ ∀ w, (completeJob n (counted n e x v)).print.waiting.head? = some w →
        (completeJob n (counted n e x v)).sale w.sale ≠ none ∧ (completeJob n (counted n e x v)).jobFits w.line w.needed = false := by
  have hcounted := counted_line (n := n) (e := e) (x := x) (show (v.ticketLine n).queue = j :: rest by
    rw [ticketLine_of_only hv (by simp)]; exact hq) n
  rw [if_pos rfl] at hcounted
  have hqueue : ((counted n e x v).ticketLine n).queue = j.less :: rest := by rw [hcounted]
  have hprint : v.print = s.print := hv .print (by simp)
  have hvorder : v.print.order = s.print.order := by rw [hprint]
  have hvwaiting : v.print.waiting = s.print.waiting := by rw [hprint]
  have hline := finished_counted_line (e := e) (x := x) hv hq
  have hcountedOnly := counted_only n e x v
  have hfinished := finished_only n j.less rest (counted n e x v)
  have hwork := (counted_work n e x v).trans (finished_work hqueue)
  have hwaiting : (finished n j.less rest (counted n e x v)).print.waiting = s.print.waiting := hvwaiting
  have horder : (finished n j.less rest (counted n e x v)).print.order = s.print.order := hvorder
  obtain ⟨served, told, hserves, hstop⟩ := serveFrom_serves (counted n e x v).print.waiting.length
    (finished n j.less rest (counted n e x v))
  have hemits := fun hlaw => serveFrom_emits (s := finished n j.less rest (counted n e x v)) (counted n e x v).print.waiting.length hlaw
  have hlater := printWork_serveFrom (counted n e x v).print.waiting.length (finished n j.less rest (counted n e x v))
  rw [← completeJob_eq hqueue] at hserves hstop hemits hlater
  refine ⟨served, told, ?_, hserves, hstop (Nat.le_refl _)⟩
  generalize finished n j.less rest (counted n e x v) = w at hserves hemits hlater hwork hline hfinished hwaiting horder
  generalize completeJob n (counted n e x v) = u at hserves hemits hlater
  have hmakes := hserves.makes
  have hw : (w.ticketLine n).state = .printing := by rw [hline, if_pos rfl]; exact hn
  have hsw : Only [.print, .sales, .lines] s w :=
    (hv.mono (by simp)).trans ((hcountedOnly.mono (by simp)).trans (hfinished.mono (by simp)))
  have hvw : Only [.print, .sales] v w := (hcountedOnly.mono (by simp)).trans hfinished
  refine ⟨hmakes.tells.after_only hvw (by simp), hmakes.elsewhere, (hsw.mono (by simp)).trans (hmakes.touches.mono (by simp)), ?_, ?_,
    ?_, ?_, hwaiting ▸ hserves.waiting, PowerLaw.printWork ((PrintWork.after_only hv (by simp) hwork).trans hlater), ?_⟩
  · obtain ⟨q, hline'⟩ := hmakes.busy n hw
    refine ⟨q, by rw [hline', hline, if_pos rfl], fun hnil => ?_⟩
    have hq' := congrArg TicketLine.queue hline'
    rw [hserves.still hnil, hline, if_pos rfl] at hq'
    exact hq'.symm
  · intro hnil k hk
    rw [hserves.still hnil, hline, if_neg (Ne.symm hk)]
  · intro hnil
    rw [hserves.still hnil, horder]
  · intro hnil
    have := hserves.still hnil
    subst this
    exact hmakes.tells.unique (.refl _)
  · intro hpower hpool
    have hvwork := PrintWork.after_only hv (by simp) hwork
    obtain ⟨told', hemit⟩ := hemits (PoolLaw.printWork hvwork hpool)
    have hsame := hemit.tells.unique hmakes.tells
    subst hsame
    exact ⟨hemit.quietOn id hw, w, hw, hemit⟩

/-- A line that goes on prints only what is then in flight. -/
theorem Reaches.prints {queue : List Job} {served : List WaitEntry} {f g : Line → List Frame} {u : State} {done : Bool}
    (h : Reaches n queue served f s v u) (hn : (s.ticketLine n).state = .printing) (hg : Says g u (goOn n done u))
    (hpower : PowerLaw s) (hpool : PoolLaw s) : Prints (after f g) (goOn n done u) := by
  obtain ⟨hsilent, w, hw, hemit⟩ := h.emits hpower hpool
  obtain ⟨q, hline, -⟩ := h.line
  obtain ⟨g', hg'⟩ := goOn_emits n done (h.power hpower) (show (u.ticketLine n).state = .printing by rw [hline]; exact hn)
  have hsame := hg'.tells.unique hg
  subst hsame
  exact (hemit.trans hg' (fun _ h => h.elim) fun k hk => hk ▸ hsilent).prints

end

-- ## The line going on

section
variable {n : Fin 8} {done : Bool} {s : State}

theorem goOn_stops (h : (s.ticketLine n).stopPending = true) : goOn n done s
    = release n (fun l => { l with state := .stopped, cause := some .stop, stopPending := false }) s := by
  rw [goOn]
  exact if_pos h

theorem goOn_halts (h : (s.ticketLine n).stopPending = false) (hhalt : (s.ticketLine n).haltPending = true) (hdone : done = true) :
    goOn n done s = release n (fun l => { l with state := .halted, haltPending := false, sinceRest := 0 }) s := by
  rw [goOn]
  rw [if_neg (by simp [h]), if_pos ⟨hhalt, hdone⟩]

theorem goOn_rests (h : (s.ticketLine n).stopPending = false) (hhalt : (s.ticketLine n).haltPending = false ∨ done = false)
    (hafter : s.params.restAfter ≠ 0 ∧ s.params.restAfter ≤ (s.ticketLine n).sinceRest) : goOn n done s = enterRest n s := by
  rw [goOn]
  rw [if_neg (by simp [h]), if_neg (by rcases hhalt with h | h <;> simp [h]), if_pos hafter]

/-- A line with nothing due. -/
structure NotDue (n : Fin 8) (done : Bool) (s : State) : Prop where
  stop : (s.ticketLine n).stopPending = false
  halt : (s.ticketLine n).haltPending = false ∨ done = false
  rest : s.params.restAfter = 0 ∨ (s.ticketLine n).sinceRest < s.params.restAfter

theorem goOn_prints (h : NotDue n done s) (hq : (s.ticketLine n).queue ≠ []) : goOn n done s = sendElement n s := by
  obtain ⟨hstop, hhalt, hrest⟩ := h
  rw [goOn]
  rw [if_neg (by simp [hstop]), if_neg (by rcases hhalt with h | h <;> simp [h]), if_neg (by omega), if_pos hq]

theorem goOn_idles (h : NotDue n done s) (hq : (s.ticketLine n).queue = []) :
    goOn n done s = release n (fun l => { l with state := .idle }) s := by
  obtain ⟨hstop, hhalt, hrest⟩ := h
  rw [goOn]
  rw [if_neg (by simp [hstop]), if_neg (by rcases hhalt with h | h <;> simp [h]), if_neg (by omega), if_neg (by simp [hq])]

theorem enterRest_later (h : s.params.restTime ≠ 0) : enterRest n s
    = release n (fun l => { l with state := .resting, sinceRest := 0, rest := some s.params.restTime }) s := by
  rw [enterRest]
  rw [if_neg h, if_neg h]

theorem enterRest_now (h : s.params.restTime = 0) : enterRest n s
    = leaveRest n (release n (fun l => { l with state := .resting, sinceRest := 0, rest := none }) s) := by
  rw [enterRest]
  rw [if_pos h, if_pos h]

end

section
variable {n : Fin 8} {l' : TicketLine} {told : Line → List Frame} {s s' t u : State}

/-- A release, seen from a state that differs on the line itself. -/
theorem Releases.of_start (h : Releases n l' told s t) (ho : s'.print.order = s.print.order) (hp : s'.params = s.params)
    (hstate : (s'.ticketLine n).state = (s.ticketLine n).state) (hk : ∀ k, k ≠ n → s'.ticketLine k = s.ticketLine k) :
    Releases n l' told s' t := by
  obtain ⟨given, horder, hidle, hstop, hfit, hline, hother, helsewhere, hgiven⟩ := h
  refine ⟨given, by rw [ho, horder], by rw [hstate, ho]; exact hidle, by rw [hstate, ho, hp]; exact hstop, by rw [hp]; exact hfit,
    hline, fun k hkn hkg => (hother k hkn hkg).trans (hk k hkn).symm, helsewhere, fun k hkg => ?_⟩
  have hkn : k ≠ n := by
    have hmem : k ∈ s.print.order.filter (fun k => k != n) := horder ▸ List.mem_append_left _ hkg
    simpa using (List.mem_filter.1 hmem).2
  rw [hk k hkn]
  exact hgiven k hkg

/-- The head of the order does not fit beside the grants held. -/
def Stuck (s : State) : Prop := ∀ k, s.print.order.head? = some k → s.params.budget < s.grantedSum + s.params.draws.get k

theorem Releases.stuck (h : Releases n l' told s t) (hn : (s.ticketLine n).state = .printing) (hp : t.params = s.params) : Stuck t := by
  obtain ⟨given, -, -, hstop, -⟩ := h
  intro k hk
  rw [hp]
  exact hstop (.inl hn) k hk

theorem sendElement_granted (n k : Fin 8) (s : State) : ((sendElement n s).ticketLine k).granted = (s.ticketLine k).granted := by
  obtain ⟨told, h⟩ := sendElement_elements n s
  by_cases hk : k = n
  · subst hk
    rw [TicketLine.granted, h.state, TicketLine.granted]
  · rw [h.other k hk]

/-- R145, R149: how a line whose rest is over stands, and the arbiter. -/
structure Rested (n : Fin 8) (t : State) : Prop where
  since : (t.ticketLine n).sinceRest = 0
  rest : (t.ticketLine n).rest = none
  idle : (t.ticketLine n).queue = [] → (t.ticketLine n).state = .idle ∧ n ∉ t.print.order
  waits : (t.ticketLine n).queue ≠ [] → (t.ticketLine n).state = .waitPower ∧ t.print.order.getLast? = some n
    ∨ (t.ticketLine n).state = .printing ∧ t.print.order = [] ∧ t.grantedSum ≤ t.params.budget

/-- A line in IDLE out of the order, woken. -/
theorem wake_rested (hidle : (s.ticketLine n).state = .idle) (hsince : (s.ticketLine n).sinceRest = 0)
    (hrest : (s.ticketLine n).rest = none) (hn : n ∉ s.print.order) :
    Rested n (wake n s) ∧ (Stuck s → Stuck (wake n s)) := by
  rcases wake_cases n s with ⟨hno, h⟩ | ⟨⟨-, hq⟩, h, hover⟩ | ⟨⟨-, hq⟩, hnil, hfit, h⟩
  · rw [h]
    exact ⟨⟨hsince, hrest, fun _ => ⟨hidle, hn⟩, fun hq => absurd ⟨hidle, hq⟩ hno⟩, id⟩
  · rw [h]
    have hline : (enterOrder n id s).ticketLine n = { s.ticketLine n with state := .waitPower } := by
      rw [enterOrder_ticketLine, if_pos rfl, id]
    have horder : (enterOrder n id s).print.order = s.print.order ++ [n] := rfl
    refine ⟨⟨by rw [hline]; exact hsince, by rw [hline]; exact hrest, fun hno => absurd (by rw [hline] at hno; exact hno) hq,
      fun _ => .inl ⟨by rw [hline], by rw [horder]; simp⟩⟩, fun hstuck k hk => ?_⟩
    rw [enterOrder_grantedSum hidle]
    cases ho : s.print.order with
    | nil =>
      rw [horder, ho] at hk
      cases hk
      exact hover ho
    | cons i later =>
      rw [horder, ho] at hk
      exact hstuck k (by rw [ho]; exact hk)
  · rw [h]
    obtain ⟨told, hsend⟩ := sendElement_elements n (grantHead n [] (enterOrder n id s))
    have hgrant : (grantHead n [] (enterOrder n id s)).ticketLine n = { s.ticketLine n with state := .printing } := by
      rw [grantHead_ticketLine, if_pos rfl, enterOrder_ticketLine, if_pos rfl, id]
    have horder : (sendElement n (grantHead n [] (enterOrder n id s))).print.order = [] := hsend.order
    have hfigures : ∃ q, (sendElement n (grantHead n [] (enterOrder n id s))).ticketLine n
        = { s.ticketLine n with state := .printing, queue := q } ∧ q ≠ [] := by
      rcases sendElement_line n (grantHead n [] (enterOrder n id s)) with hl | hl
      · exact ⟨_, by rw [hl, hgrant], hq⟩
      · refine ⟨startedQueue (s.ticketLine n).queue, by rw [hl, hgrant], fun hno => hq ?_⟩
        have := startedQueue_figures (s.ticketLine n).queue
        rw [hno] at this
        simpa using this.symm
    obtain ⟨q, hline, hqne⟩ := hfigures
    have hparams : (sendElement n (grantHead n [] (enterOrder n id s))).params = s.params := hsend.touches .params (by simp)
    refine ⟨⟨by rw [hline]; exact hsince, by rw [hline]; exact hrest, fun hno => absurd (by rw [hline] at hno; exact hno) hqne,
      fun _ => .inr ⟨by rw [hline], horder, ?_⟩⟩, fun _ k hk => by rw [horder] at hk; cases hk⟩
    rw [hparams]
    refine le_trans (grantedSum_le_add (i := n) hparams fun k hk => ?_) hfit
    rw [sendElement_granted, grantHead_ticketLine] at hk
    by_cases hkn : k = n
    · exact .inl hkn
    · rw [if_neg (Ne.symm hkn), enterOrder_ticketLine, if_neg (Ne.symm hkn)] at hk
      exact .inr hk

/-- R149: a rest of 0 s is over at once. -/
theorem enterRest_rested (h : s.params.restTime = 0) (hn : (s.ticketLine n).state = .printing) :
    Rested n (enterRest n s) ∧ (PowerLaw s → Stuck (enterRest n s)) := by
  rw [enterRest_now h]
  obtain ⟨told, hsays, hv⟩ := release_vacated n (fun l => { l with state := .resting, sinceRest := 0, rest := none }) s
  have hwork := printWork_release (i := n) (s := s) (f := fun l => { l with state := .resting, sinceRest := 0, rest := none })
    (fun _ => rfl) (by simp [TicketLineState.atPower]) (by simp)
  have honly := release_only n (fun l => { l with state := .resting, sinceRest := 0, rest := none }) s
  generalize release n (fun l => { l with state := .resting, sinceRest := 0, rest := none }) s = u at hv hwork honly
  have hline : (u.onTicketLine n (fun l => { l with state := .idle, rest := none })).ticketLine n
      = { s.ticketLine n with state := .idle, sinceRest := 0, rest := none } := by
    rw [onTicketLine_ticketLine, if_pos rfl, hv.line]
  have hgranted : (u.onTicketLine n (fun l => { l with state := .idle, rest := none })).grantedSum = u.grantedSum := by
    refine grantedSum_congr rfl fun k => ?_
    by_cases hk : n = k
    · subst hk
      rw [hline, hv.line]
      rfl
    · rw [onTicketLine_ticketLine, if_neg hk]
  obtain ⟨hrested, hstuck⟩ := wake_rested (n := n) (s := u.onTicketLine n (fun l => { l with state := .idle, rest := none }))
    (by rw [hline]) (by rw [hline]) (by rw [hline]) hv.order
  refine ⟨hrested, fun hlaw => hstuck fun k hk => ?_⟩
  have hrel := (hv.releases hlaw (PowerLaw.printWork hwork hlaw)).stuck hn (honly .params (by simp))
  rw [hgranted]
  exact hrel k hk

end

end Sys2Proof.Machine
end

section
/-! PROOFS. What a completed element does, clause by clause: the element, the job's end with its report and the jobs served, and
the line going on (R147 to R149, R118, R142). -/

namespace Sys2Proof.Machine

-- ## A message's work, seen from before it and after the alarms latch

section
variable {bs : List Block} {s t u : State}

theorem inFlight_of_only (h : Only bs s t) (hb : .print ∉ bs) (k : Fin 8) : t.inFlight k = s.inFlight k := by
  rw [State.inFlight, State.headElement, ticketLine_of_only h hb, (h .print hb : t.print = s.print)]
  rfl

theorem Prints.congr {told : Line → List Frame} (h : Prints told s) (ho : Only bs s t) (hb : .print ∉ bs) : Prints told t := by
  have hp : t.print = s.print := ho .print hb
  simpa only [Prints, inFlight_of_only ho hb, hp] using h

theorem elementDone_taken {n : Fin 8} {e : Fin 256} {result : Byte} {x : ElementResult} (hq : s.quiet = true)
    (he : s.inFlight n = some e) (hx : result = 1 ∧ x = .printed ∨ result = 2 ∧ x = .spoiled) :
    ∃ v, Taken (.elementDone n (BitVec.ofNat 8 e.val) result) (completeElement n e x) s v := by
  refine message_taken hq (exec_elementDone n (BitVec.ofNat 8 e.val) result) fun v hv => ?_
  have hbyte : e.val = (BitVec.ofNat 8 e.val).toNat := by simp
  rw [inFlight_of_only hv (by simp), he]
  rcases hx with ⟨rfl, rfl⟩ | ⟨rfl, rfl⟩
  · exact if_pos hbyte
  · exact if_pos hbyte

theorem sameArbiter_of_only (h : Only bs s t) (hb : .print ∉ bs ∧ .params ∉ bs) : SameArbiter s t := .of_only h hb

end

-- ## An element that is not the last of its job (R147)

section
variable {n : Fin 8} {e e' : Fin 256} {result : Byte} {x : ElementResult} {y : Element} {s : State} {j : Job} {rest : List Job}

theorem elementDone_next (hq : s.quiet = true) (he : s.inFlight n = some e)
    (hx : result = 1 ∧ x = .printed ∨ result = 2 ∧ x = .spoiled) (hqueue : (s.ticketLine n).queue = j :: rest)
    (hmore : 2 ≤ j.remaining) (hstop : (s.ticketLine n).stopPending = false)
    (hrest : s.params.restAfter = 0 ∨ (s.ticketLine n).sinceRest + 1 < s.params.restAfter) (hbound : s.params.restAfter ≤ 32)
    (hnext : j.less.next s.print.pool = some e') (hy : s.print.pool.get e' = some y) :
    ∃ t, exec (.elementDone n (BitVec.ofNat 8 e.val) result) s = .next t
      ∧ Effect [.print] (on (.tl n) [elementFrame e' y]) s t
      ∧ t.ticketLine n = { s.ticketLine n with
          sinceRest := min ((s.ticketLine n).sinceRest + 1) 32
          queue := { j with remaining := j.remaining - 1, started := true } :: rest }
      ∧ t.print.pool.get e = (s.print.pool.get e).map (fun y => { y with result := x })
      ∧ (∀ k, k ≠ e → t.print.pool.get k = s.print.pool.get k)
      ∧ t.print.waiting = s.print.waiting ∧ t.print.order = s.print.order
      ∧ (∀ k, k ≠ n → t.ticketLine k = s.ticketLine k) := by
  obtain ⟨v, hv, run⟩ := elementDone_taken hq he hx
  have hline := fun k => ticketLine_of_only hv (by simp) k
  have hprint : v.print = s.print := hv .print (by simp)
  have hcounted := counted_line (n := n) (e := e) (x := x) (s := v) (by rw [hline]; exact hqueue)
  have hself := hcounted n
  rw [if_pos rfl, hline] at hself
  have honly := counted_only n e x v
  have hpool : ∀ k, (counted n e x v).print.pool.get k = if k = e then (s.print.pool.get e).map (fun y => { y with result := x })
      else s.print.pool.get k := fun k => by rw [counted_pool, hprint]
  have hnext' : j.less.next (counted n e x v).print.pool = some e' := by rw [counted_next, hprint, hnext]
  have hmatters : v.print.order = s.print.order ∧ v.print.waiting = s.print.waiting := by rw [hprint]; exact ⟨rfl, rfl⟩
  have hdo := completeElement_more (n := n) (e := e) (x := x) (s := v) (by rw [hline]; exact hqueue) hmore
  have hstays : (counted n e x v).print.order = s.print.order ∧ (counted n e x v).print.waiting = s.print.waiting := hmatters
  generalize counted n e x v = u at hcounted hself honly hpool hnext' hdo hstays
  have hparams : u.params = s.params := (honly .params (by simp)).trans (hv .params (by simp))
  rw [goOn_prints ⟨by rw [hself]; exact hstop, .inr rfl, by rw [hself, hparams]; dsimp only; omega⟩ (by simp [hself])] at hdo
  obtain ⟨y', hy', hframe⟩ : ∃ y', u.print.pool.get e' = some y' ∧ elementFrame e' y' = elementFrame e' y := by
    by_cases hk : e' = e
    · subst hk
      exact ⟨{ y with result := x }, by rw [hpool, if_pos rfl, hy, Option.map_some], rfl⟩
    · exact ⟨y, by rw [hpool, if_neg hk, hy], rfl⟩
  obtain ⟨told, hsend⟩ := sendElement_elements n u
  obtain ⟨htold, hsent⟩ := hsend.line (j := j.less) (later := rest) (by rw [hself]) hnext' hy'
  rw [hframe] at htold
  subst htold
  obtain ⟨t, hex, heffect, hQ⟩ := run (bs := [.print]) (Q := fun t => Only [.lines, .latched, .choice] (sendElement n u) t) hdo
    ((honly.mono (by simp)).trans (hsend.touches.mono (by simp))) (hsend.sends.after_only honly (by simp)) (by simp) fun t ht => ht
  have ht : t.print = (sendElement n u).print := hQ .print (by simp)
  have htline := fun k => ticketLine_of_only hQ (by simp) k
  refine ⟨t, hex, heffect, by rw [htline, hsent, hself]; rfl, by rw [ht, hsend.pool, hpool, if_pos rfl], fun k hk => by
    rw [ht, hsend.pool, hpool, if_neg hk], by rw [ht, hsend.waiting, hstays.2], by rw [ht, hsend.order, hstays.1], fun k hk => ?_⟩
  rw [htline, hsend.other k hk, hcounted, if_neg (Ne.symm hk), hline]

end

-- ## What is reported in the sale's tickets (R118)

/-- The tickets of a sale with the results of the elements written. -/
def reported (elements : List Element) (ts : List Ticket) : List Ticket :=
  elements.foldl (fun ts x =>
    if x.kind = .ticket then ts.modify x.index (fun t => { t with state := x.result.ticketState }) else ts) ts

theorem reported_length (elements : List Element) (ts : List Ticket) : (reported elements ts).length = ts.length := by
  induction elements generalizing ts with
  | nil => rfl
  | cons x xs ih =>
    show (reported xs _).length = _
    rw [ih]
    dsimp only
    split
    · exact List.length_modify ..
    · rfl

/-- A ticket that no element names stays. -/
theorem reported_other {elements : List Element} {ts : List Ticket} {i : Nat}
    (h : ∀ x ∈ elements, ¬ (x.kind = .ticket ∧ x.index = i)) : (reported elements ts)[i]? = ts[i]? := by
  induction elements generalizing ts with
  | nil => rfl
  | cons x xs ih =>
    show (reported xs _)[i]? = _
    rw [ih fun y hy => h y (List.mem_cons_of_mem _ hy)]
    dsimp only
    split
    · next hkind =>
      have hne : x.index ≠ i := fun hi => h x (by simp) ⟨hkind, hi⟩
      rw [List.getElem?_modify_ne _ _ hne]
    · rfl

/-- The ticket of an element that alone names it takes its result. -/
theorem reported_self {elements : List Element} {ts : List Ticket} {x : Element} {u : Ticket} (hx : x ∈ elements)
    (hkind : x.kind = .ticket) (hnd : ((elements.filter (fun y => y.kind == .ticket)).map (·.index)).Nodup)
    (hu : ts[x.index]? = some u) : (reported elements ts)[x.index]? = some { u with state := x.result.ticketState } := by
  induction elements generalizing ts u with
  | nil => cases hx
  | cons y ys ih =>
    show (reported ys (if y.kind = .ticket then _ else ts))[x.index]? = _
    by_cases hy : y.kind = .ticket
    · rw [if_pos hy]
      rw [List.filter_cons_of_pos (by simpa using hy), List.map_cons, List.nodup_cons] at hnd
      obtain ⟨hfirst, hnd⟩ := hnd
      have hapart : ∀ z ∈ ys, z.kind = .ticket → z.index ≠ y.index := fun z hz hzk hzi =>
        hfirst (hzi ▸ List.mem_map_of_mem (List.mem_filter.2 ⟨hz, by simpa using hzk⟩))
      rcases List.mem_cons.1 hx with rfl | hx'
      · rw [reported_other fun z hz hzi => hapart z hz hzi.1 hzi.2, List.getElem?_modify_eq, hu]
        rfl
      · refine ih hx' hnd ?_
        rw [List.getElem?_modify_ne _ _ (Ne.symm (hapart x hx' hkind)), hu]
    · rw [if_neg hy]
      rw [List.filter_cons_of_neg (by simpa using hy)] at hnd
      refine ih ((List.mem_cons.1 hx).resolve_left fun h => ?_) hnd hu
      subst h
      exact hy hkind

theorem ticketState_eq (x : ElementResult) : x.ticketState = if x = .spoiled then .spoiled else .printed := by
  cases x <;> rfl

theorem reported_reports {elements : List Element} {ts : List Ticket}
    (hnd : ((elements.filter (fun y => y.kind == .ticket)).map (·.index)).Nodup) (i : Nat) :
    ∀ u ∈ ts[i]?, ∃ u' ∈ (reported elements ts)[i]?, Reported elements i u u' := by
  intro u hu
  have hu' : ts[i]? = some u := hu
  by_cases h : ∃ x ∈ elements, x.kind = .ticket ∧ x.index = i
  · obtain ⟨x, hx, hkind, hi⟩ := h
    subst hi
    refine ⟨_, reported_self hx hkind hnd hu', fun z hz hzk hzi => ?_, fun hno => absurd ⟨hkind, rfl⟩ (hno x hx)⟩
    have hsame : z = x := by
      refine List.inj_on_of_nodup_map hnd (List.mem_filter.2 ⟨hz, by simpa using hzk⟩) (List.mem_filter.2 ⟨hx, by simpa using hkind⟩) hzi
    rw [hsame, ticketState_eq]
  · have hno : ∀ x ∈ elements, ¬ (x.kind = .ticket ∧ x.index = i) := fun x hx hxi => h ⟨x, hx, hxi⟩
    exact ⟨u, (reported_other hno).trans hu', fun z hz hzk hzi => absurd ⟨hzk, hzi⟩ (hno z hz), fun _ => rfl⟩

/-- The elements of a job that ends, with their results. -/
theorem counted_results {n : Fin 8} {e : Fin 256} {x : ElementResult} {s v : State} {j : Job} (hp : v.print = s.print) :
    (j.less.chain (counted n e x v).print.pool).filterMap (counted n e x v).print.pool.get = j.results e x s := by
  rw [counted_chain, Job.results, hp]
  refine List.filterMap_congr fun k _ => ?_
  rw [counted_pool, hp]
  by_cases hk : k = e
  · subst hk
    simp
  · simp only [if_neg hk, Option.map_id']

end Sys2Proof.Machine
end

section
/-! PROOFS. The last element of a job, and the line that stops, halts, rests, goes on or becomes IDLE after a completed element
(R148, R149). -/

namespace Sys2Proof.Machine

-- ## The jobs served, as the queues show them

section
variable {s t u : State} {live : List WaitEntry} {made : List Job} {queue before : List Job}

/-- Jobs with the same figures are made alike. -/
theorem made_of_figures {queue : List Job} (h : List.Forall₂ (Made t) live made)
    (hq : queue.map Job.figures = made.map Job.figures) : List.Forall₂ (Made t) live queue := by
  induction h generalizing queue with
  | nil =>
    rw [List.map_nil, List.map_eq_nil_iff] at hq
    subst hq
    exact .nil
  | cons hw hrest ih =>
    cases queue with
    | nil => simp at hq
    | cons j later =>
      rw [List.map_cons, List.map_cons, List.cons.injEq] at hq
      obtain ⟨hj, hlater⟩ := hq
      refine .cons ?_ (ih hlater)
      simp only [Job.figures, Prod.mk.injEq] at hj
      obtain ⟨hsale, horigin, hfirst, hremaining, hreprint⟩ := hj
      obtain ⟨hsale', horigin', hremaining', hreprint', k, plans, hk, hcomposed, hholds⟩ := hw
      refine ⟨hsale.trans hsale', horigin.trans horigin', hremaining.trans hremaining', hreprint.trans hreprint', k, plans, hk,
        hcomposed, ?_⟩
      simpa only [Job.holds, Job.chain, hfirst] using hholds

theorem figures_of_made (h : List.Forall₂ (Made t) live queue) : queue.map Job.figures
    = (live.zip queue).map (fun x => (x.1.sale, x.1.origin, x.2.first, x.1.needed, x.1.makeUp.reprints)) := by
  induction h with
  | nil => rfl
  | cons hw _ ih =>
    obtain ⟨hsale, horigin, hremaining, hreprint, -⟩ := hw
    rw [List.map_cons, List.zip_cons_cons, List.map_cons, ih, Job.figures, hsale, horigin, hremaining, hreprint]

/-- The jobs made stand behind those that were there. -/
theorem queue_of_made (hq : queue.map Job.figures = before.map Job.figures ++ made.map Job.figures)
    (hmade : List.Forall₂ (Made t) live made) :
    queue.map Job.figures = before.map Job.figures ++ (live.zip (queue.drop before.length)).map (fun x =>
        (x.1.sale, x.1.origin, x.2.first, x.1.needed, x.1.makeUp.reprints))
      ∧ queue.length = before.length + live.length
      ∧ ∀ x ∈ live.zip (queue.drop before.length), ∃ u plans, t.sale x.1.sale = some u
        ∧ Composed t u x.1.makeUp plans ∧ x.2.holds u.number plans t.print.pool := by
  have hdrop : (queue.drop before.length).map Job.figures = made.map Job.figures := by
    rw [List.map_drop, hq, ← List.length_map (f := Job.figures), List.drop_left]
  have hthere := made_of_figures hmade hdrop
  have hlen := congrArg List.length hq
  simp only [List.length_append, List.length_map] at hlen
  refine ⟨by rw [hq, ← figures_of_made hthere, hdrop], by rw [hlen, hmade.length_eq], fun x hx => ?_⟩
  obtain ⟨-, -, -, -, k, plans, hrest⟩ := List.forall₂_zip hthere (show (x.1, x.2) ∈ _ from hx)
  exact ⟨k, plans, hrest⟩

end

-- ## The line that gives up its grant

section
variable {n : Fin 8} {queue : List Job} {served : List WaitEntry} {f later : Line → List Frame} {s v u t : State} {done : Bool}
  {g : TicketLine → TicketLine}

/-- The line with the element counted. -/
def TicketLine.countedTo (l : TicketLine) (queue : List Job) : TicketLine :=
  { l with sinceRest := min (l.sinceRest + 1) 32, queue := queue }

/-- A line that goes on by giving up its grant. -/
theorem Reaches.releases (h : Reaches n queue served f s v u) (hgo : goOn n done u = release n g u)
    (hlater : Says later u (goOn n done u)) (ht : Only [.lines, .latched, .choice] (goOn n done u) t) :
    (∃ q, t.ticketLine n = g ((s.ticketLine n).countedTo q))
      ∧ (served = [] → t.ticketLine n = g ((s.ticketLine n).countedTo queue)
        ∧ (PowerLaw s → Releases n (g ((s.ticketLine n).countedTo queue)) (after f later) s t)) := by
  obtain ⟨q, hline, hq⟩ := h.line
  have hwork := printWork_goOn n done u
  have hmoves := goOn_moves n done u
  rw [hgo] at hlater ht hwork hmoves
  obtain ⟨told, hsays, hv⟩ := release_vacated n g u
  have htold := hsays.unique hlater
  subst htold
  have htline := ticketLine_of_only ht (by simp) n
  have hself := hv.line
  rw [hline] at hself
  refine ⟨⟨q, htline.trans hself⟩, fun hnil => ?_⟩
  have hq' := hq hnil
  subst hq'
  refine ⟨htline.trans hself, fun hlaw => ?_⟩
  have hu := h.power hlaw
  have hrel := (hv.releases hu (PowerLaw.printWork hwork hu)).congr (s' := u) (t' := t) ⟨rfl, rfl, rfl⟩
    (.of_only ht (by simp)) (by rw [(ht .print (by simp) : t.print = _)])
  rw [hline] at hrel
  rw [h.silent hnil, nothing_after]
  exact hrel.of_start (h.order hnil).symm (h.touches .params (by simp) : u.params = s.params).symm (by rw [hline])
    fun k hk => (h.other hnil k hk).symm

theorem Reaches.notDue (h : Reaches n queue served f s v u) (hstop : (s.ticketLine n).stopPending = false)
    (hhalt : (s.ticketLine n).haltPending = false) (hrest : s.params.restAfter = 0 ∨ (s.ticketLine n).sinceRest + 1 < s.params.restAfter)
    (hbound : s.params.restAfter ≤ 32) : NotDue n done u := by
  obtain ⟨q, hline, -⟩ := h.line
  have hparams : u.params = s.params := h.touches .params (by simp)
  refine ⟨by rw [hline]; exact hstop, .inl (by rw [hline]; exact hhalt), ?_⟩
  rw [hline, hparams]
  dsimp only
  omega

theorem served_nil {before after : List WaitEntry} (h : before = served ++ after) (hsame : after = before) : served = [] := by
  have hlen := congrArg List.length h
  rw [List.length_append, hsame] at hlen
  exact List.length_eq_zero_iff.1 (by omega)

end

-- ## The sale of a job that ends (R118)

section
variable {n : Fin 8} {e : Fin 256} {x : ElementResult} {s v : State} {j : Job} {rest : List Job} {k : Sale}

/-- The sale of a job that ends, with its results. -/
def Sale.reportedBy (elements : List Element) (k : Sale) : Sale :=
  { k with jobLive := false, tickets := reported elements k.tickets }

theorem sale_onSale_other {m number : Nat} {f : Sale → Sale} (hm : m ≠ number) (hf : ∀ k, (f k).number = k.number) (s : State) :
    (s.onSale number f).sale m = s.sale m := by
  unfold State.sale State.onSale
  dsimp only
  rw [List.find?_map]
  have hid : ((fun r : Sale => r.number == m) ∘ fun r : Sale => if r.number == number then f r else r) = fun r => r.number == m := by
    funext r
    simp only [Function.comp_apply]
    split
    · rw [hf]
    · rfl
  rw [hid]
  cases hfind : s.sales.records.find? (fun r => r.number == m) with
  | none => rfl
  | some r =>
    have hr : r.number = m := by simpa using List.find?_some hfind
    rw [Option.map_some, if_neg (by simpa [hr] using hm)]

theorem finished_counted_sales (hv : Only [.lines] s v) : (finished n j.less rest (counted n e x v)).sales
    = (s.onSale j.sale (Sale.reportedBy (j.results e x s))).sales := by
  rw [finished_sales, counted_results (hv .print (by simp))]
  have hsales : (counted n e x v).sales = s.sales := (counted_only n e x v .sales (by simp)).trans (hv .sales (by simp))
  show ((counted n e x v).onSale j.sale (Sale.reportedBy (j.results e x s))).sales = _
  rw [onSale_sales, onSale_sales, hsales]

/-- What R118 leaves of the sales. -/
structure ReportedIn (j : Job) (elements : List Element) (k : Sale) (s t : State) : Prop where
  sales : t.sales = { s.sales with records := t.sales.records }
  sale : ∃ k', t.sale j.sale = some k' ∧ k' = { k with jobLive := false, tickets := k'.tickets }
    ∧ k'.tickets.length = k.tickets.length ∧ ∀ i, ∀ u ∈ k.tickets[i]?, ∃ u' ∈ k'.tickets[i]?, Reported elements i u u'
  other : ∀ m, m ≠ j.sale → t.sale m = s.sale m

theorem reportedIn_of_sales {elements : List Element} {t : State} (hk : s.sale j.sale = some k)
    (hnd : ((elements.filter (fun y => y.kind == .ticket)).map (·.index)).Nodup)
    (ht : t.sales = (s.onSale j.sale (Sale.reportedBy elements)).sales) : ReportedIn j elements k s t := by
  have hsale : ∀ m, t.sale m = (s.onSale j.sale (Sale.reportedBy elements)).sale m := fun m => by rw [State.sale, ht, State.sale]
  refine ⟨?_, ⟨Sale.reportedBy elements k, ?_, rfl, reported_length .., reported_reports hnd⟩, fun m hm => ?_⟩
  · rw [ht, onSale_sales]
  · rw [hsale, sale_onSale (f := Sale.reportedBy elements) hk (fun _ => rfl)]
  · rw [hsale, sale_onSale_other (f := Sale.reportedBy elements) hm (fun _ => rfl)]

end

end Sys2Proof.Machine
end

section
/-! PROOFS. ELEMENT_DONE of the last element of a job, and the line after any element (R148, R149). -/

namespace Sys2Proof.Machine

section
variable {n : Fin 8} {e : Fin 256} {result : Byte} {x : ElementResult} {s : State} {j : Job} {rest : List Job} {k : Sale}

theorem jobFits_of_freed {s t : State} (hp : t.print.pool = s.print.pool) (hq : SameJobs s t) (i : Fin 8) (m : Nat) :
    t.jobFits i m = s.jobFits i m := by
  have hlen := congrArg List.length (hq i)
  simp only [List.length_map] at hlen
  rw [State.jobFits, State.jobFits, State.freeElements, State.freeElements, hp, hlen]

/-- The last element of a job done: the job's end, its report, the jobs served, and the line with nothing due going on. -/
theorem elementDone_last (hq : s.quiet = true) (he : s.inFlight n = some e)
    (hx : result = 1 ∧ x = .printed ∨ result = 2 ∧ x = .spoiled) (hqueue : (s.ticketLine n).queue = j :: rest)
    (hlast : j.remaining = 1) (hk : s.sale j.sale = some k)
    (hneeded : ∀ w ∈ s.print.waiting, w.needed = w.makeUp.count ∧ 0 < w.needed)
    (hnd : (((j.results e x s).filter (fun y => y.kind == .ticket)).map (·.index)).Nodup) :
    ∃ t told served, exec (.elementDone n (BitVec.ofNat 8 e.val) result) s = .next t
      ∧ Effect [.print, .sales] told s t ∧ (∀ m, told m ≠ [] → ∃ i, m = .tl i)
      ∧ (PowerLaw s → PoolLaw s → Prints told t)
      ∧ ReportedIn j (j.results e x s) k s t
      ∧ s.print.waiting = served ++ t.print.waiting
      ∧ (∀ w, t.print.waiting.head? = some w → t.sale w.sale ≠ none ∧ t.jobFits w.line w.needed = false)
      ∧ (∀ i, let before := if i = n then rest else (s.ticketLine i).queue
        let live := served.filter (fun w => w.line == i && (s.sale w.sale).isSome)
        (t.ticketLine i).queue.map Job.figures = before.map Job.figures
            ++ (live.zip ((t.ticketLine i).queue.drop before.length)).map (fun x =>
              (x.1.sale, x.1.origin, x.2.first, x.1.needed, x.1.makeUp.reprints))
        ∧ (t.ticketLine i).queue.length = before.length + live.length
        ∧ ∀ x ∈ live.zip ((t.ticketLine i).queue.drop before.length), ∃ u plans, t.sale x.1.sale = some u
          ∧ Composed t u x.1.makeUp plans ∧ x.2.holds u.number plans t.print.pool)
      ∧ (served = [] → ∀ e', t.print.pool.get e' = if e' ∈ j.chain s.print.pool then none else s.print.pool.get e')
      ∧ (served = [] → ∀ i, i ≠ n → t.ticketLine i = s.ticketLine i ∨ i ∈ s.print.order)
      ∧ ((s.ticketLine n).stopPending = false → (s.ticketLine n).haltPending = false →
          (s.params.restAfter = 0 ∨ (s.ticketLine n).sinceRest + 1 < s.params.restAfter) → s.params.restAfter ≤ 32 → served = [] →
        (rest = [] → t.ticketLine n = { (s.ticketLine n).countedTo [] with state := .idle }
          ∧ (PowerLaw s → Releases n { (s.ticketLine n).countedTo [] with state := .idle } told s t))
        ∧ ∀ j' later first y, rest = j' :: later → j'.next t.print.pool = some first →
            t.print.pool.get first = some y →
            t.ticketLine n = (s.ticketLine n).countedTo ({ j' with started := true } :: later)
            ∧ told = on (.tl n) [elementFrame first y] ∧ t.print.order = s.print.order
            ∧ ∀ i, i ≠ n → t.ticketLine i = s.ticketLine i) := by
  obtain ⟨v, hv, run⟩ := elementDone_taken hq he hx
  have hprinting := inFlight_printing he
  have hdo := completeElement_last (n := n) (e := e) (x := x) (s := v) (by rw [ticketLine_of_only hv (by simp)]; exact hqueue) hlast
  obtain ⟨served, told, hreach, hserves, hstop⟩ := reaches_last (e := e) (x := x) hv hqueue hprinting
  have hwline := finished_counted_line (e := e) (x := x) hv hqueue
  have hwpool : ∀ e', (finished n j.less rest (counted n e x v)).print.pool.get e'
      = if e' ∈ j.chain s.print.pool then none else s.print.pool.get e' := fun e' => by
    have hchain : j.less.chain (counted n e x v).print.pool = j.chain s.print.pool := by
      rw [counted_chain, (hv .print (by simp) : v.print = s.print)]
      rfl
    rw [finished_pool, hchain, counted_pool, (hv .print (by simp) : v.print = s.print)]
    by_cases hmem : e' ∈ j.chain s.print.pool
    · rw [if_pos hmem, if_pos hmem]
    · rw [if_neg hmem, if_neg hmem, if_neg]
      intro hee
      rw [State.inFlight, if_pos hprinting, State.headElement, hqueue] at he
      exact hmem (hee ▸ next_mem_chain he)
  have hwsales := finished_counted_sales (n := n) (e := e) (x := x) (j := j) (rest := rest) hv
  have hwwaiting : (finished n j.less rest (counted n e x v)).print.waiting = s.print.waiting := by
    show v.print.waiting = _
    rw [(hv .print (by simp) : v.print = s.print)]
  generalize finished n j.less rest (counted n e x v) = w at hserves hwline hwpool hwsales hwwaiting
  generalize completeJob n (counted n e x v) = u at hdo hreach hserves hstop
  have hmakes := hserves.makes
  obtain ⟨later, hgo⟩ := goOn_moves n true u
  have hvu : Only [.print, .lines, .choice, .sales] v u := (hv.symm.mono (by simp)).trans hreach.touches
  obtain ⟨t, hex, heffect, hQ⟩ := run (bs := [.print, .sales]) (Q := fun t => Only [.lines, .latched, .choice] (goOn n true u) t) hdo
    ((hvu.mono (by simp)).trans (hgo.touches.mono (by simp))) (hreach.tells.trans hgo.tells) (by simp) fun t ht => ht
  have hut : Only [.print, .lines, .latched, .choice] u t := (hgo.touches.mono (by simp)).trans (hQ.mono (by simp))
  have htprint : t.print = (goOn n true u).print := hQ .print (by simp)
  have htline := fun i => ticketLine_of_only hQ (by simp) i
  have htpool : t.print.pool = u.print.pool := by rw [htprint, hgo.pool]
  have htsale : ∀ m, t.sale m = u.sale m := fun m => by rw [State.sale, (hut .sales (by simp) : t.sales = u.sales), State.sale]
  have htjobs : SameJobs u t := fun i => by rw [htline, hgo.jobs]
  have htwaiting : t.print.waiting = u.print.waiting := by rw [htprint, hgo.waiting]
  have hreported : ReportedIn j (j.results e x s) k s t :=
    reportedIn_of_sales hk hnd ((hut .sales (by simp)).trans ((hmakes.touches .sales (by simp)).trans hwsales))
  have halive : ∀ m, (w.sale m).isSome = (s.sale m).isSome := fun m => by
    have hwm : w.sale m = t.sale m := by rw [htsale, hmakes.sale]
    rw [hwm]
    by_cases hm : m = j.sale
    · subst hm
      obtain ⟨k', hk', -⟩ := hreported.sale
      rw [hk', hk]
      rfl
    · rw [hreported.other m hm]
  refine ⟨t, after told later, served, hex, heffect, after_elsewhere hreach.elsewhere hgo.elsewhere, fun hpower hpool =>
    (hreach.prints hprinting hgo.tells hpower hpool).congr hQ (by simp), hreported, by rw [htwaiting]; exact hreach.waiting,
    fun y hy => ?_, fun i => ?_, fun hnil e' => ?_, fun hnil i hi => ?_, fun hstopPending hhalt hrest hbound hnil => ⟨?_, ?_⟩⟩
  · rw [htwaiting] at hy
    rw [htsale, jobFits_of_freed htpool htjobs]
    exact hstop y hy
  · obtain ⟨made, hq', hmade⟩ := hserves.jobs (by rw [hwwaiting]; exact hneeded) i
    simp only [halive] at hmade
    refine queue_of_made (made := made) ?_ (hmade.imp fun y j' hy => hy.congr hut (by simp) htsale fun _ _ => by rw [htpool])
    rw [htjobs, hq', hwline]
    by_cases hi : i = n
    · subst hi
      rw [if_pos rfl, if_pos rfl]
    · rw [if_neg (Ne.symm hi), if_neg hi]
  · rw [htpool, hserves.still hnil, hwpool]
  · rw [htline]
    rcases hgo.other i hi with h | h
    · rw [h]
      exact .inl (hreach.other hnil i hi)
    · exact .inr (hreach.order hnil ▸ h)
  · rintro rfl
    obtain ⟨q, hline, hq'⟩ := hreach.line
    have hempty := hq' hnil
    subst hempty
    have hidles := goOn_idles (n := n) (done := true) (s := u) (hreach.notDue hstopPending hhalt hrest hbound) (by rw [hline])
    obtain ⟨-, hend⟩ := hreach.releases (g := fun l => { l with state := .idle }) hidles hgo.tells hQ
    exact hend hnil
  · rintro j' rest' first y rfl hnext hy
    obtain ⟨q, hline, hq'⟩ := hreach.line
    have hfull := hq' hnil
    subst hfull
    have hprints := goOn_prints (n := n) (done := true) (s := u) (hreach.notDue hstopPending hhalt hrest hbound) (by simp [hline])
    obtain ⟨told', hsend⟩ := sendElement_elements n u
    rw [← hprints] at hsend
    have hsame := hsend.sends.unique hgo.tells
    subst hsame
    rw [htpool] at hnext hy
    obtain ⟨htold, hsent⟩ := hsend.line (j := j') (later := rest') (by rw [hline]) hnext hy
    refine ⟨by rw [htline, hsent, hline]; rfl, by rw [hreach.silent hnil, nothing_after, htold], ?_, fun i hi => ?_⟩
    · rw [htprint, hsend.order, hreach.order hnil]
    · rw [htline, hsend.other i hi, hreach.other hnil i hi]

/-- What a line comes to after an element, by its marks and its rest. -/
theorem elementDone_comes (hq : s.quiet = true) (he : s.inFlight n = some e) (hx : result = 1 ∨ result = 2)
    (hqueue : (s.ticketLine n).queue = j :: rest) (hpos : 1 ≤ j.remaining) :
    let queue := if j.remaining = 1 then rest else { j with remaining := j.remaining - 1 } :: rest
    let l := s.ticketLine n
    let since := min (l.sinceRest + 1) 32
    let rests : Prop := l.stopPending = false ∧ (l.haltPending = false ∨ 2 ≤ j.remaining) ∧ s.params.restAfter ≠ 0
      ∧ s.params.restAfter ≤ since
    ∃ t told, exec (.elementDone n (BitVec.ofNat 8 e.val) result) s = .next t
      ∧ Effect [.print, .sales] told s t ∧ (∀ m, told m ≠ [] → ∃ i, m = .tl i)
      ∧ (PowerLaw s → PoolLaw s → Prints told t)
      ∧ (2 ≤ j.remaining → t.sales = s.sales ∧ t.print.waiting = s.print.waiting
          ∧ ∀ k, t.print.pool.get k = if k = e then (s.print.pool.get e).map (fun y =>
              { y with result := if result = 1 then .printed else .spoiled }) else s.print.pool.get k)
      ∧ (∀ l', (l.stopPending = true ∧ l' = { l with
            state := .stopped, cause := some .stop, stopPending := false, sinceRest := since, queue := queue }
          ∨ l.stopPending = false ∧ l.haltPending = true ∧ j.remaining = 1 ∧ l' = { l with
            state := .halted, haltPending := false, sinceRest := 0, queue := queue }
          ∨ rests ∧ s.params.restTime ≠ 0 ∧ l' = { l with
            state := .resting, sinceRest := 0, rest := some s.params.restTime, queue := queue }) →
        t.ticketLine n = { l' with queue := (t.ticketLine n).queue }
          ∧ (t.print.waiting = s.print.waiting → (t.ticketLine n).queue = queue
            ∧ (PowerLaw s → Releases n l' told s t)))
      ∧ (rests → s.params.restTime = 0 → Rested n t ∧ (PowerLaw s → Stuck t)) := by
  intro queue l since rests
  have hx' : ∃ x, (result = 1 ∧ x = ElementResult.printed ∨ result = 2 ∧ x = .spoiled)
      ∧ x = if result = 1 then .printed else .spoiled := by
    rcases hx with rfl | rfl
    · exact ⟨.printed, .inl ⟨rfl, rfl⟩, rfl⟩
    · exact ⟨.spoiled, .inr ⟨rfl, rfl⟩, rfl⟩
  obtain ⟨x, hx', hxeq⟩ := hx'
  rw [← hxeq]
  obtain ⟨v, hv, run⟩ := elementDone_taken hq he hx'
  have hprinting := inFlight_printing he
  have hvqueue : (v.ticketLine n).queue = j :: rest := by rw [ticketLine_of_only hv (by simp)]; exact hqueue
  obtain ⟨done, u, served, told, hdone, hdo, hreach, hmore⟩ : ∃ done u served told,
      (done = true ↔ j.remaining = 1) ∧ completeElement n e x v = goOn n done u ∧ Reaches n queue served told s v u
      ∧ (2 ≤ j.remaining → u.sales = s.sales ∧ u.print.waiting = s.print.waiting
        ∧ ∀ k, u.print.pool.get k = if k = e then (s.print.pool.get e).map (fun y => { y with result := x })
          else s.print.pool.get k) := by
    by_cases hlast : j.remaining = 1
    · obtain ⟨served, told, hreach, -⟩ := reaches_last (e := e) (x := x) hv hqueue hprinting
      refine ⟨true, _, served, told, by simp [hlast], completeElement_last hvqueue hlast, ?_, fun hmore => by omega⟩
      rw [show queue = rest from if_pos hlast]
      exact hreach
    · have honly := counted_only n e x v
      have hprint : v.print = s.print := hv .print (by simp)
      refine ⟨false, _, [], nothing, by simp [hlast], completeElement_more hvqueue (by omega), ?_, fun _ =>
        ⟨(honly .sales (by simp)).trans (hv .sales (by simp)), ?_, fun k => by rw [counted_pool, hprint]⟩⟩
      · rw [show queue = j.less :: rest from if_neg hlast]
        exact reaches_more hv hqueue hprinting
      · show v.print.waiting = _
        rw [hprint]
  obtain ⟨later, hgo⟩ := goOn_moves n done u
  have hvu : Only [.print, .lines, .choice, .sales] v u := (hv.symm.mono (by simp)).trans hreach.touches
  obtain ⟨t, hex, heffect, hQ⟩ := run (bs := [.print, .sales]) (Q := fun t => Only [.lines, .latched, .choice] (goOn n done u) t) hdo
    ((hvu.mono (by simp)).trans (hgo.touches.mono (by simp))) (hreach.tells.trans hgo.tells) (by simp) fun t ht => ht
  have htprint : t.print = (goOn n done u).print := hQ .print (by simp)
  have htparams : t.params = s.params := (hQ .params (by simp)).trans ((hgo.touches .params (by simp)).trans
    (hreach.touches .params (by simp)))
  obtain ⟨q, hline, -⟩ := hreach.line
  refine ⟨t, after told later, hex, heffect, after_elsewhere hreach.elsewhere hgo.elsewhere, fun hpower hpool =>
    (hreach.prints hprinting hgo.tells hpower hpool).congr hQ (by simp), fun h2 => ?_, fun l' hl' => ?_, fun hrests htime => ?_⟩
  · obtain ⟨hsales, hwaiting, hpool⟩ := hmore h2
    exact ⟨(hQ .sales (by simp)).trans ((hgo.touches .sales (by simp)).trans hsales), by rw [htprint, hgo.waiting, hwaiting],
      fun k => by rw [htprint, hgo.pool, hpool]⟩
  · obtain ⟨g, hrel, hlg, hkeep⟩ : ∃ g : TicketLine → TicketLine, goOn n done u = release n g u ∧ l' = g (l.countedTo queue)
        ∧ ∀ q, g (l.countedTo q) = { g (l.countedTo queue) with queue := q } := by
      have hparams : u.params = s.params := hreach.touches .params (by simp)
      rcases hl' with ⟨hstop, rfl⟩ | ⟨hstop, hhalt, hlast, rfl⟩ | ⟨⟨hstop, hhalt, hafter, hdue⟩, htime, rfl⟩
      · exact ⟨_, goOn_stops (by rw [hline]; exact hstop), rfl, fun _ => rfl⟩
      · exact ⟨_, goOn_halts (by rw [hline]; exact hstop) (by rw [hline]; exact hhalt) (hdone.2 hlast), rfl, fun _ => rfl⟩
      · refine ⟨_, (goOn_rests (by rw [hline]; exact hstop) ?_ ?_).trans (enterRest_later (by rw [hparams]; exact htime)), ?_, ?_⟩
        · rw [hline]
          refine hhalt.imp id fun h2 => ?_
          cases hd : done with
          | false => rfl
          | true =>
            have := hdone.1 hd
            omega
        · rw [hline, hparams]
          exact ⟨hafter, hdue⟩
        · rw [hparams]
          rfl
        · exact fun _ => rfl
    obtain ⟨⟨q', hq'⟩, hend⟩ := hreach.releases hrel hgo.tells hQ
    refine ⟨?_, fun hwaiting => ?_⟩
    · rw [hq', hkeep, hlg]
    · have hnil : served = [] := served_nil hreach.waiting (by rw [← hgo.waiting, ← htprint, hwaiting])
      obtain ⟨hself, hreleases⟩ := hend hnil
      rw [hlg]
      exact ⟨by rw [hself, hkeep], hreleases⟩
  · obtain ⟨hstop, hhalt, hafter, hdue⟩ := hrests
    have hparams : u.params = s.params := hreach.touches .params (by simp)
    have hgoes : goOn n done u = enterRest n u := by
      refine goOn_rests (by rw [hline]; exact hstop) ?_ (by rw [hline, hparams]; exact ⟨hafter, hdue⟩)
      rw [hline]
      refine hhalt.imp id fun h2 => ?_
      cases hd : done with
      | false => rfl
      | true =>
        have := hdone.1 hd
        omega
    obtain ⟨hrested, hstuck⟩ := enterRest_rested (n := n) (s := u) (by rw [hparams]; exact htime) (by rw [hline]; exact hprinting)
    rw [← hgoes] at hrested hstuck
    have htline := ticketLine_of_only hQ (by simp) n
    have hsum : t.grantedSum = (goOn n done u).grantedSum :=
      (SameArbiter.of_only hQ (by simp)).grantedSum
    have htpar : t.params = (goOn n done u).params := hQ .params (by simp)
    refine ⟨⟨htline ▸ hrested.since, htline ▸ hrested.rest, ?_, ?_⟩, fun hlaw => ?_⟩
    · rw [htline, htprint]
      exact hrested.idle
    · rw [htline, htprint, hsum, htpar]
      exact hrested.waits
    · have := hstuck (hreach.power hlaw)
      simpa only [Stuck, htprint, hsum, htpar] using this

end

end Sys2Proof.Machine
end

section
/-! PROOFS. The printers' reports and the faults (R149, R153 to R156), and the statement about them and about completed elements. -/

namespace Sys2Proof.Machine

-- ## A ticket line's record replaced

section
variable {bs : List Block} {out : Line → List Frame} {s t u v : State} {n : Fin 8} {l : TicketLine}

theorem Sends.withLine {k : Line} {fs : List Frame} (h : Sends k fs s u) : Sends k fs (s.withTicketLine n l) u := by
  obtain ⟨hsending, hreceiver, hbad, hhanded⟩ := h
  exact ⟨hsending, hreceiver, hbad, hhanded⟩

theorem Effect.withLine (h : Effect (.print :: bs) out s t) (hp : t.print = { s.print with lines := s.print.lines.set n l }) :
    Effect bs out (s.withTicketLine n l) t := by
  have hmoved : Effect (.print :: bs) out (s.withTicketLine n l) t :=
    ⟨((withTicketLine_only n l s).mono (by simp)).symm.trans h.only, fun k => (h.sends k).withLine, h.latches⟩
  exact hmoved.without hp

theorem inFlight_congr {k : Fin 8} (hp : t.print.pool = s.print.pool) (hstate : (t.ticketLine k).state = (s.ticketLine k).state)
    (hq : (t.ticketLine k).queue = (s.ticketLine k).queue) : t.inFlight k = s.inFlight k := by
  rw [State.inFlight, State.inFlight, State.headElement, State.headElement, hp, hstate, hq]

/-- A message that replaces a line's record. -/
theorem Taken.withLine {i : Instr} {f : State → State} (h : Taken i f s v) (hf : f v = v.withTicketLine n l) :
    ∃ t, exec i s = .next t ∧ Effect [] nothing (s.withTicketLine n l) t := by
  obtain ⟨hv, run⟩ := h
  obtain ⟨t, hx, heffect, hQ⟩ := run (bs := [.print]) (out := nothing)
    (Q := fun t => Only [.lines, .latched, .choice] (v.withTicketLine n l) t) hf ((withTicketLine_only n l v).mono (by simp))
    (.of_only (withTicketLine_only n l v) (by simp)) (by simp) fun t ht => ht
  exact ⟨t, hx, heffect.withLine ((hQ .print (by simp)).trans (withTicketLine_print (hv .print (by simp))))⟩

/-- What a fault captures of the element in flight (R156). -/
def State.inFlightOf (s : State) (k : Fin 8) : Option Spoiled :=
  (s.inFlight k).bind (fun e => (s.print.pool.get e).map (fun x => ⟨x.sale, x.kind, x.index⟩))

theorem captureOf_eq (s : State) (k : Fin 8) (c : Cause) : s.captureOf k c = ⟨c, s.inFlightOf k⟩ := rfl

theorem capturing_eq (l : TicketLine) (c : Capture) : l.capturing c = { l with capture := some (l.capture.getD c) } := by
  unfold TicketLine.capturing
  cases l.capture <;> rfl

end

-- ## PRINTER_STATE (R153)

section
variable {n : Fin 8} {status : Byte} {st : PrinterStatus} {fault : Option Cause} {s v : State} {c : Cause}

theorem printerState_taken (hq : s.quiet = true) (hpowered : (s.ticketLine n).powered = true)
    (hstatus : readStatus status = some (st, fault)) : ∃ v, Taken (.printerState n status) (fun v =>
      match fault with
      | none => v.withTicketLine n { s.ticketLine n with status := st }
      | some c => printerFault n c (v.withTicketLine n { s.ticketLine n with status := st })) s v := by
  refine message_taken hq (exec_printerState n status) fun v hv => ?_
  have hline := ticketLine_of_only hv (by simp) n
  dsimp only
  rw [hstatus]
  dsimp only
  rw [hline, if_pos hpowered, onTicketLine_eq, hline] <;> cases fault <;> rfl

theorem readStatus_none (h : ¬ within 1 5 status.toNat) : readStatus status = none := by
  unfold within at h
  unfold readStatus
  split
  case h_6 => rfl
  all_goals omega

/-- A line that a fault stops, its grant or its place given up (R153, R154). -/
theorem spoil_releases {g : TicketLine → TicketLine} (n : Fin 8) (s : State) :
    ∃ told, Says told s (release n g (spoilInFlight n s)) ∧ Vacated n (g (s.ticketLine n)) told (spoilInFlight n s)
      (release n g (spoilInFlight n s)) := by
  obtain ⟨told, hsays, hv⟩ := release_vacated n g (spoilInFlight n s)
  obtain ⟨hsame, -⟩ := spoilInFlight_same n s
  rw [hsame.ticketLine] at hv
  exact ⟨told, hsays.after_only (spoilInFlight_only n s) (by simp), hv⟩

/-- The same, seen from a state before it that differs on the line itself, and from one after it. -/
theorem Vacated.stops {l' : TicketLine} {told : Line → List Frame} {s u w t : State} (h : Vacated n l' told (spoilInFlight n u) w)
    (hprint : u.print.order = s.print.order ∧ u.print.waiting = s.print.waiting ∧ u.print.pool = s.print.pool)
    (hparams : u.params = s.params) (hk : ∀ k, k ≠ n → u.ticketLine k = s.ticketLine k)
    (hstate : (u.ticketLine n).state = (s.ticketLine n).state) (hqueue : (u.ticketLine n).queue = (s.ticketLine n).queue)
    (hlaw : PowerLaw s → PowerLaw (spoilInFlight n u) ∧ PowerLaw w) (ht : Only [.lines, .latched, .choice] w t) :
    (∀ m, told m ≠ [] → ∃ k ∈ s.print.order, m = .tl k) ∧ t.ticketLine n = l' ∧ (PowerLaw s → Releases n l' told s t)
      ∧ t.print.waiting = s.print.waiting
      ∧ (∀ e, t.print.pool.get e = if s.inFlight n = some e
          then (s.print.pool.get e).map (fun x => { x with result := .spoiled }) else s.print.pool.get e)
      ∧ (∀ k, k ≠ n → t.ticketLine k = s.ticketLine k ∨ k ∈ s.print.order) := by
  obtain ⟨horder, hwaiting, hpool⟩ := hprint
  obtain ⟨hsame, hspoilWaiting⟩ := spoilInFlight_same n u
  have hline := fun k => ticketLine_of_only ht (by simp) k
  have htprint : t.print = w.print := ht .print (by simp)
  refine ⟨fun m hm => ?_, (hline n).trans h.line, fun hs => ?_, ?_, fun e => ?_, fun k hkn => ?_⟩
  · obtain ⟨k, hk', hm⟩ := h.elsewhere m hm
    exact ⟨k, horder ▸ hsame.order ▸ hk', hm⟩
  · obtain ⟨hu, hw⟩ := hlaw hs
    have hrel := (h.releases hu hw).congr (s' := spoilInFlight n u) (t' := t) ⟨rfl, rfl, rfl⟩ (.of_only ht (by simp)) (by rw [htprint])
    exact hrel.of_start (hsame.order.trans horder).symm (hsame.params.trans hparams).symm (by rw [hsame.ticketLine, hstate])
      fun k hkn => by rw [hsame.ticketLine, hk k hkn]
  · rw [htprint, h.waiting, hspoilWaiting, hwaiting]
  · rw [htprint, h.pool, spoilInFlight_pool, inFlight_congr hpool hstate hqueue, hpool]
  · rw [hline]
    rcases h.other k hkn with hl | hl
    · exact .inl (by rw [hl, hsame.ticketLine, hk k hkn])
    · exact .inr (horder ▸ hsame.order ▸ hl)

theorem printerFault_stopped (h : (s.ticketLine n).state = .stopped) : printerFault n c s
    = s.withTicketLine n ((s.ticketLine n).capturing ⟨c, s.inFlightOf n⟩) := by
  unfold printerFault
  dsimp only
  rw [if_pos h, onTicketLine_eq]
  rfl

theorem printerFault_running (h : (s.ticketLine n).state ≠ .stopped) : printerFault n c s
    = release n (fun l => { l.capturing ⟨c, s.inFlightOf n⟩ with
        state := .stopped, cause := some c, stopPending := false, haltPending := false, rest := none }) (spoilInFlight n s) := by
  unfold printerFault
  dsimp only
  rw [if_neg h]
  rfl

theorem inFlight_stopped (h : (s.ticketLine n).state = .stopped) (e : Fin 256) : s.inFlight n ≠ some e := fun he => by
  have := inFlight_printing he
  rw [h] at this
  cases this

/-- A fault that a printer reports (R153, R156). -/
theorem printerState_fails (hq : s.quiet = true) (hpowered : (s.ticketLine n).powered = true)
    (hstatus : readStatus status = some (st, some c)) :
    let l := s.ticketLine n
    let captured := { l with status := st, capture := some (l.capture.getD ⟨c, s.inFlightOf n⟩) }
    let stopped := { captured with
      state := .stopped, cause := some c, stopPending := false, haltPending := false, rest := none }
    ∃ t told, exec (.printerState n status) s = .next t ∧ Effect [.print] told s t
      ∧ (∀ m, told m ≠ [] → ∃ k ∈ s.print.order, m = .tl k)
      ∧ (l.state = .stopped → told = nothing ∧ t.print = { s.print with lines := s.print.lines.set n captured })
      ∧ (l.state ≠ .stopped → t.ticketLine n = stopped ∧ (PowerLaw s → Releases n stopped told s t))
      ∧ t.print.waiting = s.print.waiting
      ∧ (∀ e, t.print.pool.get e = if s.inFlight n = some e
          then (s.print.pool.get e).map (fun x => { x with result := .spoiled }) else s.print.pool.get e)
      ∧ (∀ k, k ≠ n → t.ticketLine k = s.ticketLine k ∨ k ∈ s.print.order) := by
  intro l captured stopped
  obtain ⟨v, hv, run⟩ := printerState_taken hq hpowered hstatus
  dsimp only at run
  generalize hu : v.withTicketLine n { s.ticketLine n with status := st } = u at run
  have hvu : Only [.print] v u := hu ▸ withTicketLine_only n _ v
  have huprint : u.print = { s.print with lines := s.print.lines.set n { l with status := st } } :=
    hu ▸ withTicketLine_print (hv .print (by simp))
  have hself : u.ticketLine n = { l with status := st } := by
    rw [State.ticketLine, huprint]
    exact Tab.get_set_self ..
  have hother : ∀ k, k ≠ n → u.ticketLine k = s.ticketLine k := fun k hk => by
    rw [State.ticketLine, huprint]
    exact Tab.get_set_ne _ _ (Ne.symm hk)
  have hflight : u.inFlight n = s.inFlight n := inFlight_congr (by rw [huprint]) (by rw [hself]) (by rw [hself])
  have helement : u.inFlightOf n = s.inFlightOf n := by rw [State.inFlightOf, hflight, huprint, State.inFlightOf]
  have hcapturing : (u.ticketLine n).capturing ⟨c, u.inFlightOf n⟩ = captured := by rw [hself, helement, capturing_eq]
  by_cases hs : l.state = .stopped
  · have hwork : printerFault n c u = u.withTicketLine n captured := by
      rw [printerFault_stopped (by rw [hself]; exact hs), hcapturing]
    obtain ⟨t, hx, heffect, hQ⟩ := run (bs := [.print]) (out := nothing)
      (Q := fun t => Only [.lines, .latched, .choice] (u.withTicketLine n captured) t) hwork
      ((hvu.mono (by simp)).trans ((withTicketLine_only n captured u).mono (by simp)))
      (.of_only (hvu.trans (withTicketLine_only n captured u)) (by simp)) (by simp) fun t ht => ht
    have htprint : t.print = { s.print with lines := s.print.lines.set n captured } :=
      (hQ .print (by simp)).trans ((withTicketLine_print rfl).trans (by rw [huprint, Tab.set_set]))
    refine ⟨t, nothing, hx, heffect, fun m hm => absurd rfl hm, fun _ => ⟨rfl, htprint⟩, fun hno => absurd hs hno,
      by rw [htprint], fun e => ?_, fun k hk => .inl ?_⟩
    · rw [if_neg (inFlight_stopped hs e), htprint]
    · rw [State.ticketLine, htprint]
      exact Tab.get_set_ne _ _ (Ne.symm hk)
  · obtain ⟨told, hsays, hvacated⟩ := spoil_releases (g := fun l => { l.capturing ⟨c, u.inFlightOf n⟩ with
      state := .stopped, cause := some c, stopPending := false, haltPending := false, rest := none }) n u
    have hwork := printerFault_running (n := n) (s := u) (c := c) (by rw [hself]; exact hs)
    have honly : Only [.print, .lines] u (printerFault n c u) := (only_printerFault (by simp)).2 (Only.refl _ u)
    have hlaw : PowerLaw s → PowerLaw (spoilInFlight n u) ∧ PowerLaw (printerFault n c u) := fun hs => by
      have hmark : u = v.onTicketLine n (fun l => { l with status := st }) := by
        rw [onTicketLine_eq, ticketLine_of_only hv (by simp), hu]
      have hu : PowerLaw u := PowerLaw.printWork (.after_only hv (by simp) (hmark ▸ .onLine n _ ⟨rfl, rfl⟩)) hs
      exact ⟨PowerLaw.printWork (printWork_spoilInFlight n u) hu, PowerLaw.printWork (printWork_printerFault n c u) hu⟩
    dsimp only at hvacated
    rw [hcapturing] at hvacated
    rw [← hwork] at hsays hvacated
    obtain ⟨t, hx, heffect, hQ⟩ := run (bs := [.print]) (Q := fun t => Only [.lines, .latched, .choice] (printerFault n c u) t) rfl
      ((hvu.mono (by simp)).trans (honly.mono (by simp))) (hsays.after_only hvu (by simp)) (by simp) fun t ht => ht
    obtain ⟨htold, hline, hreleases, hwaiting, hpool, hothers⟩ := hvacated.stops (s := s) (by rw [huprint]; exact ⟨rfl, rfl, rfl⟩)
      ((hvu .params (by simp)).trans (hv .params (by simp))) hother (by rw [hself]) (by rw [hself]) hlaw hQ
    exact ⟨t, told, hx, heffect, htold, fun hno => absurd hno hs, fun _ => ⟨hline, hreleases⟩, hwaiting, hpool, hothers⟩

end

-- ## The supply cut (R154, R155)

/-- A line whose supply is cut. -/
def State.cutLine (s : State) (k : Fin 8) (c : Cause) : TicketLine := { s.ticketLine k with
  state := .stopped, cause := some c, stopPending := false, haltPending := false, rest := none, status := .none
  filter := none, capture := some ((s.ticketLine k).capture.getD ⟨c, s.inFlightOf k⟩) }

/-- The lines `cut` have their supply cut, each for its cause. -/
structure Cuts (cut : List (Fin 8)) (cause : Fin 8 → Cause) (s t : State) : Prop where
  only : Only [.print] s t
  waiting : t.print.waiting = s.print.waiting
  line : ∀ k, t.ticketLine k = if k ∈ cut then s.cutLine k (cause k) else s.ticketLine k
  order : ∀ k, k ∈ t.print.order ↔ k ∈ s.print.order ∧ k ∉ cut
  pool : ∀ e, t.print.pool.get e = if ∃ k ∈ cut, s.inFlight k = some e
    then (s.print.pool.get e).map (fun x => { x with result := .spoiled }) else s.print.pool.get e

section
variable {n : Fin 8} {cut ks : List (Fin 8)} {cause : Fin 8 → Cause} {s t u : State}

/-- What stands of the elements when some are spoiled: all but their results. -/
theorem Cuts.element (h : Cuts cut cause s t) (e : Fin 256) :
    (t.print.pool.get e).map (fun x => (x.next, x.sale, x.kind, x.index))
      = (s.print.pool.get e).map (fun x => (x.next, x.sale, x.kind, x.index)) := by
  rw [h.pool]
  split
  · cases s.print.pool.get e <;> rfl
  · rfl

theorem Cuts.inFlight (h : Cuts cut cause s t) {k : Fin 8} (hk : k ∉ cut) : t.inFlight k = s.inFlight k := by
  have hline : t.ticketLine k = s.ticketLine k := by rw [h.line, if_neg hk]
  have hchain : ∀ j : Job, j.chain t.print.pool = j.chain s.print.pool := fun j =>
    chainFrom_congr (fun e => by
      have := h.element e
      revert this
      cases t.print.pool.get e <;> cases s.print.pool.get e <;> simp_all) 256 j.first
  have hnext : ∀ j : Job, j.next t.print.pool = j.next s.print.pool := fun j => by rw [Job.next, Job.next, hchain]
  rw [State.inFlight, State.inFlight, State.headElement, State.headElement, hline]
  simp only [hnext]

theorem Cuts.inFlightOf (h : Cuts cut cause s t) {k : Fin 8} (hk : k ∉ cut) : t.inFlightOf k = s.inFlightOf k := by
  rw [State.inFlightOf, State.inFlightOf, h.inFlight hk]
  refine congrArg (Option.bind _) (funext fun e => ?_)
  have := h.element e
  revert this
  cases t.print.pool.get e <;> cases s.print.pool.get e <;> simp_all

theorem Cuts.nil (cause : Fin 8 → Cause) (s : State) : Cuts [] cause s s :=
  ⟨Only.refl _ s, rfl, fun k => by simp, fun k => by simp, fun e => by simp⟩

theorem cutSupply_eq (k : Fin 8) (c : Cause) (s : State) : cutSupply k c s
    = vacate k (fun l => { l.capturing ⟨c, s.inFlightOf k⟩ with
        state := .stopped, cause := some c, stopPending := false, haltPending := false, rest := none, status := .none
        filter := none }) (spoilInFlight k s) := rfl

/-- One more line's supply cut. -/
theorem Cuts.cons (h : Cuts cut cause s t) {k : Fin 8} (hk : k ∉ cut) : Cuts (k :: cut) cause s (cutSupply k (cause k) t) := by
  obtain ⟨hsame, hwaiting⟩ := spoilInFlight_same k t
  have hself : t.ticketLine k = s.ticketLine k := by rw [h.line, if_neg hk]
  rw [cutSupply_eq]
  refine ⟨h.only.trans ((spoilInFlight_only k t).trans ((only_vacate (by simp)).2 (Only.refl _ _))), hwaiting.trans h.waiting, fun i => ?_, fun i => ?_, fun e => ?_⟩
  · rw [vacate_ticketLine, hsame.ticketLine]
    by_cases hi : k = i
    · subst hi
      rw [if_pos rfl, if_pos (by simp), hself, h.inFlightOf hk, capturing_eq]
      rfl
    · rw [if_neg hi, h.line]
      simp [Ne.symm hi]
  · show i ∈ (spoilInFlight k t).print.order.filter (fun i => i != k) ↔ _
    rw [hsame.order, List.mem_filter, h.order, List.mem_cons, not_or]
    simp only [bne_iff_ne, ne_eq]
    tauto
  · show (spoilInFlight k t).print.pool.get e = _
    rw [spoilInFlight_pool, h.inFlight hk, h.pool]
    by_cases hke : s.inFlight k = some e
    · have hmem : ∃ i ∈ k :: cut, s.inFlight i = some e := ⟨k, by simp, hke⟩
      rw [if_pos hke, if_pos hmem]
      split
      · rw [Option.map_map]
        rfl
      · rfl
    · rw [if_neg hke]
      refine if_congr ⟨fun ⟨i, hi, he⟩ => ⟨i, List.mem_cons_of_mem _ hi, he⟩, fun ⟨i, hi, he⟩ => ?_⟩ rfl rfl
      rcases List.mem_cons.1 hi with rfl | hi
      · exact absurd he hke
      · exact ⟨i, hi, he⟩

theorem Cuts.fold {c : Cause} (h : Cuts cut cause s t) (hnd : ks.Nodup) (hks : ∀ k ∈ ks, k ∉ cut ∧ cause k = c) :
    ∃ cut', (∀ k, k ∈ cut' ↔ k ∈ ks ∨ k ∈ cut) ∧ Cuts cut' cause s (ks.foldl (fun s k => cutSupply k c s) t) := by
  induction ks generalizing cut t with
  | nil => exact ⟨cut, by simp, h⟩
  | cons k ks ih =>
    obtain ⟨hk, hnd⟩ := List.nodup_cons.1 hnd
    obtain ⟨hcut, hc⟩ := hks k (by simp)
    have hone := h.cons hcut
    rw [hc] at hone
    obtain ⟨cut', hmem, hrest⟩ := ih hone hnd fun i hi => ⟨by
      rw [List.mem_cons, not_or]
      exact ⟨fun he => hk (he ▸ hi), (hks i (List.mem_cons_of_mem _ hi)).1⟩, (hks i (List.mem_cons_of_mem _ hi)).2⟩
    refine ⟨cut', fun i => ?_, hrest⟩
    rw [hmem, List.mem_cons, List.mem_cons]
    tauto

/-- The cause of a filtered fault on the line `n`, line by line. -/
def faultCause (n k : Fin 8) : Cause := if k = n then .overcurrent else .powerCut

/-- A filtered fault where the supply is common (R155). -/
theorem filteredFault_ganged (h : s.params.supply = .ganged) : ∃ cut, (∀ k, k ∈ cut ↔ k = n ∨ (s.ticketLine k).powered = true)
    ∧ Cuts cut (faultCause n) s (filteredFault n s) := by
  have hone := (Cuts.nil (faultCause n) s).cons (k := n) (by simp)
  rw [show faultCause n n = .overcurrent from if_pos rfl] at hone
  unfold filteredFault
  rw [h]
  dsimp only
  obtain ⟨cut, hmem, hcuts⟩ := hone.fold (c := .powerCut) (ks := (indices 8).filter (fun k => k != n && (s.ticketLine k).powered))
    ((List.nodup_finRange 8).filter _) fun k hk => by
      have hkn : k ≠ n := by
        have := (List.mem_filter.1 hk).2
        simp only [Bool.and_eq_true, bne_iff_ne] at this
        exact this.1
      exact ⟨by simpa using hkn, if_neg hkn⟩
  refine ⟨cut, fun k => ?_, hcuts⟩
  rw [hmem, List.mem_filter]
  simp only [mem_indices, true_and, Bool.and_eq_true, bne_iff_ne, List.mem_singleton]
  tauto

/-- A filtered fault where each line has its own supply (R154): as a release of the line. -/
theorem filteredFault_individual (h : s.params.supply = .individual) : filteredFault n s
    = release n (fun l => { l.capturing ⟨.overcurrent, s.inFlightOf n⟩ with
        state := .stopped, cause := some .overcurrent, stopPending := false, haltPending := false, rest := none, status := .none
        filter := none }) (spoilInFlight n s) := by
  obtain ⟨hsame, -⟩ := spoilInFlight_same n s
  unfold filteredFault release
  rw [h]
  dsimp only
  rw [hsame.ticketLine, hsame.order]
  rfl

end

end Sys2Proof.Machine
end

section
/-! PROOFS. The statement about completed elements, the printers' reports and the faults (R147 to R149, R153 to R156). -/

namespace Sys2Proof.Machine

section
variable {n : Fin 8} {s : State} {ms time : Nat}

/-- R154: what becomes of the fault input's record. -/
theorem faultInput_marks {x : FaultInput} {l : TicketLine} (hq : s.quiet = true) (h : faultInput n x s = s.withTicketLine n l) :
    ∃ t, exec (.filteredFault n x) s = .next t ∧ Effect [] nothing (s.withTicketLine n l) t := by
  obtain ⟨t, hx, heffect, hQ⟩ := command_does (i := .filteredFault n x) (f := faultInput n x) (bs := [.print]) (out := nothing)
    (Q := fun t => Only [.lines, .latched, .choice] (s.withTicketLine n l) t) hq rfl h ((withTicketLine_only n l s).mono (by simp))
    (.of_only (withTicketLine_only n l s) (by simp)) (by simp) fun t ht => ht
  exact ⟨t, hx, heffect.withLine ((hQ .print (by simp)).trans (withTicketLine_print rfl))⟩

theorem powered_of_inFlight {k : Fin 8} {e : Fin 256} (h : s.inFlight k = some e) : (s.ticketLine k).powered = true := by
  rw [TicketLine.powered, inFlight_printing h]

/-- A filtered fault (R154 to R156). -/
theorem faultInput_lasts (hq : s.quiet = true) (hpowered : (s.ticketLine n).powered = true)
    (hfilter : (s.ticketLine n).filter = some time) (hlasts : time ≤ ms) :
    ∃ t told, exec (.filteredFault n (.lasts ms)) s = .next t ∧ Effect [.print] told s t
      ∧ (∀ m, told m ≠ [] → ∃ k ∈ s.print.order, m = .tl k)
      ∧ t.ticketLine n = s.cutLine n .overcurrent ∧ t.print.waiting = s.print.waiting
      ∧ (∀ e, t.print.pool.get e = if ∃ k, (k = n ∨ s.params.supply = .ganged) ∧ s.inFlight k = some e
          then (s.print.pool.get e).map (fun x => { x with result := .spoiled }) else s.print.pool.get e)
      ∧ (s.params.supply = .ganged → told = nothing ∧ (PowerLaw s → t.print.order = []))
      ∧ (s.params.supply = .individual → PowerLaw s → Releases n (t.ticketLine n) told s t)
      ∧ (s.params.supply = .ganged → ∀ k, k ≠ n → if (s.ticketLine k).powered then t.ticketLine k = s.cutLine k .powerCut
          else t.ticketLine k = s.ticketLine k)
      ∧ (s.params.supply = .individual → ∀ k, k ≠ n → t.ticketLine k = s.ticketLine k ∨ k ∈ s.print.order) := by
  have hwork : faultInput n (.lasts ms) s = filteredFault n s := by
    simp only [faultInput, hfilter, hpowered, and_true, if_pos hlasts]
  have honly : Only [.print, .lines] s (filteredFault n s) := (only_filteredFault (by simp)).2 (Only.refl _ s)
  cases hsupply : s.params.supply with
  | individual =>
    have hrelease := filteredFault_individual (n := n) hsupply
    obtain ⟨told, hsays, hvacated⟩ := spoil_releases (g := fun l => { l.capturing ⟨.overcurrent, s.inFlightOf n⟩ with
      state := .stopped, cause := some .overcurrent, stopPending := false, haltPending := false, rest := none, status := .none
      filter := none }) n s
    rw [← hrelease] at hsays hvacated
    obtain ⟨t, hx, heffect, hQ⟩ := command_does (i := .filteredFault n (.lasts ms)) (f := faultInput n (.lasts ms)) (bs := [.print])
      (Q := fun t => Only [.lines, .latched, .choice] (filteredFault n s) t) hq rfl hwork (honly.mono (by simp)) hsays (by simp)
      fun t ht => ht
    obtain ⟨htold, hline, hreleases, hwaiting, hpool, hothers⟩ := hvacated.stops (s := s) ⟨rfl, rfl, rfl⟩ rfl (fun _ _ => rfl) rfl rfl
      (fun hs => ⟨PowerLaw.printWork (printWork_spoilInFlight n s) hs, PowerLaw.printWork (printWork_filteredFault n s) hs⟩) hQ
    refine ⟨t, told, hx, heffect, htold, ?_, hwaiting, fun e => ?_, fun hno => (by cases hno), fun _ hs => ?_,
      fun hno => (by cases hno), fun _ => hothers⟩
    · rw [hline, capturing_eq]
      rfl
    · rw [hpool]
      refine if_congr ⟨fun he => ⟨n, .inl rfl, he⟩, fun ⟨k, hk, he⟩ => ?_⟩ rfl rfl
      rcases hk with rfl | hno
      · exact he
      · cases hno
    · rw [hline]
      exact hreleases hs
  | ganged =>
    obtain ⟨cut, hmem, hcuts⟩ := filteredFault_ganged (n := n) hsupply
    obtain ⟨t, hx, heffect, hQ⟩ := command_does (i := .filteredFault n (.lasts ms)) (f := faultInput n (.lasts ms)) (bs := [.print])
      (out := nothing) (Q := fun t => Only [.lines, .latched, .choice] (filteredFault n s) t) hq rfl hwork (honly.mono (by simp))
      (.of_only hcuts.only (by simp)) (by simp) fun t ht => ht
    have hline := fun k => ticketLine_of_only hQ (by simp) k
    have htprint : t.print = (filteredFault n s).print := hQ .print (by simp)
    refine ⟨t, nothing, hx, heffect, fun m hm => absurd rfl hm, ?_, by rw [htprint, hcuts.waiting], fun e => ?_,
      fun _ => ⟨rfl, fun hlaw => ?_⟩, fun hno => (by cases hno), fun _ k hk => ?_, fun hno => (by cases hno)⟩
    · rw [hline, hcuts.line, if_pos ((hmem n).2 (.inl rfl)), faultCause, if_pos rfl]
    · rw [htprint, hcuts.pool]
      exact if_congr ⟨fun ⟨k, _, he⟩ => ⟨k, .inr rfl, he⟩,
        fun ⟨k, _, he⟩ => ⟨k, (hmem k).2 (.inr (powered_of_inFlight he)), he⟩⟩ rfl rfl
    · obtain ⟨-, -, horder, -⟩ := hlaw
      rw [htprint, List.eq_nil_iff_forall_not_mem]
      intro k hk
      obtain ⟨hks, hno⟩ := (hcuts.order k).1 hk
      refine hno ((hmem k).2 (.inr ?_))
      rw [TicketLine.powered, (horder k).1 hks]
    · by_cases hkp : (s.ticketLine k).powered = true
      · rw [if_pos hkp, hline, hcuts.line, if_pos ((hmem k).2 (.inr hkp)), faultCause, if_neg hk]
      · rw [if_neg hkp, hline, hcuts.line, if_neg]
        exact fun hkc => ((hmem k).1 hkc).elim hk hkp

end

/-- Settles O56, by the report: an element with more of its job to print, the last of one, one that a mark or a rest follows, one
not in flight; and a printer's state or a fault, by the line and the supply. -/
theorem printersReportAndFail : Obligations.PrintersReportAndFail := by
  unfold Obligations.PrintersReportAndFail
  refine ⟨?_, ?_, ?_, ?_, ?_, ?_, ?_, ?_, ?_, ?_, ?_⟩
  · intro n e result x s j rest e' y hq he hx hqueue hmore hstop hrest hbound hnext hy
    exact elementDone_next hq he hx hqueue hmore hstop hrest hbound hnext hy
  · intro n e result x s j rest k l hq he hx hl hqueue hlast hk hneeded hnd
    subst hl
    obtain ⟨t, told, served, hex, heffect, htold, hprints, hreported, hwaiting, hhead, hqueues, hpool, hothers, hgoes⟩ :=
      elementDone_last hq he hx hqueue hlast hk hneeded hnd
    exact ⟨t, told, served, hex, heffect, htold, hprints, hreported.sales, hreported.sale, hreported.other, hwaiting, hhead, hqueues,
      hpool, hothers, hgoes⟩
  · intro n e result s j rest l hq he hx hl hqueue hpos _ queue since rests
    subst hl
    obtain ⟨t, told, hex, heffect, htold, hprints, hmore, hline, hrested⟩ := elementDone_comes hq he hx hqueue hpos
    refine ⟨t, told, hex, heffect, htold, hprints, hmore, hline, fun hr htime => ?_⟩
    obtain ⟨⟨hsince, hrest, hidle, hwaits⟩, hstuck⟩ := hrested hr htime
    have hparams : t.params = s.params := heffect.only .params (by simp)
    rw [hparams] at hwaits
    refine ⟨hsince, hrest, hidle, hwaits, fun hlaw k hk => ?_⟩
    have := hstuck hlaw k hk
    rwa [hparams] at this
  · intro n element result s hq h
    refine message_idle (i := .elementDone n element result) hq (exec_elementDone n element result) ?_
    rw [inFlight_of_only (takeMessage_only _ _ _) (by simp)]
    rcases h with h | ⟨h1, h2⟩
    · cases hflight : s.inFlight n with
      | none => rfl
      | some e =>
        cases hresult : readElementResult result with
        | none => rfl
        | some x => exact if_neg (h e hflight)
    · have hresult : readElementResult result = none := by rw [readElementResult, if_neg h1, if_neg h2]
      rw [hresult]
      cases s.inFlight n <;> rfl
  · intro n status st s hq hpowered h
    have hstatus : readStatus status = some (st, none) := by
      rcases h with ⟨rfl, rfl⟩ | ⟨rfl, rfl⟩ <;> rfl
    obtain ⟨v, hv⟩ := printerState_taken hq hpowered hstatus
    exact hv.withLine rfl
  · intro n status s hq h
    refine message_idle (i := .printerState n status) hq (exec_printerState n status) ?_
    have hline := ticketLine_of_only (takeMessage_only (.tl n) (.printerState n status) s) (by simp) n
    rcases h with h | h
    · split
      · rfl
      · rw [hline, if_neg (by simp [h])]
    · rw [readStatus_none h]
  · intro n status st c s hq hpowered h
    have hstatus : readStatus status = some (st, some c) := by
      rcases h with ⟨rfl, rfl, rfl⟩ | ⟨rfl, rfl, rfl⟩ | ⟨rfl, rfl, rfl⟩ <;> rfl
    exact printerState_fails hq hpowered hstatus
  · intro n s hq
    refine ⟨fun h => faultInput_marks hq ?_, fun h => command_idle hq rfl ?_, faultInput_marks hq ?_⟩
    · simp only [faultInput, h, Bool.false_eq_true, if_false]
      rw [onTicketLine_eq]
    · simp only [faultInput, h, if_true]
    · simp only [faultInput]
      rw [onTicketLine_eq]
  · intro n ms time s hq hpowered hfilter hlasts element cut
    obtain ⟨t, told, hex, heffect, htold, hcut, hrest⟩ := faultInput_lasts hq hpowered hfilter hlasts
    exact ⟨t, told, hex, heffect, htold, hcut, hrest⟩
  · intro n ms s hq h
    refine command_idle hq rfl ?_
    cases hfilter : (s.ticketLine n).filter with
    | none => simp only [faultInput, hfilter]
    | some time =>
      simp only [faultInput, hfilter]
      rw [if_neg]
      rintro ⟨hle, hpowered⟩
      rcases h with h | h
      · exact absurd (h time hfilter) (Nat.not_lt.2 hle)
      · rw [h] at hpowered
        cases hpowered
  · intro n s hstate hrest hqueue
    have hleave : expireRest n s = s.withTicketLine n { s.ticketLine n with state := .idle, rest := none } := by
      have hover : s.restOver n = true := by simp [State.restOver, hstate, hrest]
      rw [expireRest, if_pos hover, leaveRest, onTicketLine_eq]
      dsimp only
      rw [wake_idle]
      rw [withTicketLine_ticketLine, if_pos rfl]
      exact hqueue
    obtain ⟨t, hx, heffect, hQ⟩ := event_does (i := .printerRestExpiry n) (f := expireRest n) (bs := [.print]) (out := nothing)
      (Q := fun t => Only [.lines, .latched, .choice]
        (s.withTicketLine n { s.ticketLine n with state := .idle, rest := none }) t) rfl hleave
      ((withTicketLine_only n _ s).mono (by simp)) (.of_only (withTicketLine_only n _ s) (by simp)) (by simp) fun t ht => ht
    exact ⟨t, hx, heffect.withLine ((hQ .print (by simp)).trans (withTicketLine_print rfl))⟩

end Sys2Proof.Machine
end

section
/-! PROOFS. What a request, an entry taken and the end of a search send where they are not refused: notices and messages,
and answers with a result that is OK (section 4.5 of the scope file). -/

namespace Sys2Proof.Machine

-- As in the tests: many short proofs elaborated at once would each hold a thread with its stack.
set_option Elab.async false

-- ## Frames that carry no refusal

/-- A frame carries no refusal: it closes no request, or its result is one of the four that are OK (section 12.4). -/
def Frame.isKind (f : Frame) : Prop := f.closes = true → ∀ c, f.body[2]? = some c → c.toNat < 0x10

theorem isKind_open (body : List Byte) : Frame.isKind ⟨body, false⟩ := by simp [Frame.isKind]

theorem isKind_answer {r : Reply} {result : Result} (fields : List Byte) (h : (Result.code result).toNat < 0x10) :
    (answerFrame r result fields).isKind := by
  intro _ c hc
  simp only [answerFrame, List.getElem?_cons_succ, List.getElem?_cons_zero, Option.some.injEq] at hc
  rwa [← hc]

/-- From `s` to `t` no frame becomes ready but such as carry no refusal. -/
def Tame (s t : State) : Prop :=
  ∀ l, ∃ fs, (t.line l).sending = (s.line l).sending ++ fs ∧ ∀ f ∈ fs, f.isKind

section
variable {s t u : State} {bs : List Block}

theorem Tame.of_same (h : ∀ l, (t.line l).sending = (s.line l).sending) : Tame s t :=
  fun l => ⟨[], by simp [h l], by simp⟩

theorem Tame.refl (s : State) : Tame s s := .of_same fun _ => rfl

theorem Tame.trans (h : Tame s t) (k : Tame t u) : Tame s u := by
  intro l
  obtain ⟨fs, hfs, hf⟩ := h l
  obtain ⟨gs, hgs, hg⟩ := k l
  refine ⟨fs ++ gs, by rw [hgs, hfs, List.append_assoc], ?_⟩
  simpa [or_imp, forall_and] using ⟨hf, hg⟩

theorem Tame.of_only (h : Only bs s t) (hb : .lines ∉ bs) : Tame s t :=
  .of_same fun l => by simp [(Says.of_only h hb).line l, nothing]

theorem Tame.then_only (h : Tame s t) (k : Only bs t u) (hb : .lines ∉ bs) : Tame s u := h.trans (.of_only k hb)

theorem tame_send (l : Line) {x : Frame} (hx : x.isKind) (s : State) : Tame s (send l x s) := by
  intro k
  refine ⟨on l [x] k, by simp [(says_send l x s).line k], ?_⟩
  unfold on
  split <;> simp [hx]

theorem code_ok : (Result.code .ok).toNat < 0x10 := by simp [Result.code]

theorem tame_ok (r : Reply) {result : Result} (fields : List Byte) (h : (Result.code result).toNat < 0x10) (s : State) :
    Tame s (answer r result fields s) := tame_send _ (isKind_answer fields h) s

theorem tame_notifyOffice (kind : Byte) (fields : List Byte) (s : State) : Tame s (notifyOffice kind fields s) :=
  tame_send _ (isKind_open _) s

theorem tame_notifyStation (n : Fin 8) (kind : Byte) (fields : List Byte) (s : State) :
    Tame s (notifyStation n kind fields s) := by
  unfold notifyStation
  split
  · exact .refl s
  · exact tame_send _ (isKind_open _) s

theorem tame_tellTerminal (n : Fin 8) (kind : Byte) (fields : List Byte) (s : State) :
    Tame s (tellTerminal n kind fields s) := tame_send _ (isKind_open _) s

theorem Tame.foldl {α : Type} {f : State → α → State} (hf : ∀ u a, Tame u (f u a)) (xs : List α) (s : State) :
    Tame s (xs.foldl f s) := by
  induction xs generalizing s with
  | nil => exact .refl s
  | cons x xs ih => exact (hf s x).trans (ih _)

-- ## The alarms and the minute check

theorem tame_alarmNotices (flags : List (Fin 10)) (s : State) : Tame s (alarmNotices flags s) :=
  .foldl (fun u i => by
    split
    · exact tame_notifyOffice _ _ u
    · exact .refl u) flags s

theorem tame_latchAlarms (s : State) : Tame s (latchAlarms s) := by
  unfold latchAlarms
  split
  · exact .refl s
  · rename_i flags _
    exact (Tame.of_only (bs := [.latched, .choice]) (by simp) (by simp)).trans (tame_alarmNotices _ _)

theorem tame_screeningClosed (c : Screening) (s : State) : Tame s (screeningClosed c s) := tame_notifyOffice _ _ s

theorem tame_minutePrices (v : Nat) (s : State) : Tame s (minutePrices v s) := by
  unfold minutePrices
  dsimp only
  repeat' split
  · exact (Tame.of_only (bs := [.prices]) (by simp) (by simp)).trans (tame_notifyOffice _ _ _)
  all_goals exact .refl s

theorem tame_minuteCheck (v : Nat) (s : State) : Tame s (minuteCheck v s) := by
  have hswept : Tame s (minuteSwept v s) :=
    .of_only (bs := [.screenings, .vouchers]) (by simp [minuteSwept]) (by simp)
  rw [minuteCheck_eq]
  refine List.foldlRecOn _ _ (hswept.then_only (bs := [.choice]) (by simp) (by simp)) fun u hu x hx => hu.trans ?_
  rcases List.mem_append.1 (arrangeFrom_subset _ _ _ x hx) with hx | hx
  · obtain ⟨c, -, rfl⟩ := List.mem_map.1 hx
    exact tame_screeningClosed c u
  · split at hx
    · rw [List.mem_singleton.1 hx]
      exact tame_minutePrices v u
    · cases hx

theorem tame_moveClock (v : Nat) (s : State) : Tame s (moveClock v s) := by
  have hput : Tame s (putClock v s) := .of_only (bs := [.clock]) (by simp) (by simp)
  unfold moveClock
  dsimp only
  split
  · exact hput.trans (tame_minuteCheck v _)
  · exact hput

-- ## The printers

theorem tame_sendElement (i : Fin 8) (s : State) : Tame s (sendElement i s) := by
  unfold sendElement
  dsimp only
  split
  · exact .refl s
  · split
    · exact .refl s
    · exact (Tame.of_only (bs := [.print]) (by simp) (by simp)).trans (tame_send _ (isKind_open _) _)

theorem tame_judgeFrom (n : Nat) (s : State) : Tame s (judgeFrom n s) := by
  induction n generalizing s with
  | zero => exact .refl s
  | succ n ih =>
    unfold judgeFrom
    dsimp only
    split
    · exact .refl s
    · split
      · exact ((Tame.of_only (bs := [.print]) (by simp) (by simp)).trans (tame_sendElement _ _)).trans (ih _)
      · exact .refl s

theorem tame_wake (i : Fin 8) (s : State) : Tame s (wake i s) := by
  unfold wake joinOrder
  dsimp only
  split
  · split
    · exact (Tame.of_only (bs := [.print]) (by simp) (by simp)).trans (tame_judgeFrom 8 _)
    · exact .of_only (bs := [.print]) (by simp) (by simp)
  · exact .refl s

theorem tame_release (i : Fin 8) (f : TicketLine → TicketLine) (s : State) : Tame s (release i f s) := by
  have hvacate : Tame s (vacate i f s) := .of_only (bs := [.print]) (by simp) (by simp)
  unfold release
  dsimp only
  split
  · exact hvacate.trans (tame_judgeFrom 8 _)
  · exact hvacate

theorem tame_powerDown (i : Fin 8) (s : State) : Tame s (powerDown i s) := by
  unfold powerDown
  split
  · exact .refl s
  · exact (Tame.of_only (bs := [.print]) (by simp) (by simp)).trans (tame_release i _ _)

theorem tame_makeJob (i : Fin 8) (k : Sale) (o : Owner) (m : MakeUp) (s : State) : Tame s (makeJob i k o m s) := by
  unfold makeJob
  dsimp only
  split
  · exact .refl s
  · refine (Tame.of_only (bs := [.print, .choice]) ?_ (by simp)).trans (tame_wake i _)
    rw [only_onTicketLine (by simp)]
    intro b hb
    split <;> cases b <;> simp_all [Block.same]

theorem tame_requestJob (i : Fin 8) (k : Sale) (o : Owner) (m : MakeUp) (s : State) :
    Tame s (requestJob i k o m s).2 := by
  have hjoined : ∀ e, Tame s { s with print := { s.print with waiting := s.print.waiting ++ [e] } } :=
    fun _ => .of_only (bs := [.print]) (by simp) (by simp)
  unfold requestJob
  dsimp only
  split
  · split
    · exact tame_makeJob i k o m s
    · exact hjoined _
  · split
    · exact hjoined _
    · exact .refl s

end

-- ## The answer, or none that refuses

/-- Every piece of the state but the lines. -/
abbrev offLines : List Block :=
  [.pending, .clock, .plans, .screenings, .engine, .baskets, .nextRef, .prices, .pay, .sales, .vouchers, .print,
    .outstanding, .stations, .concessions, .restart, .latched, .enabled, .params, .choice]

/-- A run from `u` to `w` for `r` either answers with a result that is no OK, and does nothing else, or sends no such
result. -/
def Verdict (r : Reply) (u w : State) : Prop :=
  (∃ result fields, 0x10 ≤ (Result.code result).toNat ∧ w = answer r result fields u) ∨ Tame u w

section
variable {r : Reply} {u v : State}

theorem verdict_answer (r : Reply) (result : Result) (fields : List Byte) (u : State) :
    Verdict r u (answer r result fields u) := by
  by_cases h : 0x10 ≤ (Result.code result).toNat
  · exact .inl ⟨result, fields, h, rfl⟩
  · exact .inr (tame_ok r fields (by omega) u)

/-- A run that sends no refusal, and then answers with a result that is OK. -/
theorem verdict_okAfter {result : Result} {fields : List Byte} (h : Tame u v)
    (hok : (Result.code result).toNat < 0x10 := by simp [Result.code]) : Verdict r u (answer r result fields v) :=
  .inr (h.trans (tame_ok r fields hok v))

/-- A run that changes nothing of the lines, and then answers with a result that is OK. -/
theorem verdict_ok {result : Result} {fields : List Byte} (h : Only offLines u v)
    (hok : (Result.code result).toNat < 0x10 := by simp [Result.code]) : Verdict r u (answer r result fields v) :=
  verdict_okAfter (.of_only h (by simp)) hok

theorem verdict_silent (h : Only offLines u v) : Verdict r u v := .inr (.of_only h (by simp))

theorem verdict_onOwned {who : Requester} {slot : Byte} {ref : BitVec 16} {f : Owner → Fin 16 → Basket → State → State}
    (h : ∀ o i b, Verdict r u (f o i b u)) : Verdict r u (onOwned who r slot ref f u) := by
  unfold onOwned
  split
  · exact verdict_answer r _ _ u
  · exact h _ _ _

theorem verdict_onNamedLine {b : Byte} {f : Fin 8 → State → State} (h : ∀ i, Verdict r u (f i u)) :
    Verdict r u (onNamedLine b r f u) := by
  unfold onNamedLine
  split
  · exact verdict_answer r _ _ u
  · exact h _

theorem verdict_onNamedStation {b : Byte} {f : Fin 8 → State → State} (h : ∀ i, Verdict r u (f i u)) :
    Verdict r u (onNamedStation b r f u) := by
  unfold onNamedStation
  split
  · exact verdict_answer r _ _ u
  · exact h _

end

end Sys2Proof.Machine
end

section
/-! PROOFS. What a request that is heard is answered with, for the requests whose own work sends nothing (O17). -/

namespace Sys2Proof.Machine

-- As in the tests: many short proofs elaborated at once would each hold a thread with its stack.
set_option Elab.async false

/-- A request that is heard is answered at once with a result that is no OK, and then nothing else changes, or no such
result is sent on its link. -/
def Settles (i : Instr) : Prop := ∀ who r s, Heard i who r s → ∃ t, exec i s = .next t
  ∧ ((∃ result fields, 0x10 ≤ (Result.code result).toNat ∧ Answers i r result fields [] s t)
    ∨ ∃ fs, (t.line r.link.line).sending = (s.line r.link.line).sending ++ fs
      ∧ ∀ f ∈ fs, f.closes = true → ∀ c, f.body[2]? = some c → c.toNat < 0x10)

theorem tame_hearing (i : Instr) (r : Reply) (s : State) : Tame s (hearing i r s) :=
  .of_same fun l => by simpa using (sent_hearing i r s l).1

section
variable {i : Instr} {src : Link} {tag kind : Byte} {ok : Bool} {run : Requester → Reply → State → State}
  {who : Requester} {r : Reply} {s u : State}

theorem settled_of (hx : exec i s = .next (latchAlarms u)) (hv : Verdict r (hearing i r s) u) : ∃ t, exec i s = .next t
    ∧ ((∃ result fields, 0x10 ≤ (Result.code result).toNat ∧ Answers i r result fields [] s t)
      ∨ ∃ fs, (t.line r.link.line).sending = (s.line r.link.line).sending ++ fs
        ∧ ∀ f ∈ fs, f.closes = true → ∀ c, f.body[2]? = some c → c.toNat < 0x10) := by
  obtain ⟨result, fields, hcode, rfl⟩ | htame := hv
  · obtain ⟨t, ht⟩ := answers_unchanged hx
    exact ⟨t, ht.1, .inl ⟨result, fields, hcode, ht⟩⟩
  · exact ⟨_, hx, .inr (((tame_hearing i r s).trans htame).trans (tame_latchAlarms u) r.link.line)⟩

/-- A request that finds a malformed field is refused; otherwise its own work judges. -/
theorem Settles.of (hx : ∀ s, exec i s = request i src tag kind ok run s) (hi : requestOf i = some (src, tag, kind))
    (hv : ∀ who r u, Verdict r u (run who r u)) : Settles i := by
  intro who r s h
  obtain ⟨hreq, hq, hw, ha⟩ := h
  obtain ⟨rfl, rfl, rfl⟩ : r.link = src ∧ r.tag = tag ∧ r.kind = kind := by simpa [hi, eq_comm] using hreq
  refine settled_of (by rw [hx, request_heard hq hw ha]) ?_
  split
  · exact hv who r _
  · exact verdict_answer ..

end

theorem settles_loadPlan (src : Link) (tag : Byte) (fields : PlanFields) : Settles (.loadPlan src tag fields) :=
  .of (fun _ => rfl) rfl fun who r u => by
    repeat' split
    any_goals exact verdict_answer ..
    all_goals exact verdict_ok (by simp)

theorem settles_planRow (src : Link) (tag : Byte) (plan row : Byte) (cells : List Byte) : Settles (.planRow src tag plan row cells) :=
  .of (fun _ => rfl) rfl fun who r u => by
    dsimp only
    repeat' split
    any_goals exact verdict_answer ..
    all_goals exact verdict_ok (by simp)

theorem settles_loadScreening (src : Link) (tag : Byte) (fields : ScreeningFields) : Settles (.loadScreening src tag fields) :=
  .of (fun _ => rfl) rfl fun who r u => by
    dsimp only
    repeat' split
    any_goals exact verdict_answer ..
    all_goals exact verdict_ok (by simp)

theorem settles_setScreening (src : Link) (tag : Byte) (id : BitVec 16) (target : Byte) : Settles (.setScreening src tag id target) :=
  .of (fun _ => rfl) rfl fun who r u => by
    repeat' split
    any_goals exact verdict_answer ..
    all_goals exact verdict_ok (by simp)

theorem settles_setKioskSales (src : Link) (tag : Byte) (id : BitVec 16) (value : Byte) : Settles (.setKioskSales src tag id value) :=
  .of (fun _ => rfl) rfl fun who r u => by
    repeat' split
    any_goals exact verdict_answer ..
    all_goals exact verdict_ok (by simp)

theorem settles_closeScreening (src : Link) (tag : Byte) (id : BitVec 16) : Settles (.closeScreening src tag id) :=
  .of (fun _ => rfl) rfl fun who r u => by
    repeat' split
    any_goals exact verdict_answer ..
    all_goals exact verdict_ok (by simp)

theorem settles_archive (src : Link) (tag : Byte) (id : BitVec 16) : Settles (.archive src tag id) :=
  .of (fun _ => rfl) rfl fun who r u => by
    dsimp only
    repeat' split
    any_goals exact verdict_answer ..
    all_goals exact verdict_ok (by simp)

theorem settles_queryScreening (src : Link) (tag : Byte) (id : BitVec 16) : Settles (.queryScreening src tag id) :=
  .of (fun _ => rfl) rfl fun who r u => by
    dsimp only
    repeat' split
    all_goals exact verdict_answer ..

theorem settles_dayOpen (src : Link) (tag : Byte) (fields : DayFields) : Settles (.dayOpen src tag fields) :=
  .of (fun _ => rfl) rfl fun who r u => by
    dsimp only
    repeat' split
    any_goals exact verdict_answer ..
    exact verdict_ok (by intro b hb; cases b <;> simp_all [Block.same, putClock])

theorem settles_setSync (src : Link) (tag : Byte) (mode : Byte) : Settles (.setSync src tag mode) :=
  .of (fun _ => rfl) rfl fun who r u => by
    repeat' split
    any_goals exact verdict_answer ..
    all_goals exact verdict_ok (by simp)

theorem settles_clearPulseCount (src : Link) (tag : Byte) : Settles (.clearPulseCount src tag) :=
  .of (fun _ => rfl) rfl fun who r u => by
    exact verdict_ok (by simp)

theorem settles_queryClock (src : Link) (tag : Byte) : Settles (.queryClock src tag) :=
  .of (fun _ => rfl) rfl fun who r u => by
    exact verdict_answer ..

theorem settles_setLevel (src : Link) (tag : Byte) (requester level : Byte) : Settles (.setLevel src tag requester level) :=
  .of (fun _ => rfl) rfl fun who r u => by
    dsimp only
    repeat' split
    any_goals exact verdict_answer ..
    all_goals exact verdict_ok (by simp)

theorem settles_openBasket (src : Link) (tag : Byte) (screening : BitVec 16) : Settles (.openBasket src tag screening) :=
  .of (fun _ => rfl) rfl fun who r u => by
    unfold runOpenBasket
    dsimp only
    repeat' split
    any_goals exact verdict_answer ..
    all_goals exact verdict_ok (by simp)

theorem settles_queryBasket (src : Link) (tag : Byte) (slot refPresent : Byte) (ref : BitVec 16) : Settles (.queryBasket src tag slot refPresent ref) :=
  .of (fun _ => rfl) rfl fun who r u => by
    dsimp only
    repeat' split
    all_goals exact verdict_answer ..

theorem settles_stagePrices (src : Link) (tag : Byte) (part : Byte) (fields : List Byte) : Settles (.stagePrices src tag part fields) :=
  .of (fun _ => rfl) rfl fun who r u => by
    dsimp only
    repeat' split
    any_goals exact verdict_answer ..
    all_goals exact verdict_ok (by simp)

theorem settles_setApplyMode (src : Link) (tag : Byte) (mode : Byte) (minute : BitVec 16) : Settles (.setApplyMode src tag mode minute) :=
  .of (fun _ => rfl) rfl fun who r u => by
    dsimp only
    repeat' split
    any_goals exact verdict_answer ..
    all_goals exact verdict_ok (by simp)

theorem settles_applyPrices (src : Link) (tag : Byte) : Settles (.applyPrices src tag) :=
  .of (fun _ => rfl) rfl fun who r u => by
    repeat' split
    any_goals exact verdict_answer ..
    all_goals exact verdict_ok (by simp)

theorem settles_clearStaged (src : Link) (tag : Byte) : Settles (.clearStaged src tag) :=
  .of (fun _ => rfl) rfl fun who r u => by
    exact verdict_ok (by simp)

theorem settles_queryPrices (src : Link) (tag : Byte) (bank : Byte) : Settles (.queryPrices src tag bank) :=
  .of (fun _ => rfl) rfl fun who r u => by
    repeat' split
    all_goals exact verdict_answer ..

theorem settles_refundQuote (src : Link) (tag : Byte) (sale : BitVec 24) : Settles (.refundQuote src tag sale) :=
  .of (fun _ => rfl) rfl fun who r u => by
    dsimp only
    repeat' split
    any_goals exact verdict_answer ..
    all_goals exact verdict_ok (by simp)

theorem settles_refundCommit (src : Link) (tag : Byte) (sale : BitVec 24) (amount : BitVec 32) : Settles (.refundCommit src tag sale amount) :=
  .of (fun _ => rfl) rfl fun who r u => by
    repeat' split
    any_goals exact verdict_answer ..
    all_goals exact verdict_silent (by simp)

theorem settles_refundCancel (src : Link) (tag : Byte) (sale : BitVec 24) : Settles (.refundCancel src tag sale) :=
  .of (fun _ => rfl) rfl fun who r u => by
    repeat' split
    any_goals exact verdict_answer ..
    all_goals exact verdict_ok (by simp)

theorem settles_restoreSale (src : Link) (tag : Byte) (fields : SaleFields) : Settles (.restoreSale src tag fields) :=
  .of (fun _ => rfl) rfl fun who r u => by
    exact verdict_silent (by simp)

theorem settles_querySale (src : Link) (tag : Byte) (sale : BitVec 24) : Settles (.querySale src tag sale) :=
  .of (fun _ => rfl) rfl fun who r u => by
    repeat' split
    all_goals exact verdict_answer ..

theorem settles_setStock (src : Link) (tag : Byte) (kind : Byte) (allotment : BitVec 16) (lowPresent : Byte) (low : BitVec 16) : Settles (.setStock src tag kind allotment lowPresent low) :=
  .of (fun _ => rfl) rfl fun who r u => by
    dsimp only
    repeat' split
    any_goals exact verdict_answer ..
    all_goals exact verdict_ok (by simp)

theorem settles_clearTaken (src : Link) (tag : Byte) (kind : Byte) : Settles (.clearTaken src tag kind) :=
  .of (fun _ => rfl) rfl fun who r u => by
    dsimp only
    repeat' split
    any_goals exact verdict_answer ..
    all_goals exact verdict_ok (by simp)

theorem settles_queryStock (src : Link) (tag : Byte) : Settles (.queryStock src tag) :=
  .of (fun _ => rfl) rfl fun who r u => by
    exact verdict_answer ..

theorem settles_openConcession (src : Link) (tag : Byte) (line : Byte) : Settles (.openConcession src tag line) :=
  .of (fun _ => rfl) rfl fun who r u => by
    repeat' split
    any_goals exact verdict_answer ..
    all_goals exact verdict_ok (by simp)

theorem settles_closeConcession (src : Link) (tag : Byte) (line : Byte) : Settles (.closeConcession src tag line) :=
  .of (fun _ => rfl) rfl fun who r u => by
    repeat' split
    any_goals exact verdict_answer ..
    all_goals exact verdict_ok (by simp)

theorem settles_queryLine (src : Link) (tag : Byte) (line : Byte) : Settles (.queryLine src tag line) :=
  .of (fun _ => rfl) rfl fun who r u => by
    repeat' split
    all_goals exact verdict_answer ..

theorem settles_setParam (src : Link) (tag : Byte) (param line present : Byte) (value : BitVec 16) : Settles (.setParam src tag param line present value) :=
  .of (fun _ => rfl) rfl fun who r u => by
    dsimp only
    repeat' split
    any_goals exact verdict_answer ..
    all_goals exact verdict_ok (by simp)

theorem settles_restart (src : Link) (tag : Byte) : Settles (.restart src tag) :=
  .of (fun _ => rfl) rfl fun who r u => by
    exact verdict_ok (by simp)

theorem settles_addVoucher (src : Link) (tag : Byte) (slot : Byte) (ref : BitVec 16) (kind quantity : Byte) : Settles (.addVoucher src tag slot ref kind quantity) :=
  .of (fun _ => rfl) rfl fun who r u => by
    refine verdict_onOwned fun o j b => ?_
    dsimp only
    repeat' split
    any_goals exact verdict_answer ..
    all_goals exact verdict_ok (by simp)

theorem settles_dropVoucher (src : Link) (tag : Byte) (slot : Byte) (ref : BitVec 16) (kind quantity : Byte) : Settles (.dropVoucher src tag slot ref kind quantity) :=
  .of (fun _ => rfl) rfl fun who r u => by
    refine verdict_onOwned fun o j b => ?_
    dsimp only
    repeat' split
    any_goals exact verdict_answer ..
    all_goals exact verdict_ok (by simp)

theorem settles_tally (src : Link) (tag : Byte) (slot : Byte) (ref : BitVec 16) : Settles (.tally src tag slot ref) :=
  .of (fun _ => rfl) rfl fun who r u => by
    refine verdict_onOwned fun o j b => ?_
    repeat' split
    any_goals exact verdict_answer ..
    all_goals exact verdict_ok (by simp)

theorem settles_reopen (src : Link) (tag : Byte) (slot : Byte) (ref : BitVec 16) : Settles (.reopen src tag slot ref) :=
  .of (fun _ => rfl) rfl fun who r u => by
    refine verdict_onOwned fun o j b => ?_
    repeat' split
    any_goals exact verdict_answer ..
    all_goals exact verdict_ok (by simp)

theorem settles_extend (src : Link) (tag : Byte) (slot : Byte) (ref : BitVec 16) : Settles (.extend src tag slot ref) :=
  .of (fun _ => rfl) rfl fun who r u => by
    refine verdict_onOwned fun o j b => ?_
    dsimp only
    repeat' split
    any_goals exact verdict_answer ..
    all_goals exact verdict_ok (by simp)

theorem settles_clear (src : Link) (tag : Byte) (line : Byte) : Settles (.clear src tag line) :=
  .of (fun _ => rfl) rfl fun who r u => by
    refine verdict_onNamedLine fun j => ?_
    exact verdict_ok (by simp)

end Sys2Proof.Machine
end

section
/-! PROOFS. What a request that is heard is answered with, for the requests whose own work sends notices or messages, or
leaves the answer to a later command (O17). -/

namespace Sys2Proof.Machine

-- As in the tests: many short proofs elaborated at once would each hold a thread with its stack.
set_option Elab.async false

-- ## Requests answered later, or after other frames

theorem settles_seatRequestJoin (src : Link) (tag : Byte) (q : SeatRequest) : Settles (.seatRequestJoin src tag q) := by
  refine .of (kind := seatRequestKind q) (fun _ => rfl) (by cases q <;> rfl) fun who r u => ?_
  split
  · exact verdict_answer ..
  · exact verdict_silent (by simp)

theorem tame_startAbort (i : Fin 16) (b : Basket) (r : Reply) (n : Fin 8) (k : PayRecord) (s : State) :
    Tame s (startAbort i b r n k s) := by
  unfold startAbort
  dsimp only
  exact (Tame.of_only (bs := [.baskets, .pay]) (by simp) (by simp)).trans (tame_tellTerminal _ _ _ _)

theorem settles_cancel (src : Link) (tag slot : Byte) (ref : BitVec 16) : Settles (.cancel src tag slot ref) :=
  .of (fun _ => rfl) rfl fun who r u => by
    refine verdict_onOwned fun o i b => ?_
    split
    · exact verdict_silent (by simp)
    · exact verdict_silent (by simp)
    · split
      · split
        · exact .inr (tame_startAbort _ _ _ _ _ _)
        · exact verdict_answer ..
      · exact verdict_answer ..
    · exact verdict_answer ..

theorem tame_startPayment (i : Fin 16) (b : Basket) (r : Reply) (n : Fin 8) (amount : Nat) (s : State) :
    Tame s (startPayment i b r n amount s) := by
  unfold startPayment
  dsimp only
  refine .trans ?_ (tame_tellTerminal _ _ _ _)
  exact (Tame.of_only (bs := [.sales, .baskets, .pay]) (by simp) (by simp)).trans (tame_ok r _ code_ok _)

theorem settles_pay (src : Link) (tag slot : Byte) (ref : BitVec 16) (amount : BitVec 32) :
    Settles (.pay src tag slot ref amount) :=
  .of (fun _ => rfl) rfl fun who r u => by
    refine verdict_onOwned fun o i b => ?_
    repeat' split
    any_goals exact verdict_answer ..
    exact .inr (tame_startPayment _ _ _ _ _ _)

theorem settles_settle (src : Link) (tag slot : Byte) (ref : BitVec 16) (line : Byte) :
    Settles (.settle src tag slot ref line) :=
  .of (fun _ => rfl) rfl fun who r u => by
    split
    · exact verdict_answer ..
    · refine verdict_onOwned fun o i b => ?_
      repeat' split
      any_goals exact verdict_answer ..
      exact verdict_silent (by simp)

theorem settles_resolve (src : Link) (tag slot : Byte) (ref : BitVec 16) (verdict : Byte) (code : List Byte) :
    Settles (.resolve src tag slot ref verdict code) :=
  .of (fun _ => rfl) rfl fun who r u => by
    unfold resolveSold
    repeat' split
    any_goals exact verdict_answer ..
    all_goals exact verdict_silent (by simp)

theorem settles_setTime (src : Link) (tag : Byte) (clock : BitVec 24) : Settles (.setTime src tag clock) :=
  .of (fun _ => rfl) rfl fun who r u => by
    repeat' split
    any_goals exact verdict_answer ..
    exact verdict_okAfter (tame_moveClock _ u)

theorem verdict_onVoucher {r : Reply} {u : State} {code : BitVec 40} {f : Voucher → State → State}
    (h : ∀ v, Verdict r u (f v u)) : Verdict r u (onVoucher code r f u) := by
  unfold onVoucher
  repeat' split
  any_goals exact verdict_answer r _ _ u
  exact h _

theorem settles_redeem (src : Link) (tag : Byte) (code : BitVec 40) : Settles (.redeem src tag code) :=
  .of (fun _ => rfl) rfl fun who r u => by
    refine verdict_onVoucher fun v => ?_
    unfold runRedeem
    dsimp only
    repeat' split
    any_goals exact verdict_answer ..
    exact verdict_ok (by simp)

theorem settles_check (src : Link) (tag : Byte) (code : BitVec 40) : Settles (.check src tag code) :=
  .of (fun _ => rfl) rfl fun _ _ _ => verdict_onVoucher fun _ => verdict_answer ..

theorem settles_queryVoucher (src : Link) (tag : Byte) (code : BitVec 40) : Settles (.queryVoucher src tag code) :=
  .of (fun _ => rfl) rfl fun _ _ _ => verdict_onVoucher fun _ => verdict_answer ..

theorem tame_runReprint (who : Requester) (r : Reply) (line : Byte) (k : Sale) (named : List Nat) (s : State) :
    Tame s (runReprint who r line k named s) := by
  unfold runReprint
  dsimp only
  split
  · exact tame_ok r _ code_ok s
  · next i _ =>
    refine .trans ?_ (tame_ok r _ code_ok _)
    have hjob := tame_requestJob i k (who.owner.getD .office) (.reprint named) s
    split
    · exact hjob
    · exact hjob.then_only (bs := [.sales]) (by simp) (by simp)

theorem settles_reprint (src : Link) (tag : Byte) (sale : BitVec 24) (set line override : Byte) :
    Settles (.reprint src tag sale set line override) :=
  .of (fun _ => rfl) rfl fun who r u => by
    dsimp only
    repeat' split
    any_goals exact verdict_answer ..
    exact .inr (tame_runReprint _ _ _ _ _ _)

-- ## The operator's requests

theorem settles_powerOn (src : Link) (tag line : Byte) : Settles (.powerOn src tag line) :=
  .of (fun _ => rfl) rfl fun who r u => by
    refine verdict_onNamedLine fun i => ?_
    split
    · exact verdict_okAfter ((Tame.of_only (bs := [.print]) (by simp) (by simp)).trans (tame_wake i _))
    · exact verdict_answer ..

theorem settles_powerOff (src : Link) (tag line : Byte) : Settles (.powerOff src tag line) :=
  .of (fun _ => rfl) rfl fun who r u => verdict_onNamedLine fun i => verdict_okAfter (tame_powerDown i u)

theorem settles_stop (src : Link) (tag line : Byte) : Settles (.stop src tag line) :=
  .of (fun _ => rfl) rfl fun who r u => by
    refine verdict_onNamedLine fun i => ?_
    split
    · exact verdict_ok (by simp)
    · exact verdict_answer ..
    · exact verdict_answer ..
    · exact verdict_answer ..
    · exact verdict_okAfter (tame_release i _ u)

theorem settles_halt (src : Link) (tag line : Byte) : Settles (.halt src tag line) :=
  .of (fun _ => rfl) rfl fun who r u => by
    have hnow : ∀ i, Verdict r u (answer r .ok [] (haltNow i u)) := fun i => verdict_okAfter (tame_release i _ u)
    refine verdict_onNamedLine fun i => ?_
    dsimp only
    repeat' split
    any_goals exact verdict_answer ..
    any_goals exact hnow i
    all_goals exact verdict_ok (by simp)

theorem settles_resume (src : Link) (tag line : Byte) : Settles (.resume src tag line) :=
  .of (fun _ => rfl) rfl fun who r u => by
    refine verdict_onNamedLine fun i => ?_
    split
    · exact verdict_okAfter ((Tame.of_only (bs := [.print]) (by simp) (by simp)).trans (tame_wake i _))
    · exact verdict_answer ..

-- ## Stations

theorem tame_offIfUnserved (former : Option Binding) (s : State) : Tame s (offIfUnserved former s) := by
  unfold offIfUnserved
  split
  · exact .refl s
  · split
    · exact tame_powerDown _ s
    · exact .refl s

theorem settles_bindStation (src : Link) (tag station kiosk pay ticket : Byte) :
    Settles (.bindStation src tag station kiosk pay ticket) :=
  .of (fun _ => rfl) rfl fun who r u => by
    dsimp only
    repeat' split
    any_goals exact verdict_answer ..
    exact verdict_okAfter ((Tame.of_only (bs := [.stations]) (by simp) (by simp)).trans (tame_offIfUnserved _ _))

theorem settles_unbind (src : Link) (tag station : Byte) : Settles (.unbind src tag station) :=
  .of (fun _ => rfl) rfl fun who r u => by
    refine verdict_onNamedStation fun n => ?_
    split
    · exact verdict_answer ..
    · exact verdict_okAfter ((Tame.of_only (bs := [.stations]) (by simp) (by simp)).trans (tame_offIfUnserved _ _))
    · exact verdict_answer ..

theorem tame_stationReady (n : Fin 8) (s : State) : Tame s (stationReady n s) := by
  unfold stationReady
  split
  · exact .refl s
  · exact tame_notifyStation _ _ _ s

theorem settles_openStation (src : Link) (tag station : Byte) : Settles (.openStation src tag station) :=
  .of (fun _ => rfl) rfl fun who r u => by
    refine verdict_onNamedStation fun n => ?_
    split
    · exact verdict_answer ..
    · exact verdict_answer ..
    · have hopened : Tame u (u.onStation n (fun k => { k with state := .opened })) :=
        .of_only (bs := [.stations]) (by simp) (by simp)
      exact .inr ((hopened.trans (tame_ok r _ code_ok _)).trans (tame_stationReady n _))

theorem settles_closeStation (src : Link) (tag station : Byte) : Settles (.closeStation src tag station) :=
  .of (fun _ => rfl) rfl fun who r u => by
    refine verdict_onNamedStation fun n => ?_
    split
    · exact verdict_answer ..
    · exact verdict_ok (by simp)
    · exact verdict_answer ..

-- ## Frame counts and alarms

theorem tame_clearCounts (ls : List Line) (s : State) :
    Tame s (ls.foldl (fun s l => s.onLine l (fun k => { k with badFrames := 0 })) s) :=
  .foldl (fun u l => .of_same fun k => by
    rw [line_onLine]
    split
    · simp_all
    · rfl) ls s

theorem settles_clearFrameCount (src : Link) (tag line : Byte) : Settles (.clearFrameCount src tag line) :=
  .of (fun _ => rfl) rfl fun who r u => by
    split
    · exact verdict_answer ..
    · exact verdict_okAfter (tame_clearCounts _ u)

theorem settles_setAlarmEnable (src : Link) (tag : Byte) (set : BitVec 16) (value : Byte) :
    Settles (.setAlarmEnable src tag set value) :=
  .of (fun _ => rfl) rfl fun who r u => by
    dsimp only
    split
    · exact verdict_answer ..
    · exact verdict_answer ..
    · exact verdict_okAfter
        ((Tame.of_only (bs := [.enabled, .choice]) (by simp) (by simp)).trans (tame_alarmNotices _ _))

theorem settles_ackAlarms (src : Link) (tag : Byte) (set : BitVec 16) : Settles (.ackAlarms src tag set) :=
  .of (fun _ => rfl) rfl fun who r u => by
    dsimp only
    split
    · exact verdict_answer ..
    · exact verdict_okAfter ((Tame.of_only (bs := [.latched]) (by simp) (by simp)).trans (tame_latchAlarms _))

end Sys2Proof.Machine
end

section
/-! PROOFS. The refusals of a request heard, of an entry taken and of the end of a search (O17). -/

namespace Sys2Proof.Machine

-- As in the tests: many short proofs elaborated at once would each hold a thread with its stack.
set_option Elab.async false

/-- Every request that is heard settles. -/
theorem settles_request {i : Instr} (h : (requestOf i).isSome = true) : Settles i := by
  cases i with
  | restart => apply settles_restart
  | loadPlan => apply settles_loadPlan
  | planRow => apply settles_planRow
  | loadScreening => apply settles_loadScreening
  | setScreening => apply settles_setScreening
  | setKioskSales => apply settles_setKioskSales
  | closeScreening => apply settles_closeScreening
  | archive => apply settles_archive
  | queryScreening => apply settles_queryScreening
  | dayOpen => apply settles_dayOpen
  | setTime => apply settles_setTime
  | setSync => apply settles_setSync
  | clearPulseCount => apply settles_clearPulseCount
  | queryClock => apply settles_queryClock
  | seatRequestJoin => apply settles_seatRequestJoin
  | setLevel => apply settles_setLevel
  | openBasket => apply settles_openBasket
  | addVoucher => apply settles_addVoucher
  | dropVoucher => apply settles_dropVoucher
  | tally => apply settles_tally
  | reopen => apply settles_reopen
  | extend => apply settles_extend
  | cancel => apply settles_cancel
  | pay => apply settles_pay
  | settle => apply settles_settle
  | queryBasket => apply settles_queryBasket
  | stagePrices => apply settles_stagePrices
  | setApplyMode => apply settles_setApplyMode
  | applyPrices => apply settles_applyPrices
  | clearStaged => apply settles_clearStaged
  | queryPrices => apply settles_queryPrices
  | resolve => apply settles_resolve
  | refundQuote => apply settles_refundQuote
  | refundCommit => apply settles_refundCommit
  | refundCancel => apply settles_refundCancel
  | reprint => apply settles_reprint
  | restoreSale => apply settles_restoreSale
  | querySale => apply settles_querySale
  | redeem => apply settles_redeem
  | check => apply settles_check
  | setStock => apply settles_setStock
  | clearTaken => apply settles_clearTaken
  | queryVoucher => apply settles_queryVoucher
  | queryStock => apply settles_queryStock
  | powerOn => apply settles_powerOn
  | powerOff => apply settles_powerOff
  | stop => apply settles_stop
  | halt => apply settles_halt
  | resume => apply settles_resume
  | clear => apply settles_clear
  | bindStation => apply settles_bindStation
  | unbind => apply settles_unbind
  | openStation => apply settles_openStation
  | closeStation => apply settles_closeStation
  | openConcession => apply settles_openConcession
  | closeConcession => apply settles_closeConcession
  | clearFrameCount => apply settles_clearFrameCount
  | queryLine => apply settles_queryLine
  | setAlarmEnable => apply settles_setAlarmEnable
  | ackAlarms => apply settles_ackAlarms
  | setParam => apply settles_setParam
  | _ => simp [requestOf] at h

-- ## An entry taken

section
variable {i : Instr} {x : Entry} {e : Engine} {s u : State} {r : Reply} {run : Entry → Option (State → State)}
  {f : State → State}

theorem tame_engine (e : Engine) (s : State) : Tame s { s with engine := e } :=
  .of_only (bs := [.engine]) (by simp) (by simp)

/-- A run from the state whose engine an entry, or a search, has left. -/
theorem carried_of (hx : exec i s = .next (latchAlarms u)) (hv : Verdict r { s with engine := e } u) :
    ∃ t, exec i s = .next t
      ∧ ((∃ result fields, 0x10 ≤ (Result.code result).toNat
          ∧ Carries i e [] (on r.link.line [answerFrame r result fields]) s t)
        ∨ ∃ fs, (t.line r.link.line).sending = (s.line r.link.line).sending ++ fs
          ∧ ∀ f ∈ fs, f.closes = true → ∀ c, f.body[2]? = some c → c.toNat < 0x10) := by
  refine ⟨_, hx, ?_⟩
  obtain ⟨result, fields, hcode, rfl⟩ | htame := hv
  · exact .inl ⟨result, fields, hcode, carries_says hx (by simp) (says_answer ..) (by simp) (by simp)⟩
  · exact .inr (((tame_engine e s).trans htame).trans (tame_latchAlarms u) r.link.line)

theorem Takes.carried (h : Takes x e s) (hx : ∀ s, exec i s = command (arbitrate run) s) (hf : run x = some f)
    (hv : ∀ u, Verdict r u (f u)) : ∃ t, exec i s = .next t
      ∧ ((∃ result fields, 0x10 ≤ (Result.code result).toNat
          ∧ Carries i e [] (on r.link.line [answerFrame r result fields]) s t)
        ∨ ∃ fs, (t.line r.link.line).sending = (s.line r.link.line).sending ++ fs
          ∧ ∀ f ∈ fs, f.closes = true → ∀ c, f.body[2]? = some c → c.toNat < 0x10) :=
  carried_of (by rw [hx, arbitrate_takes h hf]) (hv _)

end

section
variable {who : Owner} {r : Reply} {slot : Byte} {ref : BitVec 16} {u : State}

theorem verdict_runHoldSeats {wishes : List SeatWish} {override : Byte} :
    Verdict r u (runHoldSeats who r slot ref wishes override u) := by
  unfold runHoldSeats
  dsimp only
  repeat' split
  any_goals exact verdict_answer ..
  exact verdict_ok (by simp)

theorem verdict_runHoldBest {count filter : Byte} {types : List Byte} {override : Byte} :
    Verdict r u (runHoldBest who r slot ref count filter types override u) := by
  unfold runHoldBest
  repeat' split
  any_goals exact verdict_answer ..
  exact verdict_silent (by simp)

theorem verdict_runReleaseSeats {refs : List SeatRef} : Verdict r u (runReleaseSeats who r slot ref refs u) := by
  unfold runReleaseSeats
  dsimp only
  repeat' split
  any_goals exact verdict_answer ..
  exact verdict_ok (by simp)

theorem verdict_runSetType {seat : SeatRef} {type : Byte} : Verdict r u (runSetType who r slot ref seat type u) := by
  unfold runSetType
  dsimp only
  repeat' split
  any_goals exact verdict_answer ..
  exact verdict_ok (by simp)

theorem verdict_runQueryMap {id : BitVec 16} {first last : Byte} : Verdict r u (runQueryMap who r id first last u) := by
  unfold runQueryMap
  dsimp only
  repeat' split
  all_goals exact verdict_answer ..

theorem verdict_runFlip {source target : SeatState} {id : BitVec 16} {refs : List SeatRef} :
    Verdict r u (runFlip source target r id refs u) := by
  unfold runFlip
  dsimp only
  repeat' split
  any_goals exact verdict_answer ..
  exact verdict_ok (by simp)

theorem verdict_runRestore {f : SaleFields} : Verdict r u (runRestore r f u) := by
  unfold runRestore
  dsimp only
  repeat' split
  any_goals exact verdict_answer ..
  exact verdict_ok (by simp)

theorem verdict_runSearchEnd {q : Search} : Verdict q.reply u (runSearchEnd q u) := by
  unfold runSearchEnd
  dsimp only
  repeat' split
  any_goals exact verdict_answer ..
  exact verdict_ok (by simp)

end

/-- Settles O17: every run of a request, of an entry with a requester, and of the end of a search either is the refusing
answer alone or sends none. -/
theorem blocksRefuseWithoutEffect : Obligations.BlocksRefuseWithoutEffect := by
  unfold Obligations.BlocksRefuseWithoutEffect
  refine ⟨fun i who r s h => settles_request (by simp [h.1]) who r s h, fun x e r s h hr => ?_, fun s q hq hs => ?_⟩
  · cases x with
    | request who reply q =>
      obtain rfl : reply = r := by simpa [Entry.reply] using hr
      cases q with
      | holdSeats => exact h.carried (fun _ => rfl) rfl fun _ => verdict_runHoldSeats
      | holdBest => exact h.carried (fun _ => rfl) rfl fun _ => verdict_runHoldBest
      | releaseSeats => exact h.carried (fun _ => rfl) rfl fun _ => verdict_runReleaseSeats
      | setType => exact h.carried (fun _ => rfl) rfl fun _ => verdict_runSetType
      | queryMap => exact h.carried (fun _ => rfl) rfl fun _ => verdict_runQueryMap
      | blockSeats => exact h.carried (fun _ => rfl) rfl fun _ => verdict_runFlip
      | unblockSeats => exact h.carried (fun _ => rfl) rfl fun _ => verdict_runFlip
    | restore reply f =>
      obtain rfl : reply = r := by simpa [Entry.reply] using hr
      exact h.carried (fun _ => rfl) rfl fun _ => verdict_runRestore
    | releaseBasket => simp [Entry.reply] at hr
    | sellBasket => simp [Entry.reply] at hr
    | freeSale => simp [Entry.reply] at hr
  · refine carried_of (u := runSearchEnd q { s with engine := { s.engine with search := none } }) ?_ verdict_runSearchEnd
    rw [exec_bestBlockSearchEnd, command_quiet hq, hs]

end Sys2Proof.Machine
end

section
/-! PROOFS. What the books of the seats read of the screenings, the baskets and the sales, and the operations that leave
it alone: the payments, the countdowns and the ends of baskets and quotes (O15). -/

namespace Sys2Proof.Machine

-- As in the tests: many short proofs elaborated at once would each hold a thread with its stack.
set_option Elab.async false

-- ## What the seats' books read

/-- A screening's id and array. -/
def Screening.seatKey (c : Screening) : Nat × Grid := (c.id, c.seats)

/-- A basket's ref, its screening and the seats of its lines. -/
def Basket.seatKey (b : Basket) : Nat × Nat × List Seat := (b.ref, b.screening, lineSeats b.lines)

/-- A sale's screening, whether it is REFUNDED, and the seats of its tickets. -/
def Sale.seatKey (k : Sale) : Nat × Bool × List Seat :=
  (k.screening, k.state == .refunded, k.tickets.map (fun t => (t.row, t.pos)))

/-- From `s` to `t` nothing changes that the seats' books read. -/
structure SeatKeeps (s t : State) : Prop where
  screenings : t.screenings.map Screening.seatKey = s.screenings.map Screening.seatKey
  baskets : ∀ i, (t.baskets.get i).map Basket.seatKey = (s.baskets.get i).map Basket.seatKey
  sales : ∀ n, (t.sale n).map Sale.seatKey = (s.sale n).map Sale.seatKey

namespace SeatKeeps

variable {s t u : State} {bs : List Block}

theorem of_eq (hc : t.screenings = s.screenings) (hb : t.baskets = s.baskets) (hr : t.sales.records = s.sales.records) :
    SeatKeeps s t := ⟨by rw [hc], by simp [hb], by simp [State.sale, hr]⟩

theorem refl (s : State) : SeatKeeps s s := .of_eq rfl rfl rfl

theorem trans (h : SeatKeeps s t) (k : SeatKeeps t u) : SeatKeeps s u :=
  ⟨k.screenings.trans h.screenings, fun i => (k.baskets i).trans (h.baskets i), fun n => (k.sales n).trans (h.sales n)⟩

theorem of_only (h : Only bs s t) (hb : .screenings ∉ bs ∧ .baskets ∉ bs ∧ .sales ∉ bs) : SeatKeeps s t :=
  .of_eq (h .screenings hb.1) (h .baskets hb.2.1) (by rw [show t.sales = s.sales from h .sales hb.2.2])

theorem then_only (h : SeatKeeps s t) (k : Only bs t u) (hb : .screenings ∉ bs ∧ .baskets ∉ bs ∧ .sales ∉ bs) :
    SeatKeeps s u := h.trans (.of_only k hb)

theorem answer {r : Reply} {res : Result} {fs : List Byte} (h : SeatKeeps s t) :
    SeatKeeps s (answer r res fs t) := h.then_only (bs := [.lines]) (by simp) (by simp)

/-- Screenings marked in what is neither id nor array. -/
theorem of_marks (f : Screening → Screening) (hf : ∀ c, (f c).seatKey = c.seatKey)
    (hc : t.screenings = s.screenings.map f) (hb : t.baskets = s.baskets) (hr : t.sales.records = s.sales.records) :
    SeatKeeps s t := by
  refine ⟨?_, by simp [hb], by simp [State.sale, hr]⟩
  rw [hc, List.map_map]
  exact List.map_congr_left fun c _ => hf c

theorem onScreening {n : Nat} {f : Screening → Screening} (hf : ∀ c, (f c).seatKey = c.seatKey) :
    SeatKeeps s (s.onScreening n f) :=
  .of_marks (fun c => if c.id == n then f c else c) (fun c => by split <;> simp [hf]) rfl rfl rfl

/-- A live sale's record is written anew. -/
theorem onSale {n : Nat} {f : Sale → Sale} (hn : ∀ k, (f k).number = k.number)
    (hf : ∀ k, s.sale n = some k → (f k).seatKey = k.seatKey) : SeatKeeps s (s.onSale n f) := by
  refine ⟨rfl, fun _ => rfl, fun m => ?_⟩
  by_cases hm : m = n
  · subst hm
    cases hk : s.sale m with
    | none =>
      have hnone : (s.onSale m f).sale m = none := by
        unfold State.onSale State.sale at *
        rw [List.find?_eq_none] at hk ⊢
        simp only [List.mem_map, forall_exists_index, and_imp]
        rintro _ k hk' rfl
        have := hk k hk'
        split <;> simp_all
      rw [hnone]
    | some k => rw [sale_onSale hk hn, Option.map_some, Option.map_some, hf k hk]
  · rw [sale_onSale_other hm hn]

end SeatKeeps

-- ## A basket's record written anew

/-- A record with the ref, the screening and the seats of the basket in a slot. -/
def State.seated (s : State) (i : Fin 16) (b : Basket) : Prop :=
  (s.baskets.get i).map Basket.seatKey = some b.seatKey

variable {s t u : State} {i : Fin 16} {b b' : Basket} {bs : List Block}

theorem seated_get (h : s.baskets.get i = some b) : s.seated i b := by rw [State.seated, h]; rfl

theorem State.seated.keeps (h : s.seated i b) (k : SeatKeeps s t) : t.seated i b := (k.baskets i).trans h

theorem State.seated.marked (h : s.seated i b) (hk : b'.seatKey = b.seatKey) : s.seated i b' :=
  Eq.trans h (congrArg some hk.symm)

theorem State.seated.put (h : s.seated i b) : SeatKeeps s (s.putBasket i b) := by
  refine ⟨rfl, fun j => ?_, fun _ => rfl⟩
  by_cases hj : i = j
  · subst hj
    rw [baskets_putBasket_self]
    exact h.symm
  · rw [baskets_putBasket_ne _ _ hj]

-- ## What the entries of the queue rest on besides

/-- The reply that waits for the refund of a sale. -/
def State.takenBy (s : State) (n : Nat) : Option Reply := ((s.sale n).bind (·.quote)).bind (·.taken)

/-- R119: a sale with a quote is REFUND_PENDING. -/
def QuotesPend (s : State) : Prop := ∀ k ∈ s.sales.records, k.quote.isSome = true → k.state = .refundPending

/-- Nothing changes that the seats' books read, nor the numbers of the sales, nor what refunds are taken, and no entry
joins the queue but the RELEASE_BASKET of a live basket. -/
structure Stands (s t : State) : Prop where
  keeps : SeatKeeps s t
  numbers : t.sales.records.map (·.number) = s.sales.records.map (·.number)
  taken : ∀ n, t.takenBy n = s.takenBy n
  pend : QuotesPend s → QuotesPend t
  placed : ∀ x ∈ t.engine.queue, x ∈ s.engine.queue ∨ ∃ i b, t.seated i b ∧ x = .releaseBasket i b.ref b.screening

namespace Stands

theorem of_keeps (h : SeatKeeps s t) (hr : t.sales.records = s.sales.records) (he : t.engine.queue = s.engine.queue) :
    Stands s t := ⟨h, by rw [hr], by simp [State.takenBy, State.sale, hr], fun h => by
    unfold QuotesPend; rwa [hr], fun x hx => .inl (he ▸ hx)⟩

theorem refl (s : State) : Stands s s := .of_keeps (.refl s) rfl rfl

theorem trans (h : Stands s t) (k : Stands t u) : Stands s u := by
  refine ⟨h.keeps.trans k.keeps, k.numbers.trans h.numbers, fun n => (k.taken n).trans (h.taken n),
    k.pend ∘ h.pend, fun x hx => ?_⟩
  obtain hx | hx := k.placed x hx
  · obtain hx | ⟨i, b, hb, e⟩ := h.placed x hx
    · exact .inl hx
    · exact .inr ⟨i, b, hb.keeps k.keeps, e⟩
  · exact .inr hx

theorem of_only (h : Only bs s t) (hb : .screenings ∉ bs ∧ .baskets ∉ bs ∧ .sales ∉ bs ∧ .engine ∉ bs) : Stands s t :=
  .of_keeps (.of_only h ⟨hb.1, hb.2.1, hb.2.2.1⟩) (by rw [show t.sales = s.sales from h .sales hb.2.2.1])
    (by rw [show t.engine = s.engine from h .engine hb.2.2.2])

theorem then_only (h : Stands s t) (k : Only bs t u)
    (hb : .screenings ∉ bs ∧ .baskets ∉ bs ∧ .sales ∉ bs ∧ .engine ∉ bs) : Stands s u := h.trans (.of_only k hb)

theorem answer {r : Reply} {res : Result} {fs : List Byte} (h : Stands s t) : Stands s (answer r res fs t) :=
  h.then_only (bs := [.lines]) (by simp) (by simp)

/-- A basket's record is written anew, after what leaves the sales and the queue. -/
theorem put (k : Stands s t) (h : s.seated i b) (hk : b'.seatKey = b.seatKey) : Stands s (t.putBasket i b') :=
  k.trans (.of_keeps ((h.marked hk).keeps k.keeps).put rfl rfl)

/-- The RELEASE_BASKET of a live basket joins the queue. -/
theorem place (h : s.seated i b) : Stands s (placeEntry (.releaseBasket i b.ref b.screening) s) :=
  ⟨.of_only (bs := [.engine]) (by simp) (by simp), rfl, fun _ => rfl, id, fun x hx => by
    rcases List.mem_append.1 hx with hx | hx
    · exact .inl hx
    · exact .inr ⟨i, b, h, List.mem_singleton.1 hx⟩⟩

end Stands

-- ## Baskets return, end or go into doubt

theorem stands_releaseReservation (b : Basket) (s : State) : Stands s (releaseReservation b s) := by
  unfold releaseReservation
  split
  · exact .of_keeps (.of_eq rfl rfl rfl) rfl rfl
  · exact .refl s

theorem stands_endBasket (h : s.seated i b) (reason : EndReason) : Stands s (endBasket i b reason s) := by
  have hended : Stands s ((releaseReservation b s).putBasket i
      { b with state := .ending, endReason := some reason, hold := .absent, reserved := false }) :=
    (stands_releaseReservation b s).put h rfl
  exact hended.trans (.place ((h.marked (b' := { b with
    state := .ending, endReason := some reason, hold := .absent, reserved := false }) rfl).keeps hended.keeps))

theorem stands_returnBasket (h : s.seated i b) : Stands s (returnBasket i b s) :=
  (stands_releaseReservation b s).put h rfl

theorem stands_doubtBasket (h : s.seated i b) : Stands s (doubtBasket i b s) := by
  unfold doubtBasket
  refine Stands.trans ?_ (.of_only (bs := [.stations]) ((only_lockIfClosing (by simp)).2 (Only.refl _ _)) (by simp))
  exact (stands_releaseReservation b s).put h rfl

theorem stands_reverseBasket (h : s.seated i b) : Stands s (reverseBasket i b s) := (Stands.refl s).put h rfl

theorem seatKeeps_beginCommit (h : s.seated i b) (p : Option Payment) (l : Option (Fin 8)) :
    SeatKeeps s (beginCommit i b p l s) := by
  have hnumbered : SeatKeeps s { s with sales := { s.sales with
      next := wrapSucc 999999 s.freeNumber, commits := s.sales.commits ++ [Commit.mk i b.ref s.freeNumber p l] } } :=
    .of_eq rfl rfl rfl
  have hended := hnumbered.trans ((h.marked (b' := { b with
    state := .ending, endReason := some .committed, hold := .absent }) rfl).keeps hnumbered).put
  exact hended.trans (.of_only (bs := [.engine]) ((only_placeEntry (by simp)).2 (Only.refl _ _)) (by simp))

theorem stands_judgeAttempt (h : s.seated i b) (p : Nat) (o : PayOutcome) (n : Nat) :
    Stands s (judgeAttempt i b p o n s) := by
  have htold : ∀ f, Stands s (payResult i b p o f s) := fun f => .of_only (bs := [.lines]) (by simp) (by simp)
  unfold judgeAttempt
  dsimp only
  split
  · split
    · exact (stands_returnBasket h).then_only (bs := [.lines]) (by simp) (by simp)
    · exact (htold _).trans (stands_endBasket (h.keeps (htold _).keeps) _)
  · exact (htold _).trans (stands_endBasket (h.keeps (htold _).keeps) _)

theorem seatKeeps_withBasket {r : PayRecord} {f : Basket → State → State}
    (h : ∀ b, s.seated r.slot b → SeatKeeps s (f b s)) : SeatKeeps s (withBasket r f s) := by
  unfold withBasket
  split
  · exact .refl s
  · next b hb => exact h b (seated_get (basket_get hb).1)

theorem stands_withBasket {r : PayRecord} {f : Basket → State → State}
    (h : ∀ b, s.seated r.slot b → Stands s (f b s)) : Stands s (withBasket r f s) := by
  unfold withBasket
  split
  · exact .refl s
  · next b hb => exact h b (seated_get (basket_get hb).1)

theorem tied_seated {r : Reversal} (h : s.tied r = some (i, b)) : s.seated i b := by
  unfold State.tied at h
  obtain ⟨x, -, hx⟩ := Option.bind_eq_some_iff.1 h
  obtain ⟨c, hc, e⟩ := Option.map_eq_some_iff.1 hx
  cases e
  exact seated_get (basket_get hc).1

theorem stands_dispose (l : Fin 8) (r : Reversal) (s : State) : Stands s (dispose l r s) := by
  unfold dispose
  split
  · exact .refl s
  · next i b h =>
    split
    · exact stands_endBasket (tied_seated h) _
    · exact (stands_doubtBasket (tied_seated h)).then_only (bs := [.lines, .pay]) (by simp) (by simp)

theorem stands_needReversal (l : Fin 8) (r : Reversal) (s : State) : Stands s (needReversal l r s) := by
  unfold needReversal
  dsimp only
  split
  · exact .of_only (bs := [.pay]) (by simp) (by simp)
  · split
    · exact .of_only (bs := [.pay]) (by simp) (by simp)
    · exact .trans (.of_only (bs := [.lines]) (by simp) (by simp)) (stands_dispose l r _)

theorem stands_pump (l : Fin 8) (s : State) : Stands s (pump l s) :=
  .of_only (bs := [.pay, .lines]) (by simp) (by simp)

theorem stands_attemptEnds (l : Fin 8) (p : Nat) (f : PayRecord → PayRecord) (s : State) :
    Stands s (endExchange l (setRecord l p f s)) := .of_only (bs := [.pay]) (by simp) (by simp)

-- ## The outcomes of attempts and reversals

theorem seatKeeps_approveRecord (l : Fin 8) (r : PayRecord) (code : List Byte) (s : State) :
    SeatKeeps s (approveRecord l r code s) := by
  unfold approveRecord
  refine .trans (.trans (stands_attemptEnds ..).keeps (seatKeeps_withBasket fun b hb => ?_)) (stands_pump l _).keeps
  have htold : ∀ f w, SeatKeeps w (payResult r.slot b r.payRef .approved f w) :=
    fun f w => .of_only (bs := [.lines]) (by simp) (by simp)
  exact (htold _ _).trans (seatKeeps_beginCommit (hb.keeps (htold _ _)) _ _)

theorem stands_declineRecord (l : Fin 8) (r : PayRecord) (n : Nat) (s : State) :
    Stands s (declineRecord l r n s) := by
  unfold declineRecord
  exact .trans (.trans (stands_attemptEnds ..) (stands_withBasket fun b hb => stands_judgeAttempt hb _ _ _))
    (stands_pump l _)

theorem stands_mismatchRecord (l : Fin 8) (r : PayRecord) (code : List Byte) (n : Nat) (s : State) :
    Stands s (mismatchRecord l r code n s) := by
  unfold mismatchRecord
  exact .trans (.trans (.trans (stands_attemptEnds ..) (stands_needReversal ..))
    (stands_withBasket fun b hb => stands_judgeAttempt hb _ _ _)) (stands_pump l _)

theorem stands_abortAnswered (l : Fin 8) (r : PayRecord) (f : PayRecord → PayRecord) (s : State) :
    Stands s (abortAnswered l r f s) := by
  unfold abortAnswered
  exact .trans (.trans (stands_attemptEnds ..) (stands_withBasket fun b hb => stands_endBasket hb _)) (stands_pump l _)

theorem stands_abortApproved (l : Fin 8) (r : PayRecord) (code : List Byte) (n : Nat) (s : State) :
    Stands s (abortApproved l r code n s) := by
  unfold abortApproved
  exact .trans (.trans (.trans (stands_attemptEnds ..) (stands_needReversal ..))
    (stands_withBasket fun b hb => stands_endBasket hb _)) (stands_pump l _)

theorem stands_timeOut (l : Fin 8) (r : PayRecord) (s : State) : Stands s (timeOut l r s) := by
  unfold timeOut
  refine .trans (.trans (.trans (stands_attemptEnds ..) (stands_withBasket fun b hb => ?_))
    (stands_needReversal ..)) (stands_pump l _)
  exact (stands_reverseBasket hb).then_only (bs := [.lines]) (by simp) (by simp)

theorem stands_silentAbort (l : Fin 8) (r : PayRecord) (s : State) : Stands s (silentAbort l r s) := by
  unfold silentAbort
  refine .trans (.trans (.trans (stands_attemptEnds ..) (stands_withBasket fun b hb => ?_))
    (stands_needReversal ..)) (stands_pump l _)
  dsimp only
  split
  · exact stands_reverseBasket hb
  · exact (stands_reverseBasket hb).answer

theorem stands_lateApproval (l : Fin 8) (p : Nat) (code : List Byte) (n : Nat) (s : State) :
    Stands s (lateApproval l p code n s) := by
  unfold lateApproval
  exact .trans (.trans (.of_only (bs := [.pay]) (by simp) (by simp)) (stands_needReversal ..)) (stands_pump l _)

theorem stands_confirmReversal (l : Fin 8) (r : Reversal) (s : State) : Stands s (confirmReversal l r s) := by
  unfold confirmReversal
  dsimp only
  refine .trans ?_ (stands_pump l _)
  split
  · exact .of_only (bs := [.pay]) (by simp) (by simp)
  · next i b h =>
    exact .trans (.of_only (bs := [.pay]) (by simp) (by simp)) (stands_judgeAttempt (tied_seated h) _ _ _)

theorem stands_intervalExpired (l : Fin 8) (s : State) : Stands s (intervalExpired l s) := by
  unfold intervalExpired
  split
  · exact .of_only (bs := [.pay]) (by simp) (by simp)
  · dsimp only
    split
    · exact .trans (.trans (.of_only (bs := [.pay, .lines]) (by simp) (by simp)) (stands_dispose ..)) (stands_pump l _)
    · exact .trans (.of_only (bs := [.pay]) (by simp) (by simp)) (stands_pump l _)

theorem seatKeeps_takeApproved (l : Fin 8) (code : List Byte) (n : Nat) (r : PayRecord) (s : State) :
    SeatKeeps s (takeApproved l code n r s) := by
  unfold takeApproved
  split
  · exact (stands_abortApproved ..).keeps
  · split
    · exact .refl s
    · exact (stands_lateApproval ..).keeps
  · exact (stands_lateApproval ..).keeps
  · exact (stands_lateApproval ..).keeps
  · exact (stands_lateApproval ..).keeps
  · split
    · exact seatKeeps_approveRecord ..
    · exact (stands_mismatchRecord ..).keeps

theorem seatKeeps_onNamed {l : Fin 8} {p : Nat} {f : PayRecord → State → State} (h : ∀ r, SeatKeeps s (f r s)) :
    SeatKeeps s (onNamed l p f s) := by
  unfold onNamed
  split
  · exact h _
  · split
    · exact .refl s
    · exact .of_only (bs := [.pay]) (by simp) (by simp)

-- ## The part's own events

theorem stands_expireHold (i : Fin 16) (s : State) : Stands s (expireHold i s) := by
  unfold expireHold
  split
  · exact .refl s
  · next b hb =>
    split
    · exact stands_endBasket (seated_get hb) _
    · exact .refl s

theorem stands_expireAccept (l : Fin 8) (s : State) : Stands s (expireAccept l s) := by
  unfold expireAccept
  repeat' split
  · exact .refl s
  · exact .refl s
  · exact stands_silentAbort ..
  · exact stands_timeOut ..

theorem stands_expireAuthorization (l : Fin 8) (s : State) : Stands s (expireAuthorization l s) := by
  unfold expireAuthorization
  repeat' split
  · exact .refl s
  · exact stands_timeOut ..
  · exact .refl s

theorem stands_expireInterval (l : Fin 8) (s : State) : Stands s (expireInterval l s) := by
  unfold expireInterval
  split
  · exact stands_intervalExpired l s
  · exact .refl s

theorem mem_onSale {n : Nat} {f : Sale → Sale} {k : Sale} (h : k ∈ (s.onSale n f).sales.records) :
    ∃ k' ∈ s.sales.records, k = if k'.number == n then f k' else k' := by
  obtain ⟨k', hk', rfl⟩ := List.mem_map.1 h
  exact ⟨k', hk', rfl⟩

/-- The sale's record is written anew, its seats, its number and what its refund waits for staying. -/
theorem stands_onSale {n : Nat} {f : Sale → Sale} (hn : ∀ k, (f k).number = k.number)
    (hf : ∀ k, s.sale n = some k → (f k).seatKey = k.seatKey)
    (ht : ∀ k, s.sale n = some k → (f k).quote.bind (·.taken) = k.quote.bind (·.taken))
    (hp : ∀ k, (k.quote.isSome = true → k.state = .refundPending) → (f k).quote.isSome = true →
      (f k).state = .refundPending) : Stands s (s.onSale n f) := by
  refine ⟨.onSale hn hf, ?_, fun m => ?_, fun h k hk => ?_, fun x hx => .inl hx⟩
  · simp only [State.onSale, List.map_map]
    exact List.map_congr_left fun k _ => by
      simp only [Function.comp_apply]
      split <;> simp [hn]
  · by_cases hm : m = n
    · subst hm
      cases hk : s.sale m with
      | none =>
        have hnone : (s.onSale m f).sale m = none := by
          have h := (SeatKeeps.onSale hn hf).sales m
          rw [hk] at h
          simpa using h
        simp [State.takenBy, hk, hnone]
      | some k => simp [State.takenBy, hk, sale_onSale hk hn, ht k hk]
    · simp [State.takenBy, sale_onSale_other hm hn]
  · obtain ⟨k', hk', rfl⟩ := mem_onSale hk
    split
    · exact hp k' (h k' hk')
    · exact h k' hk'

theorem seatKey_of_pending {k : Sale} (h : k.state = .refundPending) (st : SaleState) (q : Option Quote)
    (hst : st ≠ .refunded) : Sale.seatKey { k with state := st, quote := q } = k.seatKey := by
  simp [Sale.seatKey, h, hst]

/-- R121: a quote that no refund has taken ends. -/
theorem stands_endQuote {n : Nat} {k : Sale} {q : Quote} (hk : s.sale n = some k) (hst : k.state = .refundPending)
    (hq : k.quote = some q) (ht : q.taken = none) : Stands s (endQuote k.number s) := by
  have hn : k.number = n := sale_number hk
  have hended : Stands s (s.onSale k.number (fun r => { r with state := .committed, quote := none })) := by
    refine stands_onSale (fun _ => rfl) (fun k' hk' => ?_) (fun k' hk' => ?_) fun _ _ h => by simp at h
    · obtain rfl : k = k' := by simpa [hn, hk] using hk'
      exact seatKey_of_pending hst _ _ (by simp)
    · obtain rfl : k = k' := by simpa [hn, hk] using hk'
      simp [hq, ht]
  exact hended.then_only (bs := [.vouchers]) (by simp [endQuote]) (by simp)

theorem stands_expireSaleQuote (h : QuotesPend s) (n : Nat) : Stands s (expireSaleQuote n s) := by
  unfold expireSaleQuote
  split
  · exact .refl s
  · next k hk =>
    split
    · next hover =>
      have hk' : k ∈ s.sales.records := List.mem_of_find?_eq_some hk
      obtain ⟨q, hq, htaken⟩ : ∃ q, k.quote = some q ∧ q.taken = none := by
        unfold Sale.quoteOver at hover
        cases hq : k.quote with
        | none => simp [hq] at hover
        | some q => exact ⟨q, rfl, by simp_all⟩
      have hended := stands_endQuote hk (h k hk' (by simp [hq])) hq htaken
      exact hended.then_only (bs := [.lines]) (by simp [expireQuote]) (by simp)
    · exact .refl s

theorem stands_carryOut (h : QuotesPend s) (e : Event) : Stands s (carryOut e s) := by
  cases e
  case hold i => exact stands_expireHold i s
  case accept l => exact stands_expireAccept l s
  case authorization l => exact stands_expireAuthorization l s
  case interval l => exact stands_expireInterval l s
  case quote n => exact stands_expireSaleQuote h n
  case window st =>
    rw [carryOut, expireWindow]
    split
    · exact .of_keeps (.of_eq rfl rfl rfl) rfl rfl
    · exact .refl s
  all_goals exact .of_only (carryOut_only _ s) (by simp [Event.touches])

end Sys2Proof.Machine
end

section
/-! PROOFS. The law of the seats' books as a law of what it reads, and what holding, releasing, selling and freeing seats
make of it (R32, O15). -/

namespace Sys2Proof.Machine

-- As in the tests: many short proofs elaborated at once would each hold a thread with its stack.
set_option Elab.async false

-- ## The law by what it reads

/-- What the seats' books read: each screening's id and array, each slot's basket and each sale by their keys. -/
structure SeatView where
  screens : List (Nat × Grid)
  baskets : Fin 16 → Option (Nat × Nat × List Seat)
  sales : Nat → Option (Nat × Bool × List Seat)

/-- What the seats' books read of a state. -/
def State.seatView (s : State) : SeatView :=
  ⟨s.screenings.map Screening.seatKey, fun i => (s.baskets.get i).map Basket.seatKey, fun n => (s.sale n).map Sale.seatKey⟩

namespace SeatView

/-- A basket's line on a screening holds a seat. -/
def Holds (v : SeatView) (id : Nat) (y : Seat) (i : Fin 16) (ref : Nat) : Prop :=
  ∃ xs, v.baskets i = some (ref, id, xs) ∧ y ∈ xs

/-- A sale on a screening, not REFUNDED, has a seat at a place of its ticket list. -/
def Sells (v : SeatView) (id : Nat) (y : Seat) (n j : Nat) : Prop :=
  ∃ xs, v.sales n = some (id, false, xs) ∧ xs[j]? = some y

/-- A seat of an array stands HELD and SOLD exactly as the baskets and the sales say. -/
structure Agrees (v : SeatView) (id : Nat) (g : Grid) (y : Seat) : Prop where
  held : ∀ (i : Fin 16) ref, Grid.at g y = some (.held i.val ref) ↔ v.Holds id y i ref
  slots : ∀ i ref, 16 ≤ i → Grid.at g y ≠ some (.held i ref)
  sold : ∀ n j, Grid.at g y = some (.sold n j) ↔ v.Sells id y n j

/-- The law of the seats' books. -/
structure Lawful (v : SeatView) : Prop where
  ids : (v.screens.map Prod.fst).Nodup
  once : ∀ i k, v.baskets i = some k → k.2.2.Nodup
  agrees : ∀ c ∈ v.screens, ∀ y, v.Agrees c.1 c.2 y

end SeatView

theorem holds_iff (s : State) (id : Nat) (y : Seat) (i : Fin 16) (ref : Nat) : s.seatView.Holds id y i ref
    ↔ ∃ b ∈ s.basket i ref, b.screening = id ∧ y ∈ lineSeats b.lines := by
  unfold SeatView.Holds State.seatView State.basket
  cases hb : s.baskets.get i with
  | none => simp [hb]
  | some b => by_cases h : b.ref = ref <;> simp [hb, Basket.seatKey, h]

theorem sells_iff (s : State) (id : Nat) (y : Seat) (n j : Nat) : s.seatView.Sells id y n j
    ↔ ∃ k ∈ s.sale n, k.state ≠ .refunded ∧ k.screening = id
        ∧ (k.tickets[j]?).map (fun t => (t.row, t.pos)) = some y := by
  unfold SeatView.Sells State.seatView
  cases hk : s.sale n with
  | none => simp [hk]
  | some k =>
    simp only [hk, Option.map_some, Sale.seatKey, Option.some.injEq, Prod.mk.injEq, Option.mem_def, beq_eq_false_iff_ne]
    constructor
    · rintro ⟨xs, ⟨rfl, hst, rfl⟩, hy⟩
      exact ⟨k, rfl, hst, rfl, by simpa using hy⟩
    · rintro ⟨k', rfl, hst, rfl, hy⟩
      exact ⟨_, ⟨rfl, hst, rfl⟩, by simpa using hy⟩

theorem seatBookLaw_iff (s : State) : SeatBookLaw s ↔ s.seatView.Lawful := by
  have honce : (∀ x ∈ s.liveBaskets, (lineSeats x.2.lines).Nodup)
      ↔ ∀ i k, s.seatView.baskets i = some k → k.2.2.Nodup := by
    simp only [State.seatView, Option.map_eq_some_iff, forall_exists_index, and_imp]
    constructor
    · rintro h i _ b hb rfl
      exact h (i, b) ((mem_liveBaskets s i b).2 hb)
    · rintro h ⟨i, b⟩ hb
      exact h i _ b ((mem_liveBaskets s i b).1 hb) rfl
  have hagrees : (∀ c ∈ s.screenings, ∀ y,
        (∀ (i : Fin 16) ref, Grid.at c.seats y = some (.held i.val ref) ↔ ∃ b ∈ s.basket i ref,
          b.screening = c.id ∧ y ∈ lineSeats b.lines)
        ∧ (∀ i ref, 16 ≤ i → Grid.at c.seats y ≠ some (.held i ref))
        ∧ ∀ n j, Grid.at c.seats y = some (.sold n j) ↔ ∃ k ∈ s.sale n, k.state ≠ .refunded
          ∧ k.screening = c.id ∧ (k.tickets[j]?).map (fun t => (t.row, t.pos)) = some y)
      ↔ ∀ c ∈ s.seatView.screens, ∀ y, s.seatView.Agrees c.1 c.2 y := by
    simp only [← holds_iff, ← sells_iff]
    have hmem : ∀ c, c ∈ s.seatView.screens ↔ ∃ k ∈ s.screenings, k.seatKey = c := fun c => by
      simp [State.seatView]
    constructor
    · rintro h c hc y
      obtain ⟨k, hk, rfl⟩ := (hmem c).1 hc
      exact ⟨(h k hk y).1, (h k hk y).2.1, (h k hk y).2.2⟩
    · intro h c hc y
      have := h c.seatKey ((hmem _).2 ⟨c, hc, rfl⟩) y
      exact ⟨this.held, this.slots, this.sold⟩
  have hids : s.seatView.screens.map Prod.fst = s.screenings.map (·.id) := by simp [State.seatView, Screening.seatKey]
  unfold SeatBookLaw
  rw [honce, hagrees, ← hids]
  exact ⟨fun h => ⟨h.1, h.2.1, h.2.2⟩, fun h => ⟨h.ids, h.once, h.agrees⟩⟩

theorem SeatKeeps.view {s t : State} (h : SeatKeeps s t) : t.seatView = s.seatView := by
  simp only [State.seatView, SeatView.mk.injEq]
  exact ⟨h.screenings, funext h.baskets, funext h.sales⟩

theorem SeatBookLaw.keeps {s t : State} (h : SeatBookLaw s) (k : SeatKeeps s t) : SeatBookLaw t :=
  (seatBookLaw_iff t).2 (k.view ▸ (seatBookLaw_iff s).1 h)

-- ## Arrays replaced

/-- The array of a screening replaced. -/
def reseated (id : Nat) (f : Grid → Grid) (c : Nat × Grid) : Nat × Grid := if c.1 = id then (c.1, f c.2) else c

theorem reseated_fst (id : Nat) (f : Grid → Grid) (c : Nat × Grid) : (reseated id f c).1 = c.1 := by
  unfold reseated
  split <;> rfl

namespace SeatView

variable {v w : SeatView} {id : Nat} {f : Grid → Grid}

/-- The arrays are replaced, the baskets and the sales as they say. -/
theorem Lawful.reseat (h : v.Lawful) (hw : w.screens = v.screens.map (reseated id f))
    (honce : ∀ i k, w.baskets i = some k → k.2.2.Nodup)
    (hid : ∀ c ∈ v.screens, c.1 = id → ∀ y, w.Agrees id (f c.2) y)
    (hother : ∀ c ∈ v.screens, c.1 ≠ id → ∀ y, w.Agrees c.1 c.2 y) : w.Lawful := by
  refine ⟨?_, honce, fun c hc y => ?_⟩
  · rw [hw, List.map_map]
    exact (List.map_congr_left fun c _ => reseated_fst id f c) ▸ h.ids
  · rw [hw] at hc
    obtain ⟨c, hcv, rfl⟩ := List.mem_map.1 hc
    unfold reseated
    by_cases e : c.1 = id
    · rw [if_pos e]
      exact e ▸ hid c hcv e y
    · rw [if_neg e]
      exact hother c hcv e y

end SeatView

end Sys2Proof.Machine
end

section
/-! PROOFS. What holding, releasing, selling and freeing seats make of the law of the seats' books (R32, R38, R44, R50 to
R53). -/

namespace Sys2Proof.Machine

-- As in the tests: many short proofs elaborated at once would each hold a thread with its stack.
set_option Elab.async false

namespace SeatView

variable {v : SeatView} {id id' n j : Nat} {f : Grid → Grid} {i i' : Fin 16} {r r' : Nat} {q xs : List Seat} {g : Grid}
  {y : Seat}

-- ## A basket or a sale changed

/-- The view with the basket of a slot replaced. -/
def setBasket (v : SeatView) (i : Fin 16) (k : Option (Nat × Nat × List Seat)) : SeatView :=
  { v with baskets := Function.update v.baskets i k }

/-- The view with the sale of a number replaced. -/
def setSale (v : SeatView) (n : Nat) (k : Option (Nat × Bool × List Seat)) : SeatView :=
  { v with sales := Function.update v.sales n k }

/-- The view with the arrays of a screening replaced. -/
def reseat (v : SeatView) (id : Nat) (f : Grid → Grid) : SeatView := { v with screens := v.screens.map (reseated id f) }

@[simp] theorem holds_reseat : (v.reseat id f).Holds id' y i r ↔ v.Holds id' y i r := Iff.rfl

@[simp] theorem sells_reseat : (v.reseat id f).Sells id' y n j ↔ v.Sells id' y n j := Iff.rfl

theorem holds_setBasket (k : Option (Nat × Nat × List Seat)) : (v.setBasket i k).Holds id y i' r
    ↔ if i' = i then ∃ xs, k = some (r, id, xs) ∧ y ∈ xs else v.Holds id y i' r := by
  unfold Holds setBasket
  by_cases h : i' = i
  · subst h
    simp
  · simp [h]

theorem sells_setSale (k : Option (Nat × Bool × List Seat)) (m : Nat) : (v.setSale n k).Sells id y m j
    ↔ if m = n then ∃ xs, k = some (id, false, xs) ∧ xs[j]? = some y else v.Sells id y m j := by
  unfold Sells setSale
  by_cases h : m = n
  · subst h
    simp
  · simp [h]

theorem once_setBasket (h : ∀ i k, v.baskets i = some k → k.2.2.Nodup) {k : Option (Nat × Nat × List Seat)}
    (hk : ∀ x ∈ k, x.2.2.Nodup) : ∀ i' x, (v.setBasket i k).baskets i' = some x → x.2.2.Nodup := by
  intro i' x hx
  by_cases e : i' = i
  · subst e
    exact hk x (by simpa [setBasket] using hx)
  · exact h i' x (by simpa [setBasket, e] using hx)

/-- A basket holds the seats of its own lines alone. -/
theorem holds_of (hb : v.baskets i = some (r, id, q)) : v.Holds id' y i r' ↔ r' = r ∧ id' = id ∧ y ∈ q := by
  unfold Holds
  rw [hb]
  constructor
  · rintro ⟨xs, e, hy⟩
    simp only [Option.some.injEq, Prod.mk.injEq] at e
    obtain ⟨rfl, rfl, rfl⟩ := e
    exact ⟨rfl, rfl, hy⟩
  · rintro ⟨rfl, rfl, hy⟩
    exact ⟨q, rfl, hy⟩

theorem sells_of {b : Bool} (hk : v.sales n = some (id, b, q)) : v.Sells id' y n j
    ↔ id' = id ∧ b = false ∧ q[j]? = some y := by
  unfold Sells
  rw [hk]
  constructor
  · rintro ⟨xs, e, hy⟩
    simp only [Option.some.injEq, Prod.mk.injEq] at e
    obtain ⟨rfl, rfl, rfl⟩ := e
    exact ⟨rfl, rfl, hy⟩
  · rintro ⟨rfl, rfl, hy⟩
    exact ⟨q, rfl, hy⟩

theorem not_sells (hk : v.sales n = none) : ¬ v.Sells id y n j := by
  rintro ⟨xs, e, -⟩
  rw [hk] at e
  cases e

theorem Lawful.free (h : v.Lawful) {c : Nat × Grid} (hc : c ∈ v.screens) (hy : Grid.at c.2 y = some .free) :
    ¬ v.Holds c.1 y i r ∧ ¬ v.Sells c.1 y n j := by
  have hagree := h.agrees c hc y
  rw [← hagree.held, ← hagree.sold, hy]
  simp

/-- An array that keeps a seat agrees with baskets and sales that say the same of it. -/
theorem Agrees.congr {w : SeatView} (h : v.Agrees id g y) {g' : Grid} (hg : Grid.at g' y = Grid.at g y)
    (hh : ∀ i r, w.Holds id y i r ↔ v.Holds id y i r) (hs : ∀ n j, w.Sells id y n j ↔ v.Sells id y n j) :
    w.Agrees id g' y :=
  ⟨fun i r => by rw [hg, hh, h.held], fun i r hi => hg ▸ h.slots i r hi, fun n j => by rw [hg, hs, h.sold]⟩

/-- A seat that is neither HELD nor SOLD agrees with baskets and sales that say so. -/
theorem Agrees.of_open {w : SeatView} (hg : ∀ x, Grid.at g y = some x → x.isHeld = false ∧ x.isSold = false)
    (hh : ∀ i r, ¬ w.Holds id y i r) (hs : ∀ n j, ¬ w.Sells id y n j) : w.Agrees id g y :=
  ⟨fun i r => ⟨fun e => by simpa [SeatState.isHeld] using (hg _ e).1, fun k => absurd k (hh i r)⟩,
    fun i r _ e => by simpa [SeatState.isHeld] using (hg _ e).1,
    fun n j => ⟨fun e => by simpa [SeatState.isSold] using (hg _ e).2, fun k => absurd k (hs n j)⟩⟩

-- ## Seats held and released (R38, R44, R47, R48)

theorem Lawful.hold (h : v.Lawful) (hb : v.baskets i = some (r, id, q)) (hlive : ∃ c ∈ v.screens, c.1 = id)
    (hxs : xs.Nodup) (hfree : ∀ c ∈ v.screens, c.1 = id → ∀ y ∈ xs, Grid.at c.2 y = some .free)
    (hat : ∀ c ∈ v.screens, c.1 = id → ∀ y, Grid.at (f c.2) y = if y ∈ xs then some (.held i.val r) else Grid.at c.2 y) :
    ((v.reseat id f).setBasket i (some (r, id, q ++ xs))).Lawful := by
  have hnew : ∀ {id' y i' r'}, ((v.reseat id f).setBasket i (some (r, id, q ++ xs))).Holds id' y i' r'
      ↔ v.Holds id' y i' r' ∨ i' = i ∧ r' = r ∧ id' = id ∧ y ∈ xs := fun {id' y i' r'} => by
    rw [holds_setBasket]
    by_cases e : i' = i
    · subst e
      rw [holds_of hb]
      simp
      tauto
    · simp [e]
  have honce : (q ++ xs).Nodup := by
    obtain ⟨c, hc, e⟩ := hlive
    refine List.nodup_append.2 ⟨h.once i _ hb, hxs, fun y hy z hz hyz => ?_⟩
    subst hyz
    exact (h.free (i := i) (r := r) (n := 0) (j := 0) hc (hfree c hc e y hz)).1 ((holds_of hb).2 ⟨rfl, e, hy⟩)
  refine Lawful.reseat h rfl (once_setBasket h.once (by simpa using honce)) (fun c hc e y => ?_) fun c hc e y => ?_
  · subst e
    by_cases hy : y ∈ xs
    · have hg : Grid.at (f c.2) y = some (.held i.val r) := by rw [hat c hc rfl, if_pos hy]
      have hopen := fun i r n j => h.free (i := i) (r := r) (n := n) (j := j) hc (hfree c hc rfl y hy)
      refine ⟨fun i' r' => ?_, fun i' r' hi e => ?_, fun n j => ?_⟩
      · rw [hg, hnew]
        simp [hy, (hopen i' r' 0 0).1, Fin.val_inj, eq_comm]
      · rw [hg] at e
        simp only [Option.some.injEq, SeatState.held.injEq] at e
        omega
      · rw [hg]
        exact ⟨fun e => by simp at e, fun k => absurd k (hopen i r n j).2⟩
    · exact (h.agrees c hc y).congr (by rw [hat c hc rfl, if_neg hy]) (fun i' r' => by rw [hnew]; simp [hy]) fun _ _ => Iff.rfl
  · exact (h.agrees c hc y).congr rfl (fun i' r' => by rw [hnew]; simp [e]) fun _ _ => Iff.rfl

theorem Lawful.letGo (h : v.Lawful) (hb : v.baskets i = some (r, id, q)) (hxs : ∀ y ∈ xs, y ∈ q)
    (hat : ∀ c ∈ v.screens, c.1 = id → ∀ y, Grid.at (f c.2) y = if y ∈ xs then some .free else Grid.at c.2 y) :
    ((v.reseat id f).setBasket i (some (r, id, q.filter (fun y => !xs.contains y)))).Lawful := by
  have hnew : ∀ {id' y i' r'}, ((v.reseat id f).setBasket i (some (r, id, q.filter (fun y => !xs.contains y)))).Holds
      id' y i' r' ↔ v.Holds id' y i' r' ∧ ¬ (i' = i ∧ y ∈ xs) := fun {id' y i' r'} => by
    rw [holds_setBasket]
    by_cases e : i' = i
    · subst e
      rw [holds_of hb]
      simp
      tauto
    · simp [e]
  refine Lawful.reseat h rfl (once_setBasket h.once (by simpa using (h.once i _ hb).filter _)) (fun c hc e y => ?_)
    fun c hc e y => ?_
  · subst e
    have hagree := h.agrees c hc y
    by_cases hy : y ∈ xs
    · have hg : Grid.at (f c.2) y = some .free := by rw [hat c hc rfl, if_pos hy]
      have hheld : Grid.at c.2 y = some (.held i.val r) := (hagree.held i r).2 ((holds_of hb).2 ⟨rfl, rfl, hxs y hy⟩)
      refine .of_open (fun x hx => ?_) (fun i' r' k => ?_) fun n j k => ?_
      · rw [hg] at hx
        cases hx
        exact ⟨rfl, rfl⟩
      · obtain ⟨k, hne⟩ := hnew.1 k
        have := hheld.symm.trans ((hagree.held i' r').2 k)
        simp only [Option.some.injEq, SeatState.held.injEq, Fin.val_inj] at this
        exact hne ⟨this.1.symm, hy⟩
      · have := hheld.symm.trans ((hagree.sold n j).2 k)
        simp at this
    · exact hagree.congr (by rw [hat c hc rfl, if_neg hy]) (fun i' r' => by rw [hnew]; simp [hy]) fun _ _ => Iff.rfl
  · refine (h.agrees c hc y).congr rfl (fun i' r' => ?_) fun _ _ => Iff.rfl
    rw [hnew]
    refine ⟨fun k => k.1, fun k => ⟨k, ?_⟩⟩
    rintro ⟨rfl, hy⟩
    exact e ((holds_of hb).1 k).2.1

/-- Seats that are neither HELD nor SOLD before and after. -/
theorem Lawful.house (h : v.Lawful) (hat : ∀ c ∈ v.screens, c.1 = id → ∀ y, Grid.at (f c.2) y = Grid.at c.2 y
      ∨ (∀ x, Grid.at c.2 y = some x → x.isHeld = false ∧ x.isSold = false)
        ∧ ∀ x, Grid.at (f c.2) y = some x → x.isHeld = false ∧ x.isSold = false) : (v.reseat id f).Lawful := by
  refine Lawful.reseat h rfl h.once (fun c hc e y => ?_) fun c hc _ y =>
    (h.agrees c hc y).congr rfl (fun _ _ => Iff.rfl) fun _ _ => Iff.rfl
  subst e
  have hagree := h.agrees c hc y
  obtain hg | ⟨hbefore, hafter⟩ := hat c hc rfl y
  · exact hagree.congr hg (fun _ _ => Iff.rfl) fun _ _ => Iff.rfl
  · refine .of_open hafter (fun i r k => ?_) fun n j k => ?_
    · simpa [SeatState.isHeld] using (hbefore _ ((hagree.held i r).2 k)).1
    · simpa [SeatState.isSold] using (hbefore _ ((hagree.sold n j).2 k)).2

-- ## Baskets come and go (R50, R59)

theorem Lawful.opens (h : v.Lawful) (hb : v.baskets i = none) : (v.setBasket i (some (r, id, []))).Lawful := by
  refine ⟨h.ids, once_setBasket h.once (by simp), fun c hc y =>
    (h.agrees c hc y).congr rfl (fun i' r' => ?_) fun _ _ => Iff.rfl⟩
  rw [holds_setBasket]
  by_cases e : i' = i
  · subst e
    simp [Holds, hb]
  · simp [e]

/-- R50: the seats a basket holds are FREE, and it leaves its slot. -/
theorem Lawful.leaves (h : v.Lawful) (hb : v.baskets i = some (r, id, q))
    (hat : ∀ c ∈ v.screens, c.1 = id → ∀ y, Grid.at (f c.2) y
      = if Grid.at c.2 y = some (.held i.val r) then some .free else Grid.at c.2 y) :
    ((v.reseat id f).setBasket i none).Lawful := by
  have hnew : ∀ {id' y i' r'}, ((v.reseat id f).setBasket i none).Holds id' y i' r' ↔ v.Holds id' y i' r' ∧ i' ≠ i :=
    fun {id' y i' r'} => by
      rw [holds_setBasket]
      by_cases e : i' = i <;> simp [e]
  refine Lawful.reseat h rfl (once_setBasket h.once (by simp)) (fun c hc e y => ?_) fun c hc e y => ?_
  · subst e
    have hagree := h.agrees c hc y
    by_cases hy : Grid.at c.2 y = some (.held i.val r)
    · refine .of_open (fun x hx => ?_) (fun i' r' k => ?_) fun n j k => ?_
      · rw [hat c hc rfl, if_pos hy] at hx
        cases hx
        exact ⟨rfl, rfl⟩
      · have := hy.symm.trans ((hagree.held i' r').2 (hnew.1 k).1)
        simp only [Option.some.injEq, SeatState.held.injEq, Fin.val_inj] at this
        exact (hnew.1 k).2 this.1.symm
      · have := hy.symm.trans ((hagree.sold n j).2 k)
        simp at this
    · refine hagree.congr (by rw [hat c hc rfl, if_neg hy]) (fun i' r' => ?_) fun _ _ => Iff.rfl
      rw [hnew]
      refine ⟨fun k => k.1, fun k => ⟨k, ?_⟩⟩
      rintro rfl
      obtain ⟨rfl, -, -⟩ := (holds_of hb).1 k
      exact hy ((hagree.held _ _).2 k)
  · refine (h.agrees c hc y).congr rfl (fun i' r' => ?_) fun _ _ => Iff.rfl
    rw [hnew]
    refine ⟨fun k => k.1, fun k => ⟨k, ?_⟩⟩
    rintro rfl
    exact e ((holds_of hb).1 k).2.1

/-- No basket of the slot and ref: none of its seats is HELD by it. -/
theorem Lawful.absent (h : v.Lawful) (hb : ∀ k, v.baskets i = some k → k.1 ≠ r)
    (hat : ∀ c ∈ v.screens, c.1 = id → ∀ y, Grid.at (f c.2) y
      = if Grid.at c.2 y = some (.held i.val r) then some .free else Grid.at c.2 y) : (v.reseat id f).Lawful := by
  refine h.house fun c hc e y => .inl ?_
  rw [hat c hc e, if_neg]
  intro hy
  obtain ⟨xs, hk, -⟩ := ((h.agrees c hc y).held i r).1 hy
  exact hb _ hk rfl

-- ## Sales (R51 to R53)

/-- What a list of distinct seats makes of an array when they are SOLD in order. -/
def SoldBy (g g' : Grid) (n : Nat) (xs : List Seat) : Prop :=
  (∀ j y, xs[j]? = some y → Grid.at g' y = some (.sold n j)) ∧ ∀ y, y ∉ xs → Grid.at g' y = Grid.at g y

theorem soldBy_sell {g : Grid} (n : Nat) (hxs : xs.Nodup) (hat : ∀ y ∈ xs, Grid.at g y ≠ none) :
    SoldBy g (Grid.sell g n xs) n xs := by
  refine ⟨fun j y hy => ?_, fun y hy => Grid.at_sell_other g n hy⟩
  obtain ⟨hj, rfl⟩ := List.getElem?_eq_some_iff.1 hy
  exact Grid.at_sell g n hxs hj (hat _ (List.getElem_mem hj))

/-- A seat of a sold list agrees with the sale that has it. -/
theorem Agrees.of_sold {w : SeatView} (hxs : xs.Nodup) (hn : w.sales n = some (id, false, xs)) {g' : Grid}
    (hg : SoldBy g g' n xs) (hy : y ∈ xs) (hh : ∀ i r, ¬ w.Holds id y i r)
    (hs : ∀ m j, m ≠ n → ¬ w.Sells id y m j) : w.Agrees id g' y := by
  obtain ⟨k, hk⟩ := List.mem_iff_getElem?.1 hy
  have hat := hg.1 k y hk
  refine ⟨fun i r => ?_, fun i r _ e => ?_, fun m j => ?_⟩
  · rw [hat]
    exact ⟨fun e => by simp at e, fun k => absurd k (hh i r)⟩
  · rw [hat] at e
    simp at e
  · rw [hat]
    by_cases e : m = n
    · subst e
      rw [sells_of hn]
      simp only [Option.some.injEq, SeatState.sold.injEq, true_and]
      refine ⟨fun e => e ▸ hk, fun hj => ?_⟩
      obtain ⟨hk', hky⟩ := List.getElem?_eq_some_iff.1 hk
      obtain ⟨hj', hjy⟩ := List.getElem?_eq_some_iff.1 hj
      exact hxs.getElem_inj_iff.1 (hky.trans hjy.symm)
    · refine ⟨fun k => ?_, fun k => absurd k (hs m j e)⟩
      simp only [Option.some.injEq, SeatState.sold.injEq] at k
      exact absurd k.1.symm e

/-- A new sale of a screening's seats, which no sale had, and which no basket holds any longer. -/
theorem Lawful.sells {w : SeatView} (h : v.Lawful) (hn : v.sales n = none) (hxs : xs.Nodup)
    (hw : w.screens = v.screens.map (reseated id f)) (honce : ∀ i k, w.baskets i = some k → k.2.2.Nodup)
    (hsales : w.sales = Function.update v.sales n (some (id, false, xs)))
    (hheld : ∀ c ∈ v.screens, ∀ y i r, w.Holds c.1 y i r ↔ v.Holds c.1 y i r ∧ ¬ (c.1 = id ∧ y ∈ xs))
    (hunsold : ∀ c ∈ v.screens, c.1 = id → ∀ y ∈ xs, ∀ m j, ¬ v.Sells id y m j)
    (hsold : ∀ c ∈ v.screens, c.1 = id → SoldBy c.2 (f c.2) n xs) : w.Lawful := by
  have hnew : ∀ {id' y m j}, w.Sells id' y m j
      ↔ if m = n then id' = id ∧ xs[j]? = some y else v.Sells id' y m j := fun {id' y m j} => by
    unfold Sells
    rw [hsales]
    by_cases e : m = n
    · subst e
      simp [eq_comm, and_assoc]
    · simp [e]
  have hsame : ∀ {id' y m j}, ¬ (id' = id ∧ y ∈ xs) → (w.Sells id' y m j ↔ v.Sells id' y m j) := fun {id' y m j} hne => by
    rw [hnew]
    by_cases e : m = n
    · subst e
      rw [if_pos rfl]
      exact ⟨fun k => absurd ⟨k.1, List.mem_of_getElem? k.2⟩ hne, fun k => absurd k (not_sells hn)⟩
    · rw [if_neg e]
  refine Lawful.reseat h hw honce (fun c hc e y => ?_) fun c hc e y => ?_
  · subst e
    by_cases hy : y ∈ xs
    · refine .of_sold hxs (by rw [hsales, Function.update_self]) (hsold c hc rfl) hy (fun i r k => ?_) fun m j e k => ?_
      · exact ((hheld c hc y i r).1 k).2 ⟨rfl, hy⟩
      · rw [hnew, if_neg e] at k
        exact hunsold c hc rfl y hy m j k
    · exact (h.agrees c hc y).congr ((hsold c hc rfl).2 y hy) (fun i r => by rw [hheld c hc]; simp [hy])
        fun m j => hsame (by simp [hy])
  · exact (h.agrees c hc y).congr rfl (fun i r => by rw [hheld c hc]; simp [e]) fun m j => hsame (by simp [e])

/-- R51: a basket's seats become SOLD, and it leaves its slot. -/
theorem Lawful.commits (h : v.Lawful) (hb : v.baskets i = some (r, id, q)) (hn : v.sales n = none)
    (hf : ∀ g, f g = Grid.sell g n q) :
    (((v.reseat id f).setBasket i none).setSale n (some (id, false, q))).Lawful := by
  have hq : ∀ c ∈ v.screens, c.1 = id → ∀ y ∈ q, Grid.at c.2 y = some (.held i.val r) := fun c hc e y hy =>
    ((h.agrees c hc y).held i r).2 ((holds_of hb).2 ⟨rfl, e, hy⟩)
  refine Lawful.sells (xs := q) h hn (h.once i _ hb) rfl
    (once_setBasket (v := v.reseat id f) h.once (by simp)) rfl (fun c hc y i' r' => ?_) (fun c hc e y hy m j k => ?_)
    fun c hc e => ?_
  · have hnew : (((v.reseat id f).setBasket i none).setSale n (some (id, false, q))).Holds c.1 y i' r'
        ↔ v.Holds c.1 y i' r' ∧ i' ≠ i := by
      refine (holds_setBasket none).trans ?_
      by_cases e : i' = i <;> simp [e]
    rw [hnew]
    refine and_congr_right fun k => ⟨fun hne ⟨e, hy⟩ => hne ?_, fun hne e => hne ?_⟩
    · have := (hq c hc e y hy).symm.trans (((h.agrees c hc y).held i' r').2 k)
      simp only [Option.some.injEq, SeatState.held.injEq, Fin.val_inj] at this
      exact this.1.symm
    · subst e
      exact ((holds_of hb).1 k).2
  · subst e
    have := (hq c hc rfl y hy).symm.trans (((h.agrees c hc y).sold m j).2 k)
    simp at this
  · rw [hf]
    exact soldBy_sell n (h.once i _ hb) fun y hy => by simp [hq c hc e y hy]

/-- R53: FREE seats become SOLD by a restored sale. -/
theorem Lawful.restores (h : v.Lawful) (hn : v.sales n = none) (hxs : xs.Nodup)
    (hfree : ∀ c ∈ v.screens, c.1 = id → ∀ y ∈ xs, Grid.at c.2 y = some .free)
    (hf : ∀ c ∈ v.screens, c.1 = id → f c.2 = Grid.sell c.2 n xs) :
    ((v.reseat id f).setSale n (some (id, false, xs))).Lawful := by
  refine Lawful.sells (xs := xs) h hn hxs rfl h.once rfl (fun c hc y i r => ?_) (fun c hc e y hy m j => ?_) fun c hc e => ?_
  · refine ⟨fun k => ⟨k, ?_⟩, fun k => k.1⟩
    rintro ⟨e, hy⟩
    exact (h.free (n := 0) (j := 0) hc (hfree c hc e y hy)).1 k
  · subst e
    exact (h.free (i := 0) (r := 0) hc (hfree c hc rfl y hy)).2
  · rw [hf c hc e]
    exact soldBy_sell n hxs fun y hy => by simp [hfree c hc e y hy]

/-- R52: the seats SOLD with a number are FREE, and the sale is REFUNDED. -/
theorem Lawful.refunds (h : v.Lawful) {b : Bool} (hn : v.sales n = some (id, b, q)) (hf : ∀ g, f g = Grid.freeSold g n) :
    ((v.reseat id f).setSale n (some (id, true, q))).Lawful := by
  have hnew : ∀ {id' y m j}, ((v.reseat id f).setSale n (some (id, true, q))).Sells id' y m j
      ↔ v.Sells id' y m j ∧ m ≠ n := fun {id' y m j} => by
    rw [sells_setSale]
    by_cases e : m = n <;> simp [e]
  refine Lawful.reseat h rfl h.once (fun c hc e y => ?_) fun c hc e y => ?_
  · subst e
    have hagree := h.agrees c hc y
    have hat : Grid.at (f c.2) y = match Grid.at c.2 y with
        | some (.sold m i) => if m = n then some .free else some (.sold m i)
        | other => other := by rw [hf, Grid.at_freeSold] <;> rfl
    by_cases hy : ∃ j, Grid.at c.2 y = some (.sold n j)
    · obtain ⟨j, hj⟩ := hy
      refine .of_open (fun x hx => ?_) (fun i r k => ?_) fun m k hk => ?_
      · rw [hat, hj] at hx
        simp only [if_true, Option.some.injEq] at hx
        subst hx
        exact ⟨rfl, rfl⟩
      · have := hj.symm.trans ((hagree.held i r).2 k)
        simp at this
      · have := hj.symm.trans ((hagree.sold m k).2 (hnew.1 hk).1)
        simp only [Option.some.injEq, SeatState.sold.injEq] at this
        exact (hnew.1 hk).2 this.1.symm
    · refine hagree.congr ?_ (fun _ _ => Iff.rfl) fun m j => ?_
      · rw [hat]
        split
        · next m k hmk =>
          have hmn : m ≠ n := by
            rintro rfl
            exact hy ⟨k, hmk⟩
          rw [if_neg hmn, hmk]
        · rfl
      · rw [hnew]
        refine ⟨fun k => k.1, fun k => ⟨k, ?_⟩⟩
        rintro rfl
        exact hy ⟨j, (hagree.sold _ j).2 k⟩
  · refine (h.agrees c hc y).congr rfl (fun _ _ => Iff.rfl) fun m j => ?_
    rw [hnew]
    refine ⟨fun k => k.1, fun k => ⟨k, ?_⟩⟩
    rintro rfl
    exact e ((sells_of hn).1 k).1

-- ## Screenings come and go (R8, R15)

/-- R8: a new screening with no seat HELD or SOLD, of an id no basket and no sale names. -/
theorem Lawful.loads (h : v.Lawful) (hid : ∀ c ∈ v.screens, c.1 ≠ id)
    (hg : ∀ y x, Grid.at g y = some x → x.isHeld = false ∧ x.isSold = false)
    (hb : ∀ i k, v.baskets i = some k → k.2.1 ≠ id) (hk : ∀ n k, v.sales n = some k → k.1 ≠ id) :
    Lawful { v with screens := v.screens ++ [(id, g)] } := by
  refine ⟨?_, h.once, fun c hc y => ?_⟩
  · simp only [List.map_append, List.map_cons, List.map_nil]
    refine List.nodup_append.2 ⟨h.ids, by simp, ?_⟩
    simp only [List.mem_map, List.mem_singleton]
    rintro _ ⟨c, hc, rfl⟩ _ rfl
    exact hid c hc
  · rcases List.mem_append.1 hc with hc | hc
    · exact (h.agrees c hc y).congr rfl (fun _ _ => Iff.rfl) fun _ _ => Iff.rfl
    · obtain rfl := List.mem_singleton.1 hc
      refine .of_open (hg y) (fun i r => ?_) fun n j => ?_
      · rintro ⟨xs, e, -⟩
        exact hb i _ e rfl
      · rintro ⟨xs, e, -⟩
        exact hk n _ e rfl

/-- R15: a screening leaves with its sales. -/
theorem Lawful.archives {w : SeatView} (h : v.Lawful) (hw : w.screens = v.screens.filter (fun c => c.1 != id))
    (hb : w.baskets = v.baskets) (hk : ∀ n id' b xs, id' ≠ id → (w.sales n = some (id', b, xs) ↔ v.sales n = some (id', b, xs))) :
    w.Lawful := by
  refine ⟨?_, by rw [hb]; exact h.once, fun c hc y => ?_⟩
  · rw [hw]
    exact h.ids.sublist (List.filter_sublist.map _)
  · rw [hw, List.mem_filter] at hc
    have hne : c.1 ≠ id := by simpa using hc.2
    exact (h.agrees c hc.1 y).congr rfl (fun i r => by unfold Holds; rw [hb])
      fun n j => exists_congr fun xs => and_congr_left fun _ => hk n c.1 false xs hne

end SeatView

end Sys2Proof.Machine
end

section
/-! PROOFS. What the queued entries and the screenings, the baskets and the sales owe each other where the books agree,
and the rules by which a command keeps the seats' books (O15). -/

namespace Sys2Proof.Machine

-- As in the tests: many short proofs elaborated at once would each hold a thread with its stack.
set_option Elab.async false

-- ## What a change of the tables makes of the view

theorem seatView_onScreening (n : Nat) (f : Screening → Screening) (F : Grid → Grid) (s : State)
    (hf : ∀ c, (f c).seatKey = (c.id, F c.seats)) : (s.onScreening n f).seatView = s.seatView.reseat n F := by
  simp only [State.seatView, SeatView.reseat, State.onScreening, List.map_map, SeatView.mk.injEq]
  refine ⟨List.map_congr_left fun c _ => ?_, trivial, rfl⟩
  by_cases h : c.id = n
  · simp only [Function.comp_apply, beq_iff_eq, if_pos h, hf]
    exact (if_pos h).symm
  · simp only [Function.comp_apply, beq_iff_eq, if_neg h]
    exact (if_neg h).symm

theorem seatView_putSeats (n : Nat) (g : Grid) (s : State) : (s.putSeats n g).seatView = s.seatView.reseat n (fun _ => g) :=
  seatView_onScreening n _ _ s fun _ => rfl

theorem seatView_setBaskets (i : Fin 16) (o : Option Basket) (s : State) :
    State.seatView { s with baskets := s.baskets.set i o } = s.seatView.setBasket i (o.map Basket.seatKey) := by
  simp only [State.seatView, SeatView.setBasket, SeatView.mk.injEq, true_and]
  refine ⟨funext fun j => ?_, rfl⟩
  rw [Tab.get_set, Function.update_apply]
  by_cases h : i = j
  · simp [h]
  · simp [h, Ne.symm h]

theorem seatView_putBasket (i : Fin 16) (b : Basket) (s : State) :
    (s.putBasket i b).seatView = s.seatView.setBasket i (some b.seatKey) := seatView_setBaskets i (some b) s

theorem seatView_basket {s : State} {i : Fin 16} {b : Basket} (h : s.baskets.get i = some b) :
    s.seatView.baskets i = some b.seatKey := seated_get h

theorem seatView_sale {s : State} {n : Nat} {k : Sale} (h : s.sale n = some k) : s.seatView.sales n = some k.seatKey := by
  simp [State.seatView, h]

theorem mem_screens {s : State} {c : Nat × Grid} : c ∈ s.seatView.screens ↔ ∃ k ∈ s.screenings, k.seatKey = c := by
  simp [State.seatView]

/-- Where no two screenings share an id, the one found by its id is the only one. -/
theorem SeatView.Lawful.screen {s : State} (h : s.seatView.Lawful) {n : Nat} {k : Screening} (hk : s.screening n = some k)
    {c : Nat × Grid} (hc : c ∈ s.seatView.screens) (e : c.1 = n) : c.2 = k.seats := by
  have hmem : k.seatKey ∈ s.seatView.screens := mem_screens.2 ⟨k, screening_mem hk, rfl⟩
  have : c = k.seatKey := List.inj_on_of_nodup_map h.ids hc hmem (e.trans (screening_id hk).symm)
  rw [this]
  rfl

-- ## What the entries of the queue name

/-- A screening of an id is live. -/
def SeatView.live (v : SeatView) (id : Nat) : Prop := ∃ c ∈ v.screens, c.1 = id

theorem live_iff (s : State) (id : Nat) : s.seatView.live id ↔ (s.screening id).isSome = true := by
  simp [SeatView.live, State.seatView, State.screening, Screening.seatKey, List.find?_isSome]

/-- An entry names a basket's own screening, a number no sale has, or a sale with its refund taken. -/
def Entry.fits (x : Entry) (s : State) : Prop :=
  match x with
  | .releaseBasket i r scr => ∀ k, s.seatView.baskets i = some k → k.1 = r → k.2.1 = scr
  | .sellBasket i r scr n => (∀ k, s.seatView.baskets i = some k → k.1 = r → k.2.1 = scr) ∧ s.seatView.sales n = none
  | .freeSale scr n => (∃ k, s.seatView.sales n = some k ∧ k.1 = scr) ∧ (s.takenBy n).isSome = true
  | _ => True

/-- What the seats' books rest on where the other books agree. -/
structure SeatPremises (s : State) : Prop where
  pend : QuotesPend s
  numbers : (s.sales.records.map (·.number)).Nodup
  baskets : ∀ i k, s.seatView.baskets i = some k → s.seatView.live k.2.1
  sales : ∀ n k, s.seatView.sales n = some k → s.seatView.live k.1
  entries : ∀ x ∈ s.engine.queue, x.fits s

theorem BooksLaw.seatPremises {s : State} (h : BooksLaw s) : SeatPremises s := by
  obtain ⟨hbaskets, hentries, hsales, -⟩ := h
  have hbasket : ∀ {i r b}, s.basket i r = some b → ∀ {k}, s.seatView.baskets i = some k → k.2.1 = b.screening := by
    intro i r b hb k hk
    rw [seatView_basket (basket_get hb).1] at hk
    cases hk
    rfl
  refine ⟨fun k hk hq => (hsales.2 k hk).2.1 hq, hsales.1, fun i k hk => ?_, fun n k hk => ?_, fun x hx => ?_⟩
  · obtain ⟨b, hb, rfl⟩ := Option.map_eq_some_iff.1 hk
    exact (live_iff s _).2 (hbaskets (i, b) ((mem_liveBaskets s i b).2 hb)).1
  · obtain ⟨x, hx, rfl⟩ := Option.map_eq_some_iff.1 hk
    exact (live_iff s _).2 (hsales.2 x (List.mem_of_find?_eq_some hx)).1
  · have hfits := hentries.1 x hx
    cases x with
    | releaseBasket i r scr =>
      obtain ⟨b, hb, -, -, rfl⟩ := hfits
      exact fun k hk _ => hbasket hb hk
    | sellBasket i r scr n =>
      obtain ⟨⟨b, hb, -, -, rfl⟩, c, hc, -, -, rfl⟩ := hfits
      refine ⟨fun k hk _ => hbasket hb hk, ?_⟩
      simp [State.seatView, (hentries.2.2.2.2 c hc).1]
    | freeSale scr n =>
      obtain ⟨k, hk, rfl, q, hq, htaken⟩ := hfits
      refine ⟨⟨k.seatKey, seatView_sale hk, rfl⟩, ?_⟩
      have hk' : s.sale n = some k := hk
      have hq' : k.quote = some q := hq
      simpa [State.takenBy, hk', hq'] using htaken
    | request => trivial
    | restore => trivial

theorem Entry.fits.stands {s t : State} {x : Entry} (h : x.fits s) (k : Stands s t) : x.fits t := by
  unfold Entry.fits at h ⊢
  rw [k.keeps.view]
  cases x with
  | freeSale scr n => exact ⟨h.1, by rw [k.taken]; exact h.2⟩
  | _ => exact h

theorem SeatPremises.stands {s t : State} (h : SeatPremises s) (k : Stands s t) : SeatPremises t := by
  have hview := k.keeps.view
  refine ⟨k.pend h.pend, k.numbers ▸ h.numbers, hview ▸ h.baskets, hview ▸ h.sales, fun x hx => ?_⟩
  obtain hx | ⟨i, b, hb, rfl⟩ := k.placed x hx
  · exact (h.entries x hx).stands k
  · intro q hq _
    have : some q = some b.seatKey := hq.symm.trans hb
    cases this
    rfl

/-- The seats' books, with what they rest on. -/
def Seated (s : State) : Prop := SeatPremises s ∧ SeatBookLaw s

theorem Seated.stands {s t : State} (h : Seated s) (k : Stands s t) : Seated t := ⟨h.1.stands k, h.2.keeps k.keeps⟩

theorem lasting_seated : Lasting [.screenings, .baskets, .sales, .engine] Seated where
  reads s t h hs := hs.stands (.of_keeps (.of_eq (h .screenings (by simp)) (h .baskets (by simp))
    (by rw [show t.sales = s.sales from h .sales (by simp)])) (by rw [show t.sales = s.sales from h .sales (by simp)])
    (by rw [show t.engine = s.engine from h .engine (by simp)]))
  apart b hb := by simp at hb; rcases hb with rfl | rfl | rfl | rfl <;> simp
  reset := by
    refine ⟨⟨?_, ?_, ?_, ?_, ?_⟩, ?_⟩
    · simp [QuotesPend, State.reset, SaleTable.reset]
    · simp [State.reset, SaleTable.reset]
    · simp [State.seatView, State.reset]
    · simp [State.seatView, State.reset, State.sale, SaleTable.reset]
    · simp [State.reset, Engine.reset]
    · simp [SeatBookLaw, State.reset, State.liveBaskets]
  events e s _ hs := hs.stands (stands_carryOut hs.1.pend e)

-- ## The rules for commands

section
variable {s t u : State} {f : State → State} {i : Instr} {src : Link} {tag kind : Byte} {ok : Bool}
  {run : Requester → Reply → State → State}

theorem SeatBookLaw.latch (h : SeatBookLaw u) : SeatBookLaw (latchAlarms u) :=
  h.keeps (.of_only (latched_same u) (by simp))

theorem SeatBookLaw.answer (h : SeatBookLaw u) (r : Reply) (res : Result) (fs : List Byte) :
    SeatBookLaw (answer r res fs u) := h.keeps (SeatKeeps.refl u).answer

theorem seats_event (h : event f s = .next t) (hf : Seated s → SeatBookLaw (f s)) (hs : Seated s) : SeatBookLaw t := by
  cases h
  exact (hf hs).latch

theorem seats_command (h : command f s = .next t) (hf : ∀ u, Seated u → SeatBookLaw (f u)) (hs : Seated s) :
    SeatBookLaw t := by
  cases h
  exact (hf _ (lasting_seated.settle hs)).latch

theorem seats_message {l : Line} (h : message l i f s = .next t) (hf : ∀ u, Seated u → SeatBookLaw (f u))
    (hs : Seated s) : SeatBookLaw t :=
  seats_command h (fun _ hu => hf _ (lasting_seated.takeMessage l i hu)) hs

theorem seats_request (h : request i src tag kind ok run s = .next t)
    (hrun : ∀ who r u, Seated u → SeatBookLaw (run who r u)) (hs : Seated s) : SeatBookLaw t := by
  refine seats_command h (fun u hu => ?_) hs
  have htaken : Seated (takeMessage src.line i u) := lasting_seated.takeMessage _ _ hu
  unfold hear
  split
  · exact (lasting_seated.send htaken).2
  · have hout : Seated ((takeMessage src.line i u).outstand src ⟨kind, tag⟩) :=
      lasting_seated.keeps (fp := [.outstanding]) ((only_outstand (by simp)).2 (Only.refl _ _)) (by simp) htaken
    dsimp only
    split
    · exact hrun _ _ _ hout
    · exact hout.2.answer _ _ _

/-- A request whose run leaves the seats' books alone. -/
theorem seats_keeping (h : request i src tag kind ok run s = .next t) (hrun : ∀ who r u, SeatKeeps u (run who r u))
    (hs : Seated s) : SeatBookLaw t :=
  seats_request h (fun who r u hu => hu.2.keeps (hrun who r u)) hs

theorem take_mem {e e' : Engine} {x : Entry} (h : e.take = some (x, e')) : x ∈ e.queue := by
  have hpull : ∀ {p : Entry → Bool} {rest : List Entry}, e.pull p = some (x, rest) → x ∈ e.queue := fun hp => by
    obtain ⟨older, newer, hq, -⟩ := pull_some hp
    simp [hq]
  unfold Engine.take at h
  split at h
  · next y q hq =>
    cases h
    exact hpull hq
  · split at h
    · obtain ⟨⟨y, q⟩, hq, e⟩ := Option.map_eq_some_iff.1 h
      cases e
      exact hpull hq
    · split at h
      · obtain ⟨⟨y, q⟩, hq, e⟩ := Option.map_eq_some_iff.1 h
        cases e
        exact hpull hq
      · cases h

theorem fits_engine {x : Entry} (h : x.fits s) (e : Engine) : x.fits { s with engine := e } := h

/-- A step of the arbiter: the entry taken names what the books have. -/
theorem seats_arbitrate {run : Entry → Option (State → State)} (h : command (arbitrate run) s = .next t)
    (hrun : ∀ x f, run x = some f → ∀ u, x.fits u → SeatBookLaw u → SeatBookLaw (f u)) (hs : Seated s) :
    SeatBookLaw t := by
  refine seats_command h (fun u hu => ?_) hs
  unfold arbitrate
  split
  · exact hu.2
  · split
    · exact hu.2
    · next x e htake =>
      split
      · exact hu.2
      · next f hf =>
        exact hrun x f hf _ (fits_engine (hu.1.entries x (take_mem htake)) e) (hu.2.keeps (.of_eq rfl rfl rfl))

/-- A command that touches neither the screenings nor the baskets nor the sales. -/
theorem seats_apart (hi : .screenings ∉ touches i ∧ .baskets ∉ touches i ∧ .sales ∉ touches i)
    (h : exec i s = .next t) (hs : Seated s) : SeatBookLaw t := by
  have hfp : ∀ {u w}, Only (.lines :: touches i) u w → SeatKeeps u w := fun ho => .of_only ho (by simpa using hi)
  cases exec_form i with
  | reset eq =>
    rcases eq s with e | ⟨c, e⟩
    · exact seats_event (e ▸ h) (fun hs => hs.2) hs
    · exact seats_event (e ▸ h) (fun _ => (lasting_seated.resetPart c s).2) hs
  | event f eq only => exact seats_event (eq s ▸ h) (fun hs => hs.2.keeps (hfp (only s))) hs
  | command f eq only => exact seats_command (eq s ▸ h) (fun u hu => hu.2.keeps (hfp (only u))) hs
  | request src tag kind ok run eq only => exact seats_keeping (eq s ▸ h) (fun who r u => hfp (only who r u)) hs

end

end Sys2Proof.Machine
end

section
/-! PROOFS. The commands that leave the seats' books alone: the clock, the screenings' marks, the baskets' own requests,
the payments, the quotes and the printers (O15). -/

namespace Sys2Proof.Machine

-- As in the tests: many short proofs elaborated at once would each hold a thread with its stack.
set_option Elab.async false

variable {s t u : State} {i : Fin 16} {b b' : Basket}

/-- What follows a change that the seats' books do not read. -/
theorem SeatKeeps.before {f : State → State} (hf : ∀ u, SeatKeeps u (f u)) (hc : t.screenings = s.screenings)
    (hb : t.baskets = s.baskets) (hr : t.sales.records = s.sales.records) : SeatKeeps s (f t) :=
  .trans (.of_eq hc hb hr) (hf t)

-- ## The clock and the countdowns

theorem seatKeeps_minuteCheck (v : Nat) (s : State) : SeatKeeps s (minuteCheck v s) := by
  have honly : Only minuteBlocks s (minuteCheck v s) := by simp
  exact .of_marks _ (fun c => by split <;> rfl) (minuteCheck_screenings v s) (honly .baskets (by simp))
    (by rw [show (minuteCheck v s).sales = s.sales from honly .sales (by simp)])

theorem seatKeeps_moveClock (v : Nat) (s : State) : SeatKeeps s (moveClock v s) := by
  have hput : SeatKeeps s (putClock v s) := .of_only (bs := [.clock]) (by simp) (by simp)
  unfold moveClock
  dsimp only
  split
  · exact hput.trans (seatKeeps_minuteCheck v _)
  · exact hput

theorem seatKeeps_clockSecond (s : State) : SeatKeeps s (clockSecond s) := by
  unfold clockSecond
  split
  · exact .before (seatKeeps_moveClock _) rfl rfl rfl
  · exact .refl s

theorem seatKeeps_align (s : State) : SeatKeeps s (align s) := by
  unfold align
  dsimp only
  split
  · exact .refl s
  · exact .trans (seatKeeps_moveClock _ s) (.of_eq rfl rfl rfl)

theorem seatKeeps_takePulse (s : State) : SeatKeeps s (takePulse s) := by
  unfold takePulse
  dsimp only
  split
  · exact .refl s
  · split
    · split
      · split
        · exact .before seatKeeps_align rfl rfl rfl
        · exact .of_eq rfl rfl rfl
      · exact .before (f := fun u => { align u with clock := { (align u).clock with sync := .watch } })
          (fun u => (seatKeeps_align u).trans (.of_eq rfl rfl rfl)) rfl rfl rfl
      · exact .of_eq rfl rfl rfl
    · exact .of_eq rfl rfl rfl

theorem ticked_seatKey (b : Basket) : b.ticked.seatKey = b.seatKey := by
  unfold Basket.ticked
  split <;> rfl

theorem seatKeeps_tickBaskets (s : State) : SeatKeeps s (tickBaskets s) := by
  have honly : Only [.baskets, .lines, .choice] s (tickBaskets s) := (only_tickBaskets (by simp)).2 (Only.refl _ s)
  refine ⟨by rw [show (tickBaskets s).screenings = s.screenings from honly .screenings (by simp)], fun j => ?_, fun n => ?_⟩
  · obtain ⟨l, hl⟩ := tickBaskets_get s j
    have hwarned : ∀ b : Basket, b.warnedNow.seatKey = b.seatKey := fun _ => rfl
    rw [hl]
    split <;> simp [Function.comp_def, hwarned, ticked_seatKey]
  · simp only [State.sale, show (tickBaskets s).sales = s.sales from honly .sales (by simp)]

theorem seatKeeps_tickSales (s : State) : SeatKeeps s (tickSales s) := by
  refine ⟨rfl, fun _ => rfl, fun n => ?_⟩
  simp only [tickSales, State.sale, List.find?_map, Option.map_map, Function.comp_def]
  rfl

theorem seatKeeps_secondTick (s : State) : SeatKeeps s (secondTick s) := by
  have hpay : SeatKeeps s (tickPay s) := .of_only (bs := [.pay]) (by simp) (by simp)
  refine .trans (.trans hpay (seatKeeps_tickSales _)) (.trans ?_ (seatKeeps_tickBaskets _))
  exact .of_only (bs := [.print, .clock]) (by simp) (by simp)

-- ## The requests of baskets

theorem reach_seated {who : Owner} {slot : Byte} {ref : BitVec 16} {x : Reach} (h : s.reach who slot ref = some x) :
    s.seated x.slot x.basket := seated_get (basket_get (reach_eq h).2.1).1

theorem owned_seated {who : Requester} {slot : Byte} {ref : BitVec 16} {o : Owner} (h : s.owned who slot ref = some (o, i, b)) :
    s.seated i b := by
  unfold State.owned at h
  split at h
  · split at h
    · cases h
    · next c hc =>
      split at h
      · cases h
        exact seated_get (basket_get hc).1
      · cases h
  · cases h

theorem seatKeeps_onOwned {who : Requester} {r : Reply} {slot : Byte} {ref : BitVec 16}
    {f : Owner → Fin 16 → Basket → State → State} (h : ∀ o i b, s.seated i b → SeatKeeps s (f o i b s)) :
    SeatKeeps s (onOwned who r slot ref f s) := by
  unfold onOwned
  split
  · exact (SeatKeeps.refl s).answer
  · next o i b hb => exact h o i b (owned_seated hb)

theorem State.seated.write (h : s.seated i b) (hk : b'.seatKey = b.seatKey) : SeatKeeps s (s.putBasket i b') :=
  (h.marked hk).put

theorem seatKeeps_moveStock (h : s.seated i b) (lines : List VoucherLine) (k : Fin 8) (p q : Place) (n : Nat) :
    SeatKeeps s (moveStock k p q n (s.putBasket i { b with vouchers := lines })) :=
  (h.write (b' := { b with vouchers := lines }) rfl).then_only (bs := [.vouchers]) (by simp) (by simp)

theorem seatKeeps_runSetType (who : Owner) (r : Reply) (slot : Byte) (ref : BitVec 16) (y : SeatRef) (t : Byte)
    (s : State) : SeatKeeps s (runSetType who r slot ref y t s) := by
  unfold runSetType
  split
  · exact (SeatKeeps.refl s).answer
  · split
    · exact (SeatKeeps.refl s).answer
    · next x hx =>
      dsimp only
      repeat' split
      any_goals exact (SeatKeeps.refl s).answer
      refine ((reach_seated hx).write ?_).answer
      simp only [Basket.seatKey, lineSeats, List.map_map, Prod.mk.injEq, true_and]
      exact List.map_congr_left fun l _ => by
        simp only [Function.comp_apply]
        split <;> rfl

theorem seatKeeps_closeStation (n : Fin 8) (s : State) : SeatKeeps s (closeStation n s) := by
  have hmarked : ∀ st, SeatKeeps s (s.onStation n (fun k => { k with state := st })) := fun _ => .of_eq rfl rfl rfl
  unfold closeStation
  dsimp only
  split
  · exact hmarked _
  · next i b hb =>
    have hseated : s.seated i b := seated_get ((mem_liveBaskets s i b).1 (List.mem_of_find?_eq_some hb))
    have hends : ∀ st, SeatKeeps s (endBasket i b .stationClosed (s.onStation n (fun k => { k with state := st }))) :=
      fun st => (hmarked st).trans (stands_endBasket (hseated.keeps (hmarked st)) _).keeps
    split
    · exact hmarked _
    · exact hends _
    · exact hends _
    · exact hmarked _

theorem seatKeeps_startAbort (h : s.seated i b) (r : Reply) (l : Fin 8) (x : PayRecord) :
    SeatKeeps s (startAbort i b r l x s) :=
  (h.write (b' := { b with waiter := some r }) rfl).then_only (bs := [.pay, .lines]) (by simp [startAbort]) (by simp)

theorem seatKeeps_reserve (n : Nat) (s : State) : SeatKeeps s (reserve n s) := .of_eq rfl rfl rfl

theorem seatKeeps_startPayment (h : s.seated i b) (r : Reply) (l : Fin 8) (n : Nat) :
    SeatKeeps s (startPayment i b r l n s) := by
  have hput := (seatKeeps_reserve (quantityOf b.vouchers) s).trans
    ((h.keeps (seatKeeps_reserve _ s)).write (b' := { b with
      state := .paying, hold := .suspended b.hold.seconds, attempts := b.attempts + 1, reserved := true,
      payRef := some s.freePayRef }) rfl)
  exact hput.then_only (bs := [.pay, .lines]) (by simp [startPayment]) (by simp)

theorem seatKeeps_resolveVoid (h : s.seated i b) (r : Reply) : SeatKeeps s (resolveVoid i b r s) := by
  have hdrop : SeatKeeps s (dropDoubt i b.ref s) := .of_only (bs := [.pay]) (by simp) (by simp)
  exact hdrop.trans (stands_endBasket ((h.marked (b' := { b with waiter := some r }) rfl).keeps hdrop) _).keeps

theorem seatKeeps_resolveSold (h : s.seated i b) (d : Doubt) (r : Reply) (code : List Byte) :
    SeatKeeps s (resolveSold i b d r code s) := by
  unfold resolveSold
  split
  · exact (SeatKeeps.refl s).answer
  · split
    · exact (SeatKeeps.refl s).answer
    · have hdrop : SeatKeeps s (reserve (quantityOf b.vouchers) (dropDoubt i b.ref s)) :=
        .trans (.of_only (bs := [.pay]) (by simp) (by simp)) (seatKeeps_reserve _ _)
      exact hdrop.trans (seatKeeps_beginCommit
        ((h.marked (b' := { b with reserved := true, waiter := some r }) rfl).keeps hdrop) _ _)

-- ## Sales

theorem seatKeeps_refundQuote {n : Nat} {k : Sale} (hk : s.sale n = some k) (hst : k.state = .committed) (q : Quote) :
    SeatKeeps s (s.onSale k.number (fun r => { r with state := .refundPending, quote := some q })) := by
  refine .onSale (fun _ => rfl) fun k' hk' => ?_
  obtain rfl : k = k' := by simpa [sale_number hk, hk] using hk'
  simp [Sale.seatKey, hst]

theorem seatKeeps_endQuote {n : Nat} {k : Sale} (hk : s.sale n = some k) (hst : k.state = .refundPending) :
    SeatKeeps s (endQuote k.number s) := by
  have hended : SeatKeeps s (s.onSale k.number (fun r => { r with state := .committed, quote := none })) := by
    refine .onSale (fun _ => rfl) fun k' hk' => ?_
    obtain rfl : k = k' := by simpa [sale_number hk, hk] using hk'
    exact seatKey_of_pending hst _ _ (by simp)
  exact hended.then_only (bs := [.vouchers]) (by simp [endQuote]) (by simp)

theorem countReprints_seats (named : List Nat) (ts : List Ticket) :
    (countReprints named ts).map (fun t => (t.row, t.pos)) = ts.map (fun t => (t.row, t.pos)) := by
  have hseat : ∀ x : Ticket × Nat, (fun t : Ticket => (t.row, t.pos)) (if named.contains x.2 ∧ x.1.state = .printed then
      { x.1 with used := x.1.used + 1 } else x.1) = (x.1.row, x.1.pos) := fun x => by split <;> rfl
  simp only [countReprints, List.map_map, Function.comp_def, hseat]
  rw [← Function.comp_def (fun t : Ticket => (t.row, t.pos)) Prod.fst, ← List.map_map, List.zipIdx_map_fst]

theorem seatKeeps_runReprint (who : Requester) (r : Reply) (line : Byte) (k : Sale) (named : List Nat) (s : State) :
    SeatKeeps s (runReprint who r line k named s) := by
  unfold runReprint
  split
  · exact (SeatKeeps.refl s).answer
  · dsimp only
    have hasked : ∀ i, SeatKeeps s (requestJob i k (who.owner.getD .office) (.reprint named) s).2 :=
      fun i => .of_only (bs := [.print, .lines, .choice]) (by simp) (by simp)
    split
    · exact (hasked _).answer
    · refine ((hasked _).trans (SeatKeeps.onSale (f := fun k => { k with
        jobLive := true, tickets := countReprints named k.tickets }) (fun _ => rfl) fun k _ => ?_)).answer
      simp [Sale.seatKey, countReprints_seats]

/-- A printed ticket keeps its seat. -/
theorem modify_seats (ts : List Ticket) (n : Nat) (f : Ticket → Ticket)
    (hf : ∀ t, ((f t).row, (f t).pos) = (t.row, t.pos)) :
    (ts.modify n f).map (fun t => (t.row, t.pos)) = ts.map (fun t => (t.row, t.pos)) := by
  induction ts generalizing n with
  | nil => simp
  | cons t ts ih => cases n <;> simp [ih, hf]

theorem seatKeeps_reportJob (n : Nat) (elements : List Element) (s : State) : SeatKeeps s (reportJob n elements s) := by
  refine .onSale (fun _ => rfl) fun k _ => ?_
  simp only [Sale.seatKey, Prod.mk.injEq, true_and]
  refine List.foldlRecOn (motive := fun ts : List Ticket => ts.map (fun t : Ticket => (t.row, t.pos)) = k.tickets.map (fun t => (t.row, t.pos)))
    _ _ rfl
    fun ts hts x _ => ?_
  split
  · refine Eq.trans ?_ hts
    exact modify_seats ts x.index _ fun _ => rfl
  · exact hts

theorem seatKeeps_completeJob (l : Fin 8) (s : State) : SeatKeeps s (completeJob l s) := by
  unfold completeJob
  split
  · exact .refl s
  · next j rest _ =>
    have hout : SeatKeeps s (s.onTicketLine l (fun k => { k with queue := rest })) := .of_eq rfl rfl rfl
    have hserved : ∀ p u, SeatKeeps u (serveWaiting { u with print := { u.print with pool := p } }) := fun p u =>
      .of_only (bs := [.print, .lines, .choice]) (by simp) (by simp)
    exact (hout.trans (seatKeeps_reportJob _ _ _)).trans (hserved _ _)

theorem seatKeeps_completeElement (l : Fin 8) (e : Fin 256) (x : ElementResult) (s : State) :
    SeatKeeps s (completeElement l e x s) := by
  unfold completeElement
  dsimp only
  split
  · exact .of_eq rfl rfl rfl
  · have hgoes : ∀ f u, SeatKeeps u (goOn l f u) := fun f u => .of_only (bs := [.print, .lines, .choice]) (by simp) (by simp)
    split
    · exact .before (f := fun u => goOn l true (completeJob l u)) (fun u => (seatKeeps_completeJob l u).trans (hgoes _ _))
        rfl rfl rfl
    · exact .before (hgoes false) rfl rfl rfl

end Sys2Proof.Machine
end

section
/-! PROOFS. The seat engine's work keeps the seats' books: seats held, released, blocked and sold, and baskets, sales and
screenings that come and go (O15). -/

namespace Sys2Proof.Machine

-- As in the tests: many short proofs elaborated at once would each hold a thread with its stack.
set_option Elab.async false

variable {s t : State} {i : Fin 16} {b : Basket} {c : Screening}

-- ## The view after a change

theorem seatView_only {bs : List Block} (h : Only bs s t) (hb : .screenings ∉ bs ∧ .baskets ∉ bs ∧ .sales ∉ bs) :
    t.seatView = s.seatView := (SeatKeeps.of_only h hb).view

theorem seatView_appendSale {k : Sale} (h : t.sales.records = s.sales.records ++ [k]) (hn : s.sale k.number = none)
    (hc : t.screenings = s.screenings) (hb : t.baskets = s.baskets) :
    t.seatView = s.seatView.setSale k.number (some k.seatKey) := by
  simp only [State.seatView, SeatView.setSale, hc, hb, SeatView.mk.injEq, true_and]
  funext m
  have hsale : t.sale m = (s.sale m).or (if k.number = m then some k else none) := by
    simp only [State.sale, h, List.find?_append, List.find?_singleton, beq_iff_eq]
  rw [hsale, Function.update_apply]
  by_cases hm : m = k.number
  · subst hm
    simp [hn]
  · simp [hm, Ne.symm hm]

theorem seatView_onSale {n : Nat} {k : Sale} (hk : s.sale n = some k) {f : Sale → Sale} (hf : ∀ k, (f k).number = k.number) :
    (s.onSale n f).seatView = s.seatView.setSale n (some (f k).seatKey) := by
  simp only [State.seatView, SeatView.setSale, SeatView.mk.injEq]
  refine ⟨rfl, rfl, ?_⟩
  funext m
  rw [Function.update_apply]
  by_cases hm : m = n
  · subst hm
    rw [sale_onSale hk hf, if_pos rfl, Option.map_some]
  · rw [sale_onSale_other hm hf, if_neg hm]

theorem lineSeats_append (ls ms : List SeatLine) : lineSeats (ls ++ ms) = lineSeats ls ++ lineSeats ms := List.map_append

-- ## Seats held and released (R38, R44)

theorem seatBook_holdFor (h : SeatBookLaw s) (hb : s.baskets.get i = some b) (hc : s.screening b.screening = some c)
    {lines : List SeatLine} (hnd : (lineSeats lines).Nodup) (hfree : ∀ y ∈ lineSeats lines, Grid.at c.seats y = some .free) :
    SeatBookLaw (holdFor i b c lines s) := by
  have hlaw := (seatBookLaw_iff s).1 h
  have hseats := fun k hk e => hlaw.screen hc (c := k) hk e
  rw [seatBookLaw_iff, holdFor, seatView_putBasket, seatView_putSeats, screening_id hc]
  rw [show ({ b with lines := b.lines ++ lines } : Basket).seatKey
    = (b.ref, b.screening, lineSeats b.lines ++ lineSeats lines) by simp [Basket.seatKey, lineSeats_append]]
  refine hlaw.hold (seatView_basket hb) ?_ hnd (fun k hk e y hy => ?_) fun k hk e y => ?_
  · exact (live_iff s _).2 (by simp [hc])
  · rw [hseats k hk e]
    exact hfree y hy
  · have hput : lines.foldl (fun g l => Grid.put g (l.row, l.pos) (.held i.val b.ref)) c.seats
        = (lineSeats lines).foldl (fun g x => Grid.put g x (.held i.val b.ref)) c.seats := by
      rw [lineSeats, List.foldl_map]
    rw [hput, Grid.at_foldl_put, hseats k hk e]
    split
    · next hy => simp [hfree y hy]
    · rfl

theorem seatBook_releaseFor (h : SeatBookLaw s) (hb : s.baskets.get i = some b) (hc : s.screening b.screening = some c)
    {xs : List Seat} (hxs : ∀ y ∈ xs, y ∈ lineSeats b.lines) : SeatBookLaw (releaseFor i b c xs s) := by
  have hlaw := (seatBookLaw_iff s).1 h
  have hseats := fun k hk e => hlaw.screen hc (c := k) hk e
  rw [seatBookLaw_iff, releaseFor, seatView_putBasket, seatView_putSeats, screening_id hc]
  rw [show ({ b with lines := b.lines.filter (fun l => !xs.contains (l.row, l.pos)) } : Basket).seatKey
      = (b.ref, b.screening, (lineSeats b.lines).filter (fun y => !xs.contains y)) by
    simp only [Basket.seatKey, lineSeats, List.filter_map, Function.comp_def]]
  refine hlaw.letGo (seatView_basket hb) hxs fun k hk e y => ?_
  rw [Grid.at_foldl_put, hseats k hk e]
  split
  · next hy =>
    have hk' : (b.screening, c.seats) ∈ s.seatView.screens :=
      mem_screens.2 ⟨c, screening_mem hc, by rw [Screening.seatKey, screening_id hc]⟩
    have hheld := ((hlaw.agrees _ hk' y).held i b.ref).2
      ((SeatView.holds_of (seatView_basket hb)).2 ⟨rfl, rfl, hxs y hy⟩)
    rw [hheld]
    rfl
  · rfl

theorem firstFailing_none {p : Seat → Bool} {xs : List Seat} (h : firstFailing p xs = none) : ∀ x ∈ xs, p x = true := by
  intro x hx
  have := List.find?_eq_none.1 (Option.map_eq_none_iff.1 h) x hx
  simpa using this

theorem holdForm_nodup {wishes : List SeatWish} {o : Byte} {xs : List (Seat × TicketType)} {x : Bool}
    (h : holdForm wishes o = some (xs, x)) : (xs.map Prod.fst).Nodup := by
  unfold holdForm at h
  split at h
  · split at h
    · next hform =>
      cases h
      exact distinct_iff.1 hform.2.2
    · cases h
  · cases h

theorem seatBook_runHoldSeats (h : SeatBookLaw s) (who : Owner) (r : Reply) (slot : Byte) (ref : BitVec 16)
    (ws : List SeatWish) (o : Byte) : SeatBookLaw (runHoldSeats who r slot ref ws o s) := by
  unfold runHoldSeats
  split
  · exact h.answer ..
  · next hform =>
    split
    · exact h.answer ..
    · next x hx =>
      obtain ⟨-, hb, -, hc, -⟩ := reach_eq hx
      dsimp only
      repeat' split
      any_goals exact h.answer ..
      next hfree _ _ _ =>
        refine (seatBook_holdFor h (basket_get hb).1 hc ?_ ?_).answer ..
        · simpa [lineSeats, Function.comp_def] using holdForm_nodup hform
        · intro y hy
          have := firstFailing_none hfree y (by simpa [lineSeats, Function.comp_def] using hy)
          simpa [Grid.freeAt] using this

theorem runSeats_nodup (row first n : Nat) : (runSeats row first n).Nodup :=
  List.nodup_range.map fun a b h => by simpa using h

theorem zip_fst_sublist {α β : Type} (xs : List α) (ys : List β) : ((xs.zip ys).map Prod.fst).Sublist xs := by
  induction xs generalizing ys with
  | nil => simp
  | cons x xs ih =>
    cases ys with
    | nil => simp
    | cons y ys => simpa using ih ys

theorem seatBook_runSearchEnd (h : SeatBookLaw s) (q : Search) : SeatBookLaw (runSearchEnd q s) := by
  unfold runSearchEnd
  split
  · exact h.answer ..
  · next x hx =>
    obtain ⟨-, hb, -, hc, -⟩ := reach_eq hx
    split
    · exact h.answer ..
    · dsimp only
      split
      · exact h.answer ..
      · next row first hbest =>
        have hseats : lineSeats (((runSeats row first q.count).zip q.types).map
            (fun y => SeatLine.mk y.1.1 y.1.2 y.2 none)) = ((runSeats row first q.count).zip q.types).map Prod.fst := by
          simp [lineSeats, Function.comp_def]
        have hsub := zip_fst_sublist (runSeats row first q.count) q.types
        have hmem : (row, first) ∈ candidates x.rows x.screening.seats q.zone
            (orphanApplies x.header q.who q.override) q.count := by
          obtain ⟨before, later, he, -⟩ := bestOf_first hbest
          simp [he]
        refine (seatBook_holdFor h (basket_get hb).1 hc ?_ fun y hy => ?_).answer ..
        · rw [hseats]
          exact (runSeats_nodup ..).sublist hsub
        · rw [hseats] at hy
          exact candidate_free hmem y (hsub.subset hy)

theorem seatBook_runReleaseSeats (h : SeatBookLaw s) (who : Owner) (r : Reply) (slot : Byte) (ref : BitVec 16)
    (refs : List SeatRef) : SeatBookLaw (runReleaseSeats who r slot ref refs s) := by
  unfold runReleaseSeats
  dsimp only
  split
  · exact h.answer ..
  · split
    · exact h.answer ..
    · next x hx =>
      obtain ⟨-, hb, -, hc, -⟩ := reach_eq hx
      repeat' split
      any_goals exact h.answer ..
      next hmine _ =>
        refine (seatBook_releaseFor h (basket_get hb).1 hc fun y hy => ?_).answer ..
        simpa using firstFailing_none hmine y hy

-- ## House seats (R47, R48)

theorem seatBook_runFlip (h : SeatBookLaw s) {a a' : SeatState} (ha : a.isHeld = false ∧ a.isSold = false)
    (ha' : a'.isHeld = false ∧ a'.isSold = false) (r : Reply) (id : BitVec 16) (refs : List SeatRef) :
    SeatBookLaw (runFlip a a' r id refs s) := by
  unfold runFlip
  dsimp only
  split
  · exact h.answer ..
  · next hform =>
    have hnd : (refs.map seatOf).Nodup := distinct_iff.1 (by simp only [not_or] at hform; simpa using hform.2.2)
    split
    · exact h.answer ..
    · next c hd rows hc =>
      repeat' split
      any_goals exact h.answer ..
      refine SeatBookLaw.answer ?_ ..
      have hlaw := (seatBookLaw_iff s).1 h
      have hscreen := (reachScreening_eq hc).1
      rw [seatBookLaw_iff, seatView_putSeats]
      refine hlaw.house fun k hk e y => ?_
      rw [hlaw.screen hscreen hk (e.trans (screening_id hscreen)), Grid.at_flip _ _ _ hnd]
      split
      · next hy =>
        right
        simp [hy.2, ha, ha']
      · exact .inl rfl

-- ## Baskets come and go (R50, R59)

theorem seatBook_runOpenBasket (h : SeatBookLaw s) (o : Owner) (r : Reply) (n : Nat) :
    SeatBookLaw (runOpenBasket o r n s) := by
  unfold runOpenBasket
  split
  · exact h.answer ..
  · split
    · exact h.answer ..
    · split
      · exact h.answer ..
      · split
        · exact h.answer ..
        · exact h.answer ..
        · exact h.answer ..
        · next k slot _ _ hslot =>
          have hnone : s.baskets.get slot = none := by simpa using List.find?_some hslot
          have hlaw := ((seatBookLaw_iff s).1 h).opens (i := slot) (r := s.freeRef) (id := n) (by simp [State.seatView, hnone])
          have hput : SeatBookLaw (s.putBasket slot (newBasket s.freeRef o n k.generation (s.holdTime o))) := by
            rw [seatBookLaw_iff, seatView_putBasket]
            exact hlaw
          exact (hput.keeps (.of_only (bs := [.prices, .nextRef]) (by simp) (by simp))).answer ..

theorem seatView_dropped (i : Fin 16) (b : Basket) (s : State) : (freeSlot i b s).seatView = s.seatView.setBasket i none := by
  have hcount : (uncountBasket b.generation s).seatView = s.seatView :=
    seatView_only (bs := [.prices, .lines]) (by simp) (by simp)
  have hlock : ∀ u, (lockIfClosing b.owner u).seatView = u.seatView := fun u =>
    seatView_only (bs := [.stations]) ((only_lockIfClosing (by simp)).2 (Only.refl _ _)) (by simp)
  rw [freeSlot, hlock, seatView_setBaskets, hcount]
  rfl

theorem seatBook_runReleaseBasket (h : SeatBookLaw s) {ref scr : Nat} (hfits : (Entry.releaseBasket i ref scr).fits s) :
    SeatBookLaw (runReleaseBasket i ref scr s) := by
  have hlaw := (seatBookLaw_iff s).1 h
  have hfreed : (s.onScreening scr (fun c => c.withSeats (Grid.freeHeld c.seats i.val ref))).seatView
      = s.seatView.reseat scr (fun g => Grid.freeHeld g i.val ref) := seatView_onScreening _ _ _ _ fun _ => rfl
  unfold runReleaseBasket
  dsimp only
  split
  · next hnone =>
    rw [seatBookLaw_iff, hfreed]
    refine hlaw.absent (fun k hk e => ?_) fun c _ _ y => Grid.at_freeHeld ..
    obtain ⟨b, hb, rfl⟩ := Option.map_eq_some_iff.1 hk
    have hgone : s.basket i ref = none := hnone
    simp only [State.basket, hb] at hgone
    exact absurd e (by simpa [Basket.seatKey] using hgone)
  · next b hb =>
    obtain ⟨hget, hbref⟩ := basket_get (s := s) hb
    have hscr : b.screening = scr := hfits _ (seatView_basket hget) hbref
    have hleaves : (basketLeaves i b ((s.screening scr).elim 0 (fun c => Grid.heldBy c.seats i.val ref))
        (s.onScreening scr (fun c => c.withSeats (Grid.freeHeld c.seats i.val ref)))).seatView
        = (s.seatView.reseat scr (fun g => Grid.freeHeld g i.val ref)).setBasket i none := by
      rw [← hfreed, basketLeaves]
      refine (seatView_only (bs := [.lines]) ((only_tellEnd (by simp)).2 (Only.refl _ _)) (by simp)).trans ?_
      rw [seatView_dropped]
      congr 1
      exact seatView_only (bs := [.vouchers]) (by simp) (by simp)
    rw [seatBookLaw_iff, hleaves]
    refine hlaw.leaves (r := ref) (q := lineSeats b.lines) ?_ fun c _ _ y => Grid.at_freeHeld ..
    rw [seatView_basket hget, Basket.seatKey, hbref, hscr]

-- ## Sales (R51 to R53)

theorem seatKeeps_asked (i : Fin 8) (k : Sale) (o : Owner) (m : MakeUp) (n : Nat) (s : State) :
    SeatKeeps s (if (requestJob i k o m s).1 = .notQueued then (requestJob i k o m s).2
      else (requestJob i k o m s).2.onSale n (fun r => { r with jobLive := true })) := by
  have hasked : SeatKeeps s (requestJob i k o m s).2 := .of_only (bs := [.print, .lines, .choice]) (by simp) (by simp)
  split
  · exact hasked
  · exact hasked.trans (.onSale (fun _ => rfl) fun _ _ => rfl)

theorem seatKeeps_commitJob (l : Option (Fin 8)) (n : Nat) (s : State) : SeatKeeps s (commitJob l n s).2 := by
  unfold commitJob
  split
  · exact seatKeeps_asked ..
  · exact .refl s

theorem seatKeeps_tellCommit (i : Fin 16) (b : Basket) (k : Sale) (o : PrintOutcome) (s : State) :
    SeatKeeps s (tellCommit i b k o s) := by
  have htold : ∀ n f l, SeatKeeps s { notifyStation n 0xE5 f s with
      sales := { (notifyStation n 0xE5 f s).sales with last := l } } := fun n f l =>
    .trans (t := notifyStation n 0xE5 f s) (.of_only (bs := [.lines]) (by simp) (by simp)) (.of_eq rfl rfl rfl)
  unfold tellCommit
  dsimp only
  split
  · split
    · exact htold ..
    · exact (htold ..).answer
  · split
    · exact .refl s
    · exact (SeatKeeps.refl s).answer

theorem seatView_recordSale {k : Commit} (h : s.sale k.number = none) (b : Basket) : (recordSale b k s).seatView
    = s.seatView.setSale k.number (some (b.screening, false, lineSeats b.lines)) := by
  obtain ⟨made, -, hsales⟩ := recordSale_issued b k h
  have honly : Only [.sales, .vouchers] s (recordSale b k s) := by simp
  rw [seatView_appendSale (k := { commitRecord b k with vouchers := made }) (by rw [hsales]) h
    (honly .screenings (by simp)) (honly .baskets (by simp))]
  simp [commitRecord, Sale.seatKey, ticketsOf, lineSeats, Function.comp_def]
  rfl

theorem seatKeeps_completeCommit (i : Fin 16) (b : Basket) (k : Commit) (s : State) :
    SeatKeeps (freeSlot i b (recordSale b k s)) (completeCommit i b k s) := by
  unfold completeCommit
  generalize freeSlot i b (recordSale b k s) = u
  dsimp only
  have hjob := seatKeeps_commitJob (u.commitLine b.owner k) k.number u
  split
  · exact hjob
  · exact (hjob.then_only (bs := [.lines]) (by simp) (by simp)).trans (seatKeeps_tellCommit ..)

theorem seatBook_runSellBasket (h : SeatBookLaw s) {ref scr n : Nat} (hfits : (Entry.sellBasket i ref scr n).fits s) :
    SeatBookLaw (runSellBasket i ref scr n s) := by
  unfold runSellBasket
  split
  · next b k hb hk =>
    obtain ⟨hget, hbref⟩ := basket_get hb
    obtain ⟨hscr, hnone⟩ := hfits
    have hbscr : b.screening = scr := hscr _ (seatView_basket hget) hbref
    have hkn : k.number = n := by simpa using List.find?_some hk
    have hsold : (s.onScreening scr (fun c => c.withSeats (Grid.sell c.seats n (lineSeats b.lines)))).seatView
        = s.seatView.reseat scr (fun g => Grid.sell g n (lineSeats b.lines)) := seatView_onScreening _ _ _ _ fun _ => rfl
    have hsale : (s.onScreening scr (fun c => c.withSeats (Grid.sell c.seats n (lineSeats b.lines)))).sale k.number = none := by
      rw [hkn]
      exact Option.map_eq_none_iff.1 hnone
    rw [seatBookLaw_iff, (seatKeeps_completeCommit ..).view, seatView_dropped, seatView_recordSale hsale, hsold, hkn, hbscr]
    exact ((seatBookLaw_iff s).1 h).commits (r := ref) (by rw [seatView_basket hget, Basket.seatKey, hbref, hbscr]) hnone
      fun _ => rfl
  · exact h

theorem seatKeeps_refunded (k : Sale) (q : Quote) (s : State) : SeatKeeps
    (s.onSale k.number (fun r => { r with state := .refunded, quote := none })) (completeRefund k q s) := by
  unfold completeRefund
  generalize s.onSale k.number (fun r => { r with state := .refunded, quote := none }) = u
  dsimp only
  refine .trans (t := voidVouchers k.number u) (.of_only (bs := [.vouchers]) (by simp) (by simp)) ?_
  split
  · exact .of_only (bs := [.lines]) (by simp) (by simp)
  · exact .of_only (bs := [.lines]) (by simp) (by simp)

theorem seatBook_runFreeSale (h : SeatBookLaw s) {scr n : Nat} (hfits : (Entry.freeSale scr n).fits s) :
    SeatBookLaw (runFreeSale scr n s) := by
  obtain ⟨⟨x, hx, rfl⟩, htaken⟩ := hfits
  obtain ⟨k, hk, rfl⟩ := Option.map_eq_some_iff.1 hx
  obtain ⟨q, hq⟩ : ∃ q, k.quote = some q := by
    cases hq : k.quote with
    | none => simp [State.takenBy, hk, hq] at htaken
    | some q => exact ⟨q, rfl⟩
  have hfreed : (s.onScreening k.screening (fun c => c.withSeats (Grid.freeSold c.seats n))).seatView
      = s.seatView.reseat k.screening (fun g => Grid.freeSold g n) := seatView_onScreening _ _ _ _ fun _ => rfl
  have hk' : (s.onScreening k.screening (fun c => c.withSeats (Grid.freeSold c.seats n))).sale n = some k := hk
  have hrun : runFreeSale k.screening n s
      = completeRefund k q (s.onScreening k.screening (fun c => c.withSeats (Grid.freeSold c.seats n))) := by
    simp only [runFreeSale, hk', hq]
  rw [seatBookLaw_iff]
  change (runFreeSale k.screening n s).seatView.Lawful
  rw [hrun, (seatKeeps_refunded ..).view, sale_number hk, seatView_onSale hk' (f := fun r => { r with state := .refunded, quote := none })
    (fun _ => rfl), hfreed]
  exact ((seatBookLaw_iff s).1 h).refunds hx fun _ => rfl

theorem readRestored_committed {f : SaleFields} {sale : Sale} {vs : List Voucher} (h : readRestored f = some (sale, vs)) :
    sale.state = .committed := by
  unfold readRestored at h
  dsimp only at h
  repeat' split at h
  · cases h
    rfl
  all_goals cases h

theorem seatBook_runRestore (h : SeatBookLaw s) (r : Reply) (f : SaleFields) : SeatBookLaw (runRestore r f s) := by
  unfold runRestore
  split
  · exact h.answer ..
  · next sale vs hform =>
    split
    · exact h.answer ..
    · next c hc =>
      dsimp only
      repeat' split
      any_goals exact h.answer ..
      next hheld _ _ _ hfree _ =>
        have hlaw := (seatBookLaw_iff s).1 h
        have hnone : s.sale sale.number = none := by
          rw [State.sale, List.find?_eq_none]
          intro k hk e
          exact hheld (by
            simp only [State.holdsNumber, Bool.or_eq_true, List.any_eq_true]
            exact .inl (.inl (.inl (.inl (.inl ⟨k, hk, e⟩)))))
        have hview : (restoreVouchers vs { s.putSeats c.id (Grid.sell c.seats sale.number
              (sale.tickets.map (fun t => (t.row, t.pos)))) with
            sales := { s.sales with records := s.sales.records ++ [sale] } }).seatView
            = (s.seatView.reseat c.id (fun _ => Grid.sell c.seats sale.number
                (sale.tickets.map (fun t => (t.row, t.pos))))).setSale sale.number (some sale.seatKey) := by
          rw [seatView_only (bs := [.vouchers]) (s := { s.putSeats c.id (Grid.sell c.seats sale.number
              (sale.tickets.map (fun t => (t.row, t.pos)))) with
            sales := { s.sales with records := s.sales.records ++ [sale] } }) (by simp) (by simp),
            ← seatView_putSeats]
          exact seatView_appendSale rfl hnone rfl rfl
        refine SeatBookLaw.answer ?_ ..
        refine (seatBookLaw_iff _).2 (hview ▸ ?_)
        rw [Sale.seatKey, readRestored_committed hform, ← screening_id hc]
        refine hlaw.restores (by simp [State.seatView, hnone]) (readRestored_nodup hform) (fun k hk e y hy => ?_)
          fun k hk e => ?_
        · rw [hlaw.screen hc hk (e.trans (screening_id hc))]
          simpa [Grid.freeAt] using firstFailing_none hfree y hy
        · rw [hlaw.screen hc hk (e.trans (screening_id hc))]

-- ## Screenings come and go (R8, R15)

theorem seatBook_loads (h : SeatBookLaw s) (hp : SeatPremises s) {k : Screening} (hk : s.screening k.id = none)
    (hg : ∀ y x, Grid.at k.seats y = some x → x = .free) :
    SeatBookLaw { s with screenings := s.screenings ++ [k] } := by
  have hview : State.seatView { s with screenings := s.screenings ++ [k] }
      = { s.seatView with screens := s.seatView.screens ++ [(k.id, k.seats)] } := by
    simp only [State.seatView, List.map_append, SeatView.mk.injEq, true_and]
    exact ⟨rfl, rfl⟩
  have hdead : ¬ s.seatView.live k.id := by simp [live_iff, hk]
  refine (seatBookLaw_iff _).2 (hview ▸ ?_)
  refine ((seatBookLaw_iff s).1 h).loads (fun c hc e => hdead ⟨c, hc, e⟩) (fun y x hx => ?_) (fun i x hx e => ?_)
    fun n x hx e => ?_
  · rw [hg y x hx]
    exact ⟨rfl, rfl⟩
  · exact hdead (e ▸ hp.baskets i x hx)
  · exact hdead (e ▸ hp.sales n x hx)

/-- Of records with distinct numbers, one kept is found again. -/
theorem find_filtered {ks : List Sale} (hn : (ks.map (·.number)).Nodup) (p : Sale → Bool) (n : Nat) :
    (ks.filter p).find? (fun k => k.number == n) = (ks.find? (fun k => k.number == n)).filter p := by
  induction ks with
  | nil => rfl
  | cons k ks ih =>
    obtain ⟨hk, hn⟩ := List.nodup_cons.1 hn
    by_cases hkn : k.number = n
    · have hnone : ks.find? (fun k => k.number == n) = none := by
        rw [List.find?_eq_none]
        intro x hx e
        exact hk (List.mem_map.2 ⟨x, hx, by simpa [hkn] using e⟩)
      by_cases hp : p k = true
      · simp [hp, hkn, Option.filter]
      · simp [hp, hkn, Option.filter, ih hn, hnone]
    · by_cases hp : p k = true <;> simp [hp, hkn, ih hn]

theorem seatBook_archiveScreening (h : SeatBookLaw s) (hn : (s.sales.records.map (·.number)).Nodup) (n : Nat) :
    SeatBookLaw (archiveScreening n s) := by
  refine (seatBookLaw_iff _).2 (((seatBookLaw_iff s).1 h).archives (id := n) ?_ ?_ fun m id' b xs hne => ?_)
  · simp only [State.seatView, archiveScreening_screenings, List.filter_map]
    rfl
  · have honly : Only [.vouchers, .sales, .screenings] s (archiveScreening n s) := by simp
    simp only [State.seatView, show (archiveScreening n s).baskets = s.baskets from honly .baskets (by simp)]
  · simp only [State.seatView]
    rw [State.sale, archiveScreening_sales, find_filtered hn, ← State.sale]
    cases s.sale m with
    | none => simp
    | some k =>
      by_cases hk : k.screening = n
      · simp [Option.filter, hk, Sale.seatKey, hne.symm]
      · simp [Option.filter, hk]

end Sys2Proof.Machine
end

section
/-! PROOFS. Every step keeps each seat HELD or SOLD exactly where a basket or a sale says so (O15). -/

namespace Sys2Proof.Machine

-- As in the tests: many short proofs elaborated at once would each hold a thread with its stack.
set_option Elab.async false

theorem openQuote_pending {k : Sale} {q : Quote} (h : k.openQuote = some q) : k.state = .refundPending := by
  unfold Sale.openQuote at h
  split at h
  · assumption
  · cases h

theorem tallyOf_prices {s : State} {b : Basket} {t : Tally} (h : s.tallyOf b = some t) : t.prices.length = b.lines.length := by
  unfold State.tallyOf at h
  split at h
  · obtain ⟨p, -, rfl⟩ := Option.map_eq_some_iff.1 h
    simp [computeTally]
  · cases h

theorem tallied_seatKey {b : Basket} {t : Tally} (h : t.prices.length = b.lines.length) : (b.tallied t).seatKey = b.seatKey := by
  have hlines : lineSeats (b.tallied t).lines = lineSeats ((b.lines.zip t.prices).map Prod.fst) := by
    simp [Basket.tallied, lineSeats, Function.comp_def]
  rw [Basket.seatKey, hlines, List.map_fst_zip h.ge]
  rfl

theorem reopened_seatKey (b : Basket) : b.reopened.seatKey = b.seatKey := by
  simp [Basket.seatKey, Basket.reopened, lineSeats]

-- ## The commands

variable {s t : State}

/-- A request of a basket's owner whose work leaves the seats' books alone. -/
theorem seats_owned {i : Instr} {src : Link} {tag kind slot : Byte} {ok : Bool} {ref : BitVec 16}
    {f : Requester → Reply → Owner → Fin 16 → Basket → State → State}
    (hf : ∀ who r o j b (u : State), u.seated j b → SeatKeeps u (f who r o j b u))
    (h : request i src tag kind ok (fun who r => onOwned who r slot ref (f who r)) s = .next t) (hs : Seated s) :
    SeatBookLaw t :=
  seats_keeping h (fun who r u => seatKeeps_onOwned fun o j b hb => hf who r o j b u hb) hs

theorem seats_loadScreening {src tag fields} (h : exec (.loadScreening src tag fields) s = .next t)
    (hs : Seated s) : SeatBookLaw t := by
  refine seats_request h (fun who r u hu => ?_) hs
  dsimp only
  repeat' split
  any_goals exact hu.2.answer ..
  next hnew _ _ rows _ _ _ =>
    refine (seatBook_loads hu.2 hu.1 (by simpa using hnew) fun y x hx => ?_).answer ..
    rw [freshGrid_at] at hx
    obtain ⟨-, -, rfl⟩ := Option.map_eq_some_iff.1 hx
    rfl

theorem seats_setScreening {src tag id target} (h : exec (.setScreening src tag id target) s = .next t)
    (hs : Seated s) : SeatBookLaw t := by
  refine seats_keeping h (fun who r u => ?_) hs
  repeat' split
  any_goals exact (SeatKeeps.refl u).answer
  refine SeatKeeps.answer (SeatKeeps.onScreening ?_)
  exact fun _ => rfl

theorem seats_setKioskSales {src tag id value} (h : exec (.setKioskSales src tag id value) s = .next t)
    (hs : Seated s) : SeatBookLaw t := by
  refine seats_keeping h (fun who r u => ?_) hs
  repeat' split
  any_goals exact (SeatKeeps.refl u).answer
  refine SeatKeeps.answer (SeatKeeps.onScreening ?_)
  exact fun _ => rfl

theorem seats_closeScreening {src tag id} (h : exec (.closeScreening src tag id) s = .next t)
    (hs : Seated s) : SeatBookLaw t := by
  refine seats_keeping h (fun who r u => ?_) hs
  split
  · exact (SeatKeeps.refl u).answer
  · refine SeatKeeps.answer (SeatKeeps.onScreening ?_)
    exact fun _ => rfl

theorem seats_archive {src tag id} (h : exec (.archive src tag id) s = .next t)
    (hs : Seated s) : SeatBookLaw t := by
  refine seats_request h (fun who r u hu => ?_) hs
  dsimp only
  repeat' split
  any_goals exact hu.2.answer ..
  exact (seatBook_archiveScreening hu.2 hu.1.numbers _).answer ..

theorem seats_dayOpen {src tag fields} (h : exec (.dayOpen src tag fields) s = .next t)
    (hs : Seated s) : SeatBookLaw t := by
  refine seats_keeping h (fun who r u => ?_) hs
  dsimp only
  repeat' split
  any_goals exact (SeatKeeps.refl u).answer
  exact SeatKeeps.answer (.trans (t := putClock _ u) (.of_only (bs := [.clock]) (by simp) (by simp)) (.of_eq rfl rfl rfl))

theorem seats_setTime {src tag clock} (h : exec (.setTime src tag clock) s = .next t)
    (hs : Seated s) : SeatBookLaw t := by
  refine seats_keeping h (fun who r u => ?_) hs
  repeat' split
  any_goals exact (SeatKeeps.refl u).answer
  exact (seatKeeps_moveClock _ u).answer

theorem seats_openBasket {src tag screening} (h : exec (.openBasket src tag screening) s = .next t)
    (hs : Seated s) : SeatBookLaw t := by
  refine seats_request h (fun who r u hu => ?_) hs
  split
  · exact hu.2.answer ..
  · exact seatBook_runOpenBasket hu.2 ..

theorem seats_addVoucher {src tag slot ref kind quantity} (h : exec (.addVoucher src tag slot ref kind quantity) s = .next t)
    (hs : Seated s) : SeatBookLaw t := by
  refine seats_owned (fun who r o j b u hb => ?_) h hs
  dsimp only
  repeat' split
  any_goals exact (SeatKeeps.refl u).answer
  exact (seatKeeps_moveStock hb _ _ _ _ _).answer

theorem seats_dropVoucher {src tag slot ref kind quantity} (h : exec (.dropVoucher src tag slot ref kind quantity) s = .next t)
    (hs : Seated s) : SeatBookLaw t := by
  refine seats_owned (fun who r o j b u hb => ?_) h hs
  dsimp only
  repeat' split
  any_goals exact (SeatKeeps.refl u).answer
  exact (seatKeeps_moveStock hb _ _ _ _ _).answer

theorem seats_tally {src tag slot ref} (h : exec (.tally src tag slot ref) s = .next t)
    (hs : Seated s) : SeatBookLaw t := by
  refine seats_owned (fun who r o j b u hb => ?_) h hs
  repeat' split
  any_goals exact (SeatKeeps.refl u).answer
  next t ht => exact (hb.write (b' := b.tallied t) (tallied_seatKey (tallyOf_prices ht))).answer

theorem seats_reopen {src tag slot ref} (h : exec (.reopen src tag slot ref) s = .next t)
    (hs : Seated s) : SeatBookLaw t := by
  refine seats_owned (fun who r o j b u hb => ?_) h hs
  split
  · exact (SeatKeeps.refl u).answer
  · exact (hb.write (b' := b.reopened) (reopened_seatKey b)).answer
  · exact (SeatKeeps.refl u).answer

theorem seats_extend {src tag slot ref} (h : exec (.extend src tag slot ref) s = .next t)
    (hs : Seated s) : SeatBookLaw t := by
  refine seats_owned (fun who r o j b u hb => ?_) h hs
  dsimp only
  repeat' split
  any_goals exact (SeatKeeps.refl u).answer
  exact (hb.write (b' := b.extended u.params.extension u.params.warningLead) rfl).answer

theorem seats_cancel {src tag slot ref} (h : exec (.cancel src tag slot ref) s = .next t)
    (hs : Seated s) : SeatBookLaw t := by
  refine seats_owned (fun who r o j b u hb => ?_) h hs
  repeat' split
  any_goals exact (SeatKeeps.refl u).answer
  · exact (stands_endBasket (hb.marked (b' := { b with waiter := some r }) rfl) _).keeps
  · exact (stands_endBasket (hb.marked (b' := { b with waiter := some r }) rfl) _).keeps
  · exact seatKeeps_startAbort hb _ _ _

theorem seats_pay {src tag slot ref amount} (h : exec (.pay src tag slot ref amount) s = .next t)
    (hs : Seated s) : SeatBookLaw t := by
  refine seats_owned (fun who r o j b u hb => ?_) h hs
  repeat' split
  any_goals exact (SeatKeeps.refl u).answer
  exact seatKeeps_startPayment hb _ _ _

theorem seats_settle {src tag slot ref line} (h : exec (.settle src tag slot ref line) s = .next t)
    (hs : Seated s) : SeatBookLaw t := by
  refine seats_keeping h (fun who r u => ?_) hs
  split
  · exact (SeatKeeps.refl u).answer
  · refine seatKeeps_onOwned fun o j b hb => ?_
    repeat' split
    any_goals exact (SeatKeeps.refl u).answer
    exact (seatKeeps_reserve _ u).trans (seatKeeps_beginCommit
      ((hb.marked (b' := { b with reserved := true, waiter := some r }) rfl).keeps (seatKeeps_reserve _ u)) _ _)

theorem seats_resolve {src tag slot ref verdict code} (h : exec (.resolve src tag slot ref verdict code) s = .next t)
    (hs : Seated s) : SeatBookLaw t := by
  refine seats_keeping h (fun who r u => ?_) hs
  split
  · exact (SeatKeeps.refl u).answer
  · split
    · exact (SeatKeeps.refl u).answer
    · next j b hb =>
      have hseated : u.seated j b := by
        obtain ⟨x, -, hx⟩ := Option.bind_eq_some_iff.1 hb
        obtain ⟨c, hc, e⟩ := Option.map_eq_some_iff.1 hx
        cases e
        exact seated_get (basket_get hc).1
      repeat' split
      any_goals exact (SeatKeeps.refl u).answer
      · exact seatKeeps_resolveVoid hseated r
      · exact seatKeeps_resolveSold hseated _ r _

theorem seats_approved {line payRef code amount} (h : exec (.approved line payRef code amount) s = .next t)
    (hs : Seated s) : SeatBookLaw t := by
  refine seats_message (exec_approved _ _ _ _ s ▸ h) (fun u hu => hu.2.keeps ?_) hs
  have hstray : ∀ l, SeatKeeps u (countStray l u) := fun l => .of_only (bs := [.pay]) (by simp) (by simp)
  repeat' split
  · exact hstray _
  · exact hstray _
  · exact (stands_lateApproval ..).keeps
  · exact seatKeeps_onNamed fun r => seatKeeps_takeApproved ..

theorem seats_declined {line payRef reason} (h : exec (.declined line payRef reason) s = .next t)
    (hs : Seated s) : SeatBookLaw t := by
  refine seats_message (exec_declined _ _ _ s ▸ h) (fun u hu => hu.2.keeps ?_) hs
  split
  · exact .of_only (bs := [.pay]) (by simp) (by simp)
  · refine seatKeeps_onNamed fun r => ?_
    split
    · exact (stands_declineRecord ..).keeps
    · exact (stands_declineRecord ..).keeps
    · exact (stands_abortAnswered ..).keeps
    · exact SeatKeeps.refl u

theorem seats_aborted {line payRef} (h : exec (.aborted line payRef) s = .next t)
    (hs : Seated s) : SeatBookLaw t := by
  refine seats_message h (fun u hu => hu.2.keeps (seatKeeps_onNamed fun r => ?_)) hs
  split
  · exact (stands_declineRecord ..).keeps
  · exact (stands_declineRecord ..).keeps
  · exact (stands_abortAnswered ..).keeps
  · exact SeatKeeps.refl u

theorem seats_reversed {line payRef} (h : exec (.reversed line payRef) s = .next t)
    (hs : Seated s) : SeatBookLaw t := by
  refine seats_message (exec_reversed _ _ s ▸ h) (fun u hu => hu.2.keeps ?_) hs
  split
  · exact (stands_confirmReversal ..).keeps
  · split
    · exact SeatKeeps.refl u
    · exact .of_only (bs := [.pay]) (by simp) (by simp)

theorem seats_elementDone {line element result} (h : exec (.elementDone line element result) s = .next t)
    (hs : Seated s) : SeatBookLaw t := by
  refine seats_message (exec_elementDone line element result s ▸ h) (fun u hu => hu.2.keeps ?_) hs
  repeat' split
  · exact seatKeeps_completeElement ..
  all_goals exact SeatKeeps.refl u

theorem seats_refundQuote {src tag sale} (h : exec (.refundQuote src tag sale) s = .next t)
    (hs : Seated s) : SeatBookLaw t := by
  refine seats_keeping h (fun who r u => ?_) hs
  split
  · exact (SeatKeeps.refl u).answer
  · next k hk =>
    dsimp only
    repeat' split
    any_goals exact (SeatKeeps.refl u).answer
    next hst _ _ =>
      refine SeatKeeps.answer ((seatKeeps_refundQuote hk (by simpa using hst)
        ⟨k.total - u.redeemedSum k.number, u.params.quoteTime, none⟩).trans ?_)
      exact .of_only (bs := [.vouchers]) (by simp) (by simp)

theorem seats_refundCommit {src tag sale amount} (h : exec (.refundCommit src tag sale amount) s = .next t)
    (hs : Seated s) : SeatBookLaw t := by
  refine seats_keeping h (fun who r u => ?_) hs
  repeat' split
  any_goals exact (SeatKeeps.refl u).answer
  next k _ _ q _ _ =>
    exact .trans (t := u.onSale k.number (fun k => { k with quote := some { q with seconds := 0, taken := some r } }))
      (.onSale (fun _ => rfl) fun _ _ => rfl) (.of_only (bs := [.engine]) (by simp) (by simp))

theorem seats_refundCancel {src tag sale} (h : exec (.refundCancel src tag sale) s = .next t)
    (hs : Seated s) : SeatBookLaw t := by
  refine seats_keeping h (fun who r u => ?_) hs
  split
  · exact (SeatKeeps.refl u).answer
  · next k hk =>
    split
    · exact (SeatKeeps.refl u).answer
    · next q hq => exact (seatKeeps_endQuote hk (openQuote_pending hq)).answer

theorem seats_reprint {src tag sale set line override} (h : exec (.reprint src tag sale set line override) s = .next t)
    (hs : Seated s) : SeatBookLaw t := by
  refine seats_keeping h (fun who r u => ?_) hs
  dsimp only
  repeat' split
  any_goals exact (SeatKeeps.refl u).answer
  exact seatKeeps_runReprint ..

theorem seats_bestBlockSearchEnd (h : exec .bestBlockSearchEnd s = .next t)
    (hs : Seated s) : SeatBookLaw t := by
  refine seats_command (exec_bestBlockSearchEnd s ▸ h) (fun u hu => ?_) hs
  split
  · exact hu.2
  · next q _ =>
    exact seatBook_runSearchEnd (s := { u with engine := { u.engine with search := none } })
      (hu.2.keeps (.of_eq rfl rfl rfl)) q

theorem seats_closeStation {src tag station} (h : exec (.closeStation src tag station) s = .next t)
    (hs : Seated s) : SeatBookLaw t := by
  refine seats_keeping h (fun who r u => ?_) hs
  unfold onNamedStation
  dsimp only
  repeat' split
  any_goals exact (SeatKeeps.refl u).answer
  exact SeatKeeps.answer (seatKeeps_closeStation _ u)

/-- Every command keeps the seats' books where the other books agree. -/
theorem seats_exec {i : Instr} (h : exec i s = .next t) (hs : Seated s) : SeatBookLaw t := by
  cases i
  case secondTick => exact seats_command h (fun u hu => hu.2.keeps (seatKeeps_secondTick u)) hs
  case clockSecond => exact seats_command h (fun u hu => hu.2.keeps (seatKeeps_clockSecond u)) hs
  case minutePulse => exact seats_command h (fun u hu => hu.2.keeps (seatKeeps_takePulse u)) hs
  case holdCountdownExpiry => exact seats_event h (fun hs => hs.2.keeps (stands_expireHold _ s).keeps) hs
  case acceptWaitExpiry => exact seats_event h (fun hs => hs.2.keeps (stands_expireAccept _ s).keeps) hs
  case authorizationWaitExpiry => exact seats_event h (fun hs => hs.2.keeps (stands_expireAuthorization _ s).keeps) hs
  case reversalIntervalExpiry => exact seats_event h (fun hs => hs.2.keeps (stands_expireInterval _ s).keeps) hs
  case refundQuoteExpiry => exact seats_event h (fun hs => hs.2.keeps (stands_expireSaleQuote hs.1.pend _).keeps) hs
  case reprintWindowExpiry st =>
    exact seats_event h (fun hs => hs.2.keeps (stands_carryOut hs.1.pend (.window st)).keeps) hs
  case loadScreening => exact seats_loadScreening h hs
  case setScreening => exact seats_setScreening h hs
  case setKioskSales => exact seats_setKioskSales h hs
  case closeScreening => exact seats_closeScreening h hs
  case archive => exact seats_archive h hs
  case dayOpen => exact seats_dayOpen h hs
  case setTime => exact seats_setTime h hs
  case openBasket => exact seats_openBasket h hs
  case addVoucher => exact seats_addVoucher h hs
  case dropVoucher => exact seats_dropVoucher h hs
  case tally => exact seats_tally h hs
  case reopen => exact seats_reopen h hs
  case extend => exact seats_extend h hs
  case cancel => exact seats_cancel h hs
  case pay => exact seats_pay h hs
  case settle => exact seats_settle h hs
  case resolve => exact seats_resolve h hs
  case approved => exact seats_approved h hs
  case declined => exact seats_declined h hs
  case aborted => exact seats_aborted h hs
  case reversed => exact seats_reversed h hs
  case elementDone => exact seats_elementDone h hs
  case refundQuote => exact seats_refundQuote h hs
  case refundCommit => exact seats_refundCommit h hs
  case refundCancel => exact seats_refundCancel h hs
  case reprint => exact seats_reprint h hs
  case holdSeats =>
    exact seats_arbitrate h (fun x f hf u _ hu => by split at hf <;> cases hf; exact seatBook_runHoldSeats hu ..) hs
  case bestBlockSearchEnd => exact seats_bestBlockSearchEnd h hs
  case releaseSeats =>
    exact seats_arbitrate h (fun x f hf u _ hu => by split at hf <;> cases hf; exact seatBook_runReleaseSeats hu ..) hs
  case setType =>
    exact seats_arbitrate h (fun x f hf u _ hu => by
      split at hf <;> cases hf; exact hu.keeps (seatKeeps_runSetType ..)) hs
  case blockSeats =>
    exact seats_arbitrate h (fun x f hf u _ hu => by
      split at hf <;> cases hf; exact seatBook_runFlip hu ⟨rfl, rfl⟩ ⟨rfl, rfl⟩ ..) hs
  case unblockSeats =>
    exact seats_arbitrate h (fun x f hf u _ hu => by
      split at hf <;> cases hf; exact seatBook_runFlip hu ⟨rfl, rfl⟩ ⟨rfl, rfl⟩ ..) hs
  case releaseBasket =>
    exact seats_arbitrate h (fun x f hf u hx hu => by
      split at hf <;> cases hf; exact seatBook_runReleaseBasket hu hx) hs
  case sellBasket =>
    exact seats_arbitrate h (fun x f hf u hx hu => by split at hf <;> cases hf; exact seatBook_runSellBasket hu hx) hs
  case freeSale =>
    exact seats_arbitrate h (fun x f hf u hx hu => by split at hf <;> cases hf; exact seatBook_runFreeSale hu hx) hs
  case restoreSeats =>
    exact seats_arbitrate h (fun x f hf u _ hu => by split at hf <;> cases hf; exact seatBook_runRestore hu ..) hs
  case closeStation => exact seats_closeStation h hs
  all_goals exact seats_apart (by unfold touches; simp) h hs

/-- Settles O15: a step takes what waits due first, which leaves the books of the seats and what they rest on as they
are (`lasting_seated`), and then each command by what it makes of the view of the seats. -/
theorem seatBookLawKept : Obligations.SeatBookLawKept := by
  unfold Obligations.SeatBookLawKept
  intro s t hbooks hs h
  have hseated : Seated s := ⟨hbooks.seatPremises, hs⟩
  unfold step at h
  split at h
  · cases h
    exact hs.keeps (.of_only (Lasting.idle_only s) (by simp))
  · exact seats_exec h (lasting_seated.pending _ hseated)

end Sys2Proof.Machine
end

section
/-! PROOFS. O14 fails: in BasketLaw the clause that a reserved basket has a tally stands inside the quantifier over that
tally, and so says nothing of a basket without one. -/

namespace Sys2Proof.Machine

-- As in the tests: many short proofs elaborated at once would each hold a thread with its stack.
set_option Elab.async false

/-- A basket in ENDING that commits, with one unit of combo kind 0, and without a tally to charge it. -/
def untalliedBasket : Basket where
  ref := 1
  owner := .office
  screening := 1
  lines := []
  vouchers := [⟨0, 1⟩]
  generation := 1
  tally := none
  state := .ending
  endReason := some .committed
  hold := .absent
  extensionUsed := false
  warningSent := false
  attempts := 0
  reserved := true
  payRef := none
  waiter := none

/-- The part as after a reset, with that basket in slot 0, its screening, its unit in in_baskets, its reservation, its
commit under way, and SELL_BASKET the command. -/
def untalliedState : State := { State.reset with
  pending := [.sellBasket]
  screenings := [⟨1, 0, 0, .standard, false, 15, false, .loaded, ⟨0, 0, 0, 0⟩, []⟩]
  engine := { Engine.reset with queue := [.sellBasket 0 1 1 1] }
  baskets := State.reset.baskets.set 0 (some untalliedBasket)
  sales := { SaleTable.reset with reservedSales := 1, reservedVouchers := 1, commits := [⟨0, 1, 1, none, none⟩] }
  vouchers := { VoucherTable.reset with stock := VoucherTable.reset.stock.set 0 ⟨1, 0, 1, 0, 0, 0⟩ } }

theorem untallied_live : untalliedState.liveBaskets = [(0, untalliedBasket)] := by decide +kernel

theorem untallied_basket : untalliedState.basket 0 1 = some untalliedBasket := by decide +kernel

theorem untallied_owed : untalliedState.owed = [] := by decide +kernel

theorem untallied_payLine (i : Fin 8) : untalliedState.payLine i = ⟨none, [], [], 0⟩ := by
  revert i
  decide +kernel

theorem untallied_sending (l : Line) : (untalliedState.line l).sending = [] := by
  cases l with
  | ol => decide +kernel
  | _ i => revert i; decide +kernel

theorem untallied_basketLaw : BasketLaw untalliedState := by
  have hscreening : (untalliedState.screening 1).isSome = true := by decide +kernel
  simp [BasketLaw, untallied_live, untalliedBasket, Hold.runs, hscreening]

theorem untallied_entryLaw : EntryLaw untalliedState := by
  have hqueue : untalliedState.engine.queue = [.sellBasket 0 1 1 1] := rfl
  have hcommits : untalliedState.sales.commits = [⟨0, 1, 1, none, none⟩] := rfl
  have hsale : untalliedState.sale 1 = none := rfl
  simp [EntryLaw, hqueue, hcommits, hsale, untallied_basket, untalliedBasket, Entry.slot, Entry.freed, List.filterMap]

theorem untallied_voucherLaw : VoucherLaw untalliedState := by
  have hrecords : untalliedState.vouchers.records = [] := rfl
  have hstock : ∀ k, (untalliedState.vouchers.stock.get k).inBaskets
      = ((untalliedBasket.vouchers.filter (fun l => l.kind == k)).map (·.quantity)).sum
      ∧ (untalliedState.vouchers.stock.get k).outstanding = 0 := by decide +kernel
  simp [VoucherLaw, hrecords, untallied_live, hstock]

theorem untallied_reservationLaw : ReservationLaw untalliedState := by
  have hsizes : untalliedState.sales.reservedSales = 1 ∧ untalliedState.sales.reservedVouchers = 1
      ∧ untalliedState.sales.records = [] ∧ untalliedState.vouchers.records = [] := ⟨rfl, rfl, rfl, rfl⟩
  simp [ReservationLaw, untallied_live, untalliedBasket, hsizes]

theorem untallied_attemptLaw : AttemptLaw untalliedState := by
  have hdoubts : untalliedState.pay.doubts = [] := rfl
  have hnone : ∀ {α : Type}, (indices 8).flatMap (fun _ => ([] : List α)) = [] := List.flatMap_eq_nil_iff.2 fun _ _ => rfl
  simp [AttemptLaw, untallied_payLine, untallied_live, untalliedBasket, hdoubts, hnone]

theorem untallied_owedLaw : OwedLaw untalliedState := by
  have hkiosk : ∀ n, untalliedState.ifc.kiosk.get n = none := by decide +kernel
  have hconcession : ∀ n, untalliedState.ifc.concession.get n = none := by decide +kernel
  have hoffice : untalliedState.ifc.office = [] := rfl
  simp [OwedLaw, untallied_owed, untallied_sending, hkiosk, hconcession, hoffice]

theorem untallied_capacityLaw : CapacityLaw untalliedState := by
  have hqueues : ∀ i, (untalliedState.ticketLine i).queue.length ≤ 6 := by decide +kernel
  have hsizes : untalliedState.screenings.length ≤ 32 ∧ untalliedState.ifc.office.length ≤ 4
      ∧ untalliedState.print.waiting.length ≤ 16 := by decide +kernel
  exact ⟨hsizes.1, hsizes.2.1, hsizes.2.2, hqueues, fun i => by simp [untallied_payLine]⟩

theorem untallied_books : BooksLaw untalliedState :=
  ⟨untallied_basketLaw, untallied_entryLaw, by simp [SaleLaw, untalliedState, SaleTable.reset], untallied_voucherLaw,
    untallied_reservationLaw, by simp [PayLaw, untallied_payLine], untallied_attemptLaw, untallied_owedLaw,
    untallied_capacityLaw⟩

/-- No basket is left, and the unit stands in in_baskets. -/
def leavesUnit : Host.Outcome State Fault Refusal → Bool
  | .next t => t.liveBaskets.isEmpty && (t.vouchers.stock.get 0).inBaskets == 1
  | _ => false

theorem untallied_sold : leavesUnit (step untalliedState) = true := by decide +kernel

/-- Refutes O14: SELL_BASKET of a basket that commits without a tally leaves its unit in in_baskets, which BasketLaw lets
stand: its last clause, that a reserved basket has a tally, is said of the tally it has. -/
theorem not_booksLawKept : ¬ Obligations.BooksLawKept := by
  unfold Obligations.BooksLawKept
  rintro ⟨hkept, -⟩
  obtain ⟨t, ht, -⟩ : ∃ t, step untalliedState = .next t ∧ t.pending = [] :=
    exec_pending .sellBasket { untalliedState with pending := [] }
  have hsold := untallied_sold
  simp only [ht, leavesUnit, Bool.and_eq_true, List.isEmpty_iff, beq_iff_eq] at hsold
  obtain ⟨hlive, hstock⟩ := hsold
  obtain ⟨-, -, -, ⟨-, -, hvouchers⟩, -⟩ := hkept _ _ untallied_books ht
  have hcount := (hvouchers 0).1
  rw [hlive, hstock] at hcount
  simp at hcount

end Sys2Proof.Machine
end
